-- ==== Sys2Proof/Word.lean ====
section
/-!
DEFINITION. The word types of the Acwyn and their plainest arithmetic.
Widths follow R11 (01): general registers 64 bits, vectors 2,048 bits, masks 256 bits.
-/

namespace Sys2Proof

/-- One byte of memory (R3). -/
abbrev Byte := BitVec 8

/-- A general register, a scalar port or a scalar latch (R11). -/
abbrev Word := BitVec 64

/-- A vector register, a vector port or a vector latch (R11). -/
abbrev VWord := BitVec 2048

/-- A mask register, a vector unit's .k latch or .m port (R11). -/
abbrev KWord := BitVec 256

/-- A bundle index: the PC is 47 bits (R8). -/
abbrev BIndex := BitVec 47

/-- A 24-bit slot of a bundle (R30). -/
abbrev SlotWord := BitVec 24

end Sys2Proof
end

