-- ==== Sys2Proof/Syntax.lean ====
section
/-!
DEFINITION. The syntax of the Acwyn: sources, destinations, ports, and the ONE inductive of its steps.
Every row of the table of operations and events is a constructor: the move slots of R30-R37 (02), and the whole,
indivisible steps of the other agents (95). A slot's constructor carries its guard and its source. Which core, context, die,
virtual interface or item an agent's step is about is said by the state's focus (log 1), since the step itself encodes nothing:
the letters after a step's rule are the fields of the focus it reads (c a module core number, x a context of it, d a die, v a
virtual interface, i and k the place of an item in the list of the state that holds it, o an offset, w data).
-/

namespace Sys2Proof

/-- A guard: bit 4 inverts, bits 3:0 select a predicate (R21, R31). -/
abbrev Guard := BitVec 5

/-- The result ports (R34, codes 0x080-0x08E); u is the unit's number. -/
inductive ResPort where
  | ia (u : BitVec 1) | im | fa
  | vuV (u : BitVec 1) | vuS (u : BitVec 1) | vuM (u : BitVec 1)
  | qu | ce | mx | sy | xu
deriving DecidableEq, Repr

/-- The operand latches and the parameter ports (R37): written, never triggered. -/
inductive Latch where
  | iaO (u : BitVec 1) | imO | faO | faP | cuO
  | vuO (u : BitVec 1) | vuP (u : BitVec 1) | vuK (u : BitVec 1)
  | auO | auX | quO | ceO | syO | xuO
  | mp (i : BitVec 3) | tc (i : BitVec 4)
deriving DecidableEq, Repr

/-- A move's source (R34). A long immediate carries the value of its data slots (R33, R35). -/
inductive Src where
  | g (i : BitVec 6) | p (i : BitVec 4) | v (i : BitVec 5) | k (i : BitVec 3) | pk | lr
  | ldq | vldq | frecv
  | port (r : ResPort)
  | qp (h : BitVec 2) | qv (h : BitVec 2)
  | short (c : BitVec 7)
  | limm24 (x : BitVec 24) | limm48 (x : BitVec 48)
deriving DecidableEq, Repr

/-- A destination that triggers nothing and pushes nothing: a register or a latch (R36). -/
inductive Dst where
  | g (i : BitVec 6) | p (i : BitVec 4) | v (i : BitVec 5) | k (i : BitVec 3) | pk | lr
  | latch (l : Latch)
deriving DecidableEq, Repr

/-- One constructor for each row of the table of operations and events. -/
inductive Instr where
  /-- MOVE: Copies a source to a register, an operand port or a parameter port, adjusted for width (R11). -/
  | move (g : Guard) (s : Src) (d : Dst)
  /-- NEVER_MOVE: A slot whose guard is 0b10000 has no effect (R32). -/
  | neverMove (a : BitVec 9) (b : BitVec 10)
  /-- LIMM24: A move whose source is a 24-bit immediate held in the next slot (R33). -/
  | limm24 (g : Guard) (x : BitVec 24) (d : Dst)
  /-- LIMM48: A move whose source is a 48-bit immediate held in the next two slots (R33). -/
  | limm48 (g : Guard) (x : BitVec 48) (d : Dst)
  /-- SD: Pushes one scalar store-data entry (R118). -/
  | sd (g : Guard) (s : Src)
  /-- VSD: Pushes one vector store-data entry (R118). -/
  | vsd (g : Guard) (s : Src)
  /-- FSEND: Pushes a payload word to the fabric send FIFO (R374). -/
  | fsend (g : Guard) (s : Src)
  /-- FSENDH: Pushes a header word to the fabric send FIFO, opening a message (R372). -/
  | fsendh (g : Guard) (s : Src)
  /-- LDQ: Pops the LDQ head in the scalar view, converting under its pair (R86). -/
  | ldq (g : Guard) (d : Dst)
  /-- VLDQ: Pops the LDQ head in the vector view, converting under its pair (R86). -/
  | vldq (g : Guard) (d : Dst)
  /-- FRECV: Pops one word of the fabric receive FIFO (R376). -/
  | frecv (g : Guard) (d : Dst)
  /-- QP: Pops a stage-queue handle's input queue in the scalar view (R155). -/
  | qp (g : Guard) (h : BitVec 2) (d : Dst)
  /-- QV: Pops a stage-queue handle's input queue in the vector view (R155). -/
  | qv (g : Guard) (h : BitVec 2) (d : Dst)
  /-- ADD: Integer add, wrapped to 64 bits (R48). -/
  | add (g : Guard) (s : Src) (u : BitVec 1)
  /-- SUB: Integer subtract, wrapped (R48). -/
  | sub (g : Guard) (s : Src) (u : BitVec 1)
  /-- ADD32: 32-bit add, sign-extended (R48). -/
  | add32 (g : Guard) (s : Src) (u : BitVec 1)
  /-- SUB32: 32-bit subtract, sign-extended (R48). -/
  | sub32 (g : Guard) (s : Src) (u : BitVec 1)
  /-- AND: Bitwise AND (R48). -/
  | and (g : Guard) (s : Src) (u : BitVec 1)
  /-- OR: Bitwise OR (R48). -/
  | or (g : Guard) (s : Src) (u : BitVec 1)
  /-- XOR: Bitwise XOR (R48). -/
  | xor (g : Guard) (s : Src) (u : BitVec 1)
  /-- ANDN: a AND NOT b (R48). -/
  | andn (g : Guard) (s : Src) (u : BitVec 1)
  /-- SHL: Logical shift left (R48). -/
  | shl (g : Guard) (s : Src) (u : BitVec 1)
  /-- SHR: Logical shift right (R48). -/
  | shr (g : Guard) (s : Src) (u : BitVec 1)
  /-- SAR: Arithmetic shift right (R48). -/
  | sar (g : Guard) (s : Src) (u : BitVec 1)
  /-- ROL: Rotate left (R48). -/
  | rol (g : Guard) (s : Src) (u : BitVec 1)
  /-- MIN: Signed minimum (R48). -/
  | min (g : Guard) (s : Src) (u : BitVec 1)
  /-- MAX: Signed maximum (R48). -/
  | max (g : Guard) (s : Src) (u : BitVec 1)
  /-- MINU: Unsigned minimum (R48). -/
  | minu (g : Guard) (s : Src) (u : BitVec 1)
  /-- MAXU: Unsigned maximum (R48). -/
  | maxu (g : Guard) (s : Src) (u : BitVec 1)
  /-- SEQ: 1 if equal (R48). -/
  | seq (g : Guard) (s : Src) (u : BitVec 1)
  /-- SNE: 1 if not equal (R48). -/
  | sne (g : Guard) (s : Src) (u : BitVec 1)
  /-- SLT: 1 if signed less than (R48). -/
  | slt (g : Guard) (s : Src) (u : BitVec 1)
  /-- SLTU: 1 if unsigned less than (R48). -/
  | sltu (g : Guard) (s : Src) (u : BitVec 1)
  /-- SLE: 1 if signed less or equal (R48). -/
  | sle (g : Guard) (s : Src) (u : BitVec 1)
  /-- SLEU: 1 if unsigned less or equal (R48). -/
  | sleu (g : Guard) (s : Src) (u : BitVec 1)
  /-- SEXT8: Sign-extends bits 7:0 (R48). -/
  | sext8 (g : Guard) (s : Src) (u : BitVec 1)
  /-- SEXT16: Sign-extends bits 15:0 (R48). -/
  | sext16 (g : Guard) (s : Src) (u : BitVec 1)
  /-- SEXT32: Sign-extends bits 31:0 (R48). -/
  | sext32 (g : Guard) (s : Src) (u : BitVec 1)
  /-- ZEXT32: Zero-extends bits 31:0 (R48). -/
  | zext32 (g : Guard) (s : Src) (u : BitVec 1)
  /-- CLZ: Counts leading zeros (R48). -/
  | clz (g : Guard) (s : Src) (u : BitVec 1)
  /-- CTZ: Counts trailing zeros (R48). -/
  | ctz (g : Guard) (s : Src) (u : BitVec 1)
  /-- POPC: Counts one bits (R48). -/
  | popc (g : Guard) (s : Src) (u : BitVec 1)
  /-- SH1ADD: (a << 1) + b (R48). -/
  | sh1add (g : Guard) (s : Src) (u : BitVec 1)
  /-- SH2ADD: (a << 2) + b (R48). -/
  | sh2add (g : Guard) (s : Src) (u : BitVec 1)
  /-- SH3ADD: (a << 3) + b (R48). -/
  | sh3add (g : Guard) (s : Src) (u : BitVec 1)
  /-- PASS: Returns b (R48). -/
  | pass (g : Guard) (s : Src) (u : BitVec 1)
  /-- BEXT: Extracts a bit field of a (R49). -/
  | bext (g : Guard) (s : Src) (u : BitVec 1)
  /-- MUL: Low 64 bits of the product (R51). -/
  | mul (g : Guard) (s : Src)
  /-- MULH: High 64 bits of the signed product (R51). -/
  | mulh (g : Guard) (s : Src)
  /-- MULHU: High 64 bits of the unsigned product (R51). -/
  | mulhu (g : Guard) (s : Src)
  /-- MUL32: Exact product of signed 32-bit values (R51). -/
  | mul32 (g : Guard) (s : Src)
  /-- DIV: Signed division toward zero; im is busy for 18 cycles (R52). -/
  | div (g : Guard) (s : Src)
  /-- DIVU: Unsigned division (R52). -/
  | divu (g : Guard) (s : Src)
  /-- REM: Signed remainder (R52). -/
  | rem (g : Guard) (s : Src)
  /-- REMU: Unsigned remainder (R52). -/
  | remu (g : Guard) (s : Src)
  /-- FADD: FP32 add (R55). -/
  | fadd (g : Guard) (s : Src)
  /-- FSUB: FP32 subtract (R55). -/
  | fsub (g : Guard) (s : Src)
  /-- FMUL: FP32 multiply (R55). -/
  | fmul (g : Guard) (s : Src)
  /-- FFMA: FP32 fused multiply-add (R55). -/
  | ffma (g : Guard) (s : Src)
  /-- FMIN: FP32 minimum (R57). -/
  | fmin (g : Guard) (s : Src)
  /-- FMAX: FP32 maximum (R57). -/
  | fmax (g : Guard) (s : Src)
  /-- FEQ: Quiet FP32 equality compare (R57). -/
  | feq (g : Guard) (s : Src)
  /-- FLT: Quiet FP32 less-than compare (R57). -/
  | flt (g : Guard) (s : Src)
  /-- FLE: Quiet FP32 less-or-equal compare (R57). -/
  | fle (g : Guard) (s : Src)
  /-- FUN: 1 if either operand is NaN (R55). -/
  | fun (g : Guard) (s : Src)
  /-- FSQRT: FP32 square root (R55). -/
  | fsqrt (g : Guard) (s : Src)
  /-- FRCP: FP32 reciprocal (R55). -/
  | frcp (g : Guard) (s : Src)
  /-- FCVTI: Converts FP32 to int32 with saturation (R58). -/
  | fcvti (g : Guard) (s : Src)
  /-- ICVTF: Converts int64 to FP32 (R55). -/
  | icvtf (g : Guard) (s : Src)
  /-- DADD: FP64 add (R55). -/
  | dadd (g : Guard) (s : Src)
  /-- DSUB: FP64 subtract (R55). -/
  | dsub (g : Guard) (s : Src)
  /-- DMUL: FP64 multiply (R55). -/
  | dmul (g : Guard) (s : Src)
  /-- DFMA: FP64 fused multiply-add (R55). -/
  | dfma (g : Guard) (s : Src)
  /-- FCVTD: Converts FP32 to FP64 exactly (R58). -/
  | fcvtd (g : Guard) (s : Src)
  /-- DCVTF: Converts FP64 to FP32 (R58). -/
  | dcvtf (g : Guard) (s : Src)
  /-- BR: Absolute branch after two delay bundles (R60). -/
  | br (g : Guard) (s : Src)
  /-- BRR: Relative branch (R60). -/
  | brr (g : Guard) (s : Src)
  /-- CALL: Absolute call that writes lr (R61). -/
  | call (g : Guard) (s : Src)
  /-- CALLR: Relative call that writes lr (R61). -/
  | callr (g : Guard) (s : Src)
  /-- RET: Transfer to lr (R60). -/
  | ret (g : Guard) (s : Src)
  /-- LOOP: Arms a hardware loop level with a count (R65). -/
  | loop (g : Guard) (s : Src)
  /-- LBRK: Disarms a loop level, optionally transferring past its end (R68). -/
  | lbrk (g : Guard) (s : Src)
  /-- VU0_VADD: Lane-wise add on vu0 (R93). -/
  | vu0Vadd (g : Guard) (s : Src)
  /-- VU1_VADD: Lane-wise add on vu1 (R93). -/
  | vu1Vadd (g : Guard) (s : Src)
  /-- VU0_VSUB: Lane-wise subtract on vu0 (R93). -/
  | vu0Vsub (g : Guard) (s : Src)
  /-- VU1_VSUB: Lane-wise subtract on vu1 (R93). -/
  | vu1Vsub (g : Guard) (s : Src)
  /-- VU0_VMUL: Lane-wise multiply on vu0 (R93). -/
  | vu0Vmul (g : Guard) (s : Src)
  /-- VU1_VMUL: Lane-wise multiply on vu1 (R93). -/
  | vu1Vmul (g : Guard) (s : Src)
  /-- VU0_VFMA: Lane-wise fused multiply-add on vu0 (R93). -/
  | vu0Vfma (g : Guard) (s : Src)
  /-- VU1_VFMA: Lane-wise fused multiply-add on vu1 (R93). -/
  | vu1Vfma (g : Guard) (s : Src)
  /-- VU0_VMIN: Lane-wise minimum on vu0 (R95). -/
  | vu0Vmin (g : Guard) (s : Src)
  /-- VU1_VMIN: Lane-wise minimum on vu1 (R95). -/
  | vu1Vmin (g : Guard) (s : Src)
  /-- VU0_VMAX: Lane-wise maximum on vu0 (R95). -/
  | vu0Vmax (g : Guard) (s : Src)
  /-- VU1_VMAX: Lane-wise maximum on vu1 (R95). -/
  | vu1Vmax (g : Guard) (s : Src)
  /-- VU0_VABS: Lane-wise absolute value on vu0 (R95). -/
  | vu0Vabs (g : Guard) (s : Src)
  /-- VU1_VABS: Lane-wise absolute value on vu1 (R95). -/
  | vu1Vabs (g : Guard) (s : Src)
  /-- VU0_VNEG: Lane-wise negation on vu0 (R95). -/
  | vu0Vneg (g : Guard) (s : Src)
  /-- VU1_VNEG: Lane-wise negation on vu1 (R95). -/
  | vu1Vneg (g : Guard) (s : Src)
  /-- VU0_VCEQ: Lane-wise equality compare on vu0 (R96). -/
  | vu0Vceq (g : Guard) (s : Src)
  /-- VU1_VCEQ: Lane-wise equality compare on vu1 (R96). -/
  | vu1Vceq (g : Guard) (s : Src)
  /-- VU0_VCLT: Lane-wise less-than compare on vu0 (R96). -/
  | vu0Vclt (g : Guard) (s : Src)
  /-- VU1_VCLT: Lane-wise less-than compare on vu1 (R96). -/
  | vu1Vclt (g : Guard) (s : Src)
  /-- VU0_VCLE: Lane-wise less-or-equal compare on vu0 (R96). -/
  | vu0Vcle (g : Guard) (s : Src)
  /-- VU1_VCLE: Lane-wise less-or-equal compare on vu1 (R96). -/
  | vu1Vcle (g : Guard) (s : Src)
  /-- VU0_VCUN: Lane-wise unordered compare on vu0 (R96). -/
  | vu0Vcun (g : Guard) (s : Src)
  /-- VU1_VCUN: Lane-wise unordered compare on vu1 (R96). -/
  | vu1Vcun (g : Guard) (s : Src)
  /-- VU0_VSEL: Lane select by mask on vu0 (R97). -/
  | vu0Vsel (g : Guard) (s : Src)
  /-- VU1_VSEL: Lane select by mask on vu1 (R97). -/
  | vu1Vsel (g : Guard) (s : Src)
  /-- VU0_VAND: Lane-wise AND on vu0 (R98). -/
  | vu0Vand (g : Guard) (s : Src)
  /-- VU1_VAND: Lane-wise AND on vu1 (R98). -/
  | vu1Vand (g : Guard) (s : Src)
  /-- VU0_VOR: Lane-wise OR on vu0 (R98). -/
  | vu0Vor (g : Guard) (s : Src)
  /-- VU1_VOR: Lane-wise OR on vu1 (R98). -/
  | vu1Vor (g : Guard) (s : Src)
  /-- VU0_VXOR: Lane-wise XOR on vu0 (R98). -/
  | vu0Vxor (g : Guard) (s : Src)
  /-- VU1_VXOR: Lane-wise XOR on vu1 (R98). -/
  | vu1Vxor (g : Guard) (s : Src)
  /-- VU0_VSHL: Lane-wise shift left on vu0 (R98). -/
  | vu0Vshl (g : Guard) (s : Src)
  /-- VU1_VSHL: Lane-wise shift left on vu1 (R98). -/
  | vu1Vshl (g : Guard) (s : Src)
  /-- VU0_VSHR: Lane-wise logical shift right on vu0 (R98). -/
  | vu0Vshr (g : Guard) (s : Src)
  /-- VU1_VSHR: Lane-wise logical shift right on vu1 (R98). -/
  | vu1Vshr (g : Guard) (s : Src)
  /-- VU0_VSAR: Lane-wise arithmetic shift right on vu0 (R98). -/
  | vu0Vsar (g : Guard) (s : Src)
  /-- VU1_VSAR: Lane-wise arithmetic shift right on vu1 (R98). -/
  | vu1Vsar (g : Guard) (s : Src)
  /-- VU0_VCVT: Converts lanes from VFMT to a sink format, by segment, on vu0 (R100). -/
  | vu0Vcvt (g : Guard) (s : Src)
  /-- VU1_VCVT: Converts lanes from VFMT to a sink format, by segment, on vu1 (R100). -/
  | vu1Vcvt (g : Guard) (s : Src)
  /-- VU0_VBCAST: Broadcasts a scalar into the active lanes of vu0 (R99). -/
  | vu0Vbcast (g : Guard) (s : Src)
  /-- VU1_VBCAST: Broadcasts a scalar into the active lanes of vu1 (R99). -/
  | vu1Vbcast (g : Guard) (s : Src)
  /-- VU0_VEXTR: Extracts one lane to the scalar port of vu0 (R99). -/
  | vu0Vextr (g : Guard) (s : Src)
  /-- VU1_VEXTR: Extracts one lane to the scalar port of vu1 (R99). -/
  | vu1Vextr (g : Guard) (s : Src)
  /-- VU0_VPERM: Permutes lanes by index on vu0 (R99). -/
  | vu0Vperm (g : Guard) (s : Src)
  /-- VU1_VPERM: Permutes lanes by index on vu1 (R99). -/
  | vu1Vperm (g : Guard) (s : Src)
  /-- VU0_VREDADD: Tree-sum reduction on vu0 (R101). -/
  | vu0Vredadd (g : Guard) (s : Src)
  /-- VU1_VREDADD: Tree-sum reduction on vu1 (R101). -/
  | vu1Vredadd (g : Guard) (s : Src)
  /-- VU0_VREDMAX: Maximum reduction on vu0 (R101). -/
  | vu0Vredmax (g : Guard) (s : Src)
  /-- VU1_VREDMAX: Maximum reduction on vu1 (R101). -/
  | vu1Vredmax (g : Guard) (s : Src)
  /-- VU0_VREDMIN: Minimum reduction on vu0 (R101). -/
  | vu0Vredmin (g : Guard) (s : Src)
  /-- VU1_VREDMIN: Minimum reduction on vu1 (R101). -/
  | vu1Vredmin (g : Guard) (s : Src)
  /-- VU0_VEXP2: Lane-wise 2^x on vu0 (R103). -/
  | vu0Vexp2 (g : Guard) (s : Src)
  /-- VU1_VEXP2: Lane-wise 2^x on vu1 (R103). -/
  | vu1Vexp2 (g : Guard) (s : Src)
  /-- VU0_VLOG2: Lane-wise log2 on vu0 (R103). -/
  | vu0Vlog2 (g : Guard) (s : Src)
  /-- VU1_VLOG2: Lane-wise log2 on vu1 (R103). -/
  | vu1Vlog2 (g : Guard) (s : Src)
  /-- VU0_VRCP: Lane-wise reciprocal on vu0 (R103). -/
  | vu0Vrcp (g : Guard) (s : Src)
  /-- VU1_VRCP: Lane-wise reciprocal on vu1 (R103). -/
  | vu1Vrcp (g : Guard) (s : Src)
  /-- VU0_VRSQRT: Lane-wise reciprocal square root on vu0 (R103). -/
  | vu0Vrsqrt (g : Guard) (s : Src)
  /-- VU1_VRSQRT: Lane-wise reciprocal square root on vu1 (R103). -/
  | vu1Vrsqrt (g : Guard) (s : Src)
  /-- VU0_VTANH: Lane-wise tanh on vu0 (R103). -/
  | vu0Vtanh (g : Guard) (s : Src)
  /-- VU1_VTANH: Lane-wise tanh on vu1 (R103). -/
  | vu1Vtanh (g : Guard) (s : Src)
  /-- VU0_VQUANT: Block-quantises the lanes on vu0 (R104). -/
  | vu0Vquant (g : Guard) (s : Src)
  /-- VU1_VQUANT: Block-quantises the lanes on vu1 (R104). -/
  | vu1Vquant (g : Guard) (s : Src)
  /-- VU0_VDEQ: Dequantises block-scaled elements on vu0 (R105). -/
  | vu0Vdeq (g : Guard) (s : Src)
  /-- VU1_VDEQ: Dequantises block-scaled elements on vu1 (R105). -/
  | vu1Vdeq (g : Guard) (s : Src)
  /-- VU0_VNF: Detects non-finite lanes on vu0 (R106). -/
  | vu0Vnf (g : Guard) (s : Src)
  /-- VU1_VNF: Detects non-finite lanes on vu1 (R106). -/
  | vu1Vnf (g : Guard) (s : Src)
  /-- VU0_VSCAN: Inclusive prefix sum on vu0 (R102). -/
  | vu0Vscan (g : Guard) (s : Src)
  /-- VU1_VSCAN: Inclusive prefix sum on vu1 (R102). -/
  | vu1Vscan (g : Guard) (s : Src)
  /-- VU0_VTOPK: Selects the k largest lanes on vu0 (R107). -/
  | vu0Vtopk (g : Guard) (s : Src)
  /-- VU1_VTOPK: Selects the k largest lanes on vu1 (R107). -/
  | vu1Vtopk (g : Guard) (s : Src)
  /-- VU0_VIDX: Writes an index sequence into the lanes of vu0 (R99). -/
  | vu0Vidx (g : Guard) (s : Src)
  /-- VU1_VIDX: Writes an index sequence into the lanes of vu1 (R99). -/
  | vu1Vidx (g : Guard) (s : Src)
  /-- LD8: Pushes a 1-byte scalar load (R113). -/
  | ld8 (g : Guard) (s : Src)
  /-- LD16: Pushes a 2-byte scalar load (R113). -/
  | ld16 (g : Guard) (s : Src)
  /-- LD32: Pushes a 4-byte scalar load (R113). -/
  | ld32 (g : Guard) (s : Src)
  /-- LD64: Pushes an 8-byte scalar load (R113). -/
  | ld64 (g : Guard) (s : Src)
  /-- VLD: Pushes a contiguous or strided vector load (R114). -/
  | vld (g : Guard) (s : Src)
  /-- VLDM: Pushes a masked-range vector load (R114). -/
  | vldm (g : Guard) (s : Src)
  /-- VLDG: Pushes a gather load through an index block (R115). -/
  | vldg (g : Guard) (s : Src)
  /-- ST8: Pushes a 1-byte store (R119). -/
  | st8 (g : Guard) (s : Src)
  /-- ST16: Pushes a 2-byte store (R119). -/
  | st16 (g : Guard) (s : Src)
  /-- ST32: Pushes a 4-byte store (R119). -/
  | st32 (g : Guard) (s : Src)
  /-- ST64: Pushes an 8-byte store (R119). -/
  | st64 (g : Guard) (s : Src)
  /-- VST: Pushes a contiguous or strided vector store (R119). -/
  | vst (g : Guard) (s : Src)
  /-- VSTM: Pushes a masked vector store (R119). -/
  | vstm (g : Guard) (s : Src)
  /-- VSTS: Pushes a scatter store (R119). -/
  | vsts (g : Guard) (s : Src)
  /-- LDBLK: Declares or releases a load-block (R195). -/
  | ldblk (g : Guard) (s : Src)
  /-- LDH: Pushes a step-checked halo vector load (R311). -/
  | ldh (g : Guard) (s : Src)
  /-- AMOADD: Atomic add (R217). -/
  | amoadd (g : Guard) (s : Src)
  /-- AMOMIN: Atomic signed minimum (R217). -/
  | amomin (g : Guard) (s : Src)
  /-- AMOMAX: Atomic signed maximum (R217). -/
  | amomax (g : Guard) (s : Src)
  /-- AMOAND: Atomic AND (R217). -/
  | amoand (g : Guard) (s : Src)
  /-- AMOOR: Atomic OR (R217). -/
  | amoor (g : Guard) (s : Src)
  /-- AMOXOR: Atomic XOR (R217). -/
  | amoxor (g : Guard) (s : Src)
  /-- AMOSWP: Atomic swap (R217). -/
  | amoswp (g : Guard) (s : Src)
  /-- AMOCAS: Atomic compare-and-swap (R217). -/
  | amocas (g : Guard) (s : Src)
  /-- AMOFADD: Atomic FP32 add (R217). -/
  | amofadd (g : Guard) (s : Src)
  /-- QBIND: Rebinds a stage-queue handle (R154). -/
  | qbind (g : Guard) (s : Src)
  /-- QPUSH: Pushes a scalar entry to a stage queue (R155). -/
  | qpush (g : Guard) (s : Src)
  /-- QPUSHV: Pushes a vector entry to a stage queue (R155). -/
  | qpushv (g : Guard) (s : Src)
  /-- QTRY: Returns the entries present or free, without blocking (R154). -/
  | qtry (g : Guard) (s : Src)
  /-- QCLOSE: Closes a stage queue (R156). -/
  | qclose (g : Guard) (s : Src)
  /-- QFMT: Sets a stage queue's format pair (R154). -/
  | qfmt (g : Guard) (s : Src)
  /-- QINFO: Returns handle, coordinate, team or scope information (R141). -/
  | qinfo (g : Guard) (s : Src)
  /-- CPY: Queues a copy command on a token (R232). -/
  | cpy (g : Guard) (s : Src)
  /-- CHAN: Starts a copy channel at a head record (R233). -/
  | chan (g : Guard) (s : Src)
  /-- CPYQ: Reads, and optionally clears, a token word or a channel word (R237). -/
  | cpyq (g : Guard) (s : Src)
  /-- BINI: Initialises a barrier object through the SAQ (R239). -/
  | bini (g : Guard) (s : Src)
  /-- BEXP: Adds an adjustment to a barrier's pending bytes (R239). -/
  | bexp (g : Guard) (s : Src)
  /-- BARR: Arrives on a barrier after earlier stores are performed (R239). -/
  | barr (g : Guard) (s : Src)
  /-- BWAIT: Blocks until the barrier's phase differs from the given parity (R239). -/
  | bwait (g : Guard) (s : Src)
  /-- CABT: Cancels the context's copy commands, and its channels when all is set (R245). -/
  | cabt (g : Guard) (s : Src)
  /-- MCALL: Queues a matrix microprogram call (R256). -/
  | mcall (g : Guard) (s : Src)
  /-- MGRANT: Requests or shrinks a bank holding (R264). -/
  | mgrant (g : Guard) (s : Src)
  /-- MREL: Releases banks down to n (R265). -/
  | mrel (g : Guard) (s : Src)
  /-- MSTAT: Returns a tile word or the grant, call, MXNAN or allocator status (R257). -/
  | mstat (g : Guard) (s : Src)
  /-- MWR: The system context writes a microprogram store word or a routine-table entry (R258). -/
  | mwr (g : Guard) (s : Src)
  /-- MABT: Cancels the context's matrix calls (R259). -/
  | mabt (g : Guard) (s : Src)
  /-- WAIT: Blocks until the token and outstanding-counter conditions hold (R124). -/
  | wait (g : Guard) (s : Src)
  /-- FENCE: Blocks until the earlier accesses are performed at a scope, dropping remote lines at scope 4 or above (R214). -/
  | fence (g : Guard) (s : Src)
  /-- ACQ: Acquires a sync object, waiting for its version or ownership (R212). -/
  | acq (g : Guard) (s : Src)
  /-- REL: Queues a release of a sync object in the SAQ (R213). -/
  | rel (g : Guard) (s : Src)
  /-- CTLR: Reads a control register into sy.r (R14). -/
  | ctlr (g : Guard) (s : Src)
  /-- CTLW: Writes a control register from sy.o at the end of the bundle (R14). -/
  | ctlw (g : Guard) (s : Src)
  /-- TRAP: Raises BREAK with a code (R345). -/
  | trap (g : Guard) (s : Src)
  /-- ERET: Returns from a user handler to the trapping bundle, re-executing it or skipping it (R346). -/
  | eret (g : Guard) (s : Src)
  /-- YIELD: Switches to another ready context after commit (R133). -/
  | yield (g : Guard) (s : Src)
  /-- SPAWN: Queues a loop record as a child launch counted into a scope (R148). -/
  | spawn (g : Guard) (s : Src)
  /-- FSO: Opens a finish scope under a parent (R146). -/
  | fso (g : Guard) (s : Src)
  /-- FSC: Closes a finish scope's open hold (R147). -/
  | fsc (g : Guard) (s : Src)
  /-- FSW: Blocks until a finish scope has completed (R149). -/
  | fsw (g : Guard) (s : Src)
  /-- TBAR: Team barrier over the die team or the module team (R143). -/
  | tbar (g : Guard) (s : Src)
  /-- PARK: Blocks until a selected condition holds, counting the context as parked (R134). -/
  | park (g : Guard) (s : Src)
  /-- GBIND: Binds or unbinds a grid object to a handle (R306). -/
  | gbind (g : Guard) (s : Src)
  /-- GSTEP: Publishes a step and starts the slab reads and local fills (R307). -/
  | gstep (g : Guard) (s : Src)
  /-- GWAIT: Blocks until the ghost tags or the sent step reach a step (R309). -/
  | gwait (g : Guard) (s : Src)
  /-- GQRY: Returns a region tag, a step or the grid status (R310). -/
  | gqry (g : Guard) (s : Src)
  /-- XSCORE: Queues a choice record whose first proposal is sent at the SAQ head (R321). -/
  | xscore (g : Guard) (s : Src)
  /-- XSETTLE: Module-team barrier that waits until no proposal of the round is in flight (R324). -/
  | xsettle (g : Guard) (s : Src)
  /-- XEMIT: Emits the ragged tile records of a die's heaps and optionally starts the walk (R327). -/
  | xemit (g : Guard) (s : Src)
  /-- XPREF: Requests an expert fill, pins an expert or unpins it (R331). -/
  | xpref (g : Guard) (s : Src)
  /-- XQRY: Returns the current block record or an expert's state or heap size (R332). -/
  | xqry (g : Guard) (s : Src)
  /-- GVOBS: Queues a gradient statistic or a batch size for a Compass entry (R290). -/
  | gvobs (g : Guard) (s : Src)
  /-- GVGET: Reads a Compass entry word or its last epoch values (R291). -/
  | gvget (g : Guard) (s : Src)
  /-- GVEPOCH: Closes an epoch on a range of Compass entries and waits for the reply (R292). -/
  | gvepoch (g : Guard) (s : Src)
  /-- GVPIN: Pins, unpins or sets a Compass entry (R293). -/
  | gvpin (g : Guard) (s : Src)
  /-- BUNDLE_ISSUE: A context issues one bundle: sources are read at the start of the cycle, active moves act, pops and pushes are made, triggers start and destinations are written at the end of the cycle (R21; focus c). -/
  | bundleIssue
  /-- RESULT_DELIVERY: A fixed-latency operation delivers its result to its result port at the end of its last issue cycle and sets any flag it carries (R19; focus c x). -/
  | resultDelivery
  /-- CONTEXT_SWITCH: After a bundle has been blocked for more than SWT cycles while another context is ready, or after a yield or a worker's end, the core snapshots the outgoing context and switches to the next ready context at a cost of 6 cycles (R24; focus c). -/
  | contextSwitch
  /-- SYSTEM_RETURN: The system context finishes its firmware handler and returns to the user context, re-executing the trapping bundle for RESID, at a cost of 6 cycles (R348; focus c x). -/
  | systemReturn
  /-- DEBUG_RESUME: The physical function resumes a context that was stopped for a debugger (R339; focus c x). -/
  | debugResume
  /-- WDOG: A kill requested by the watchdog, by a core fence or by the physical function is delivered to each worker at its next bundle boundary, or at once when the worker is frozen, switched out or saved (R350; focus c x). -/
  | wdog
  /-- LAQ_SEND: The load-type request at the LAQ head is sent to memory once an LDQ entry is free, and reserves that entry (R108; focus c x). -/
  | laqSend
  /-- LDQ_ENTRY_LAND: A load entry's last byte, or its fault marker, lands; the entry becomes present in trigger order and the loads counter falls (R116; focus c x i). -/
  | ldqEntryLand
  /-- SAQ_DRAIN: The SAQ head is sent once its claimed SDQ entries are present, with its residency, window and permission checks made at the drain (R120; focus c x). -/
  | saqDrain
  /-- STORE_PERFORM: A store piece is accepted at the point that serves it and the stores counter falls when every piece is accepted (R205; focus c x i k). -/
  | storePerform
  /-- HOME_ACCESS_ARRIVAL: An access arrives at its home slice, where residency is decided and the access is served or refused, starting a fill when it is refused (R196; focus c x i k). -/
  | homeAccessArrival
  /-- WRITE_THROUGH_ACK: The home acknowledges a write-through, and the dirty bits of that write's words clear in the remote-data cache (R193; focus d i). -/
  | writeThroughAck
  /-- PAGER_FILL_START: The pager chooses a free frame for a page fill, or claims a victim when no frame is free, and the frame becomes FILLING (R199; focus d i). -/
  | pagerFillStart
  /-- CLAIM_COMPLETE: Once every access accepted before the claim has been performed, the remote copies are invalidated and a dirty frame is written back, the claimed frame becomes FREE (R199; focus d i). -/
  | claimComplete
  /-- PAGE_FILL_COMPLETE: A fill's last byte is written into its frame, and the page becomes resident (R197; focus d i). -/
  | pageFillComplete
  /-- ACQ_AT_HOME: An acq request reaches the object's home, where it waits in the waiter list until the version or the ownership condition holds, and is then answered (R212; focus c x). -/
  | acqAtHome
  /-- REL_AT_HOME: A release increments the object's version at its home, or releases exclusive ownership (R213; focus c x i). -/
  | relAtHome
  /-- WAITER_RETRY: A requester that was answered retry sends its request again after 256 clk (R211; focus c x). -/
  | waiterRetry
  /-- AMO_PERFORM: An amo is performed at its home as one indivisible read and write (R218; focus c x i). -/
  | amoPerform
  /-- DISPATCH_ROUND: Every 16 clk each die dispatcher, in ascending die order, picks at most one ready launch that it leads and claims that launch's contexts (R162). -/
  | dispatchRound
  /-- WORKER_START: A worker begins on its claimed context: the window table is copied, SEED is formed and the prologue or first iteration starts (R137; focus c x). -/
  | workerStart
  /-- LAUNCH_COMPLETE: When every worker has ended and every store, copy and tile operation they started has been performed, the launch completes and its scope is counted down (R140; focus i). -/
  | launchComplete
  /-- TEAM_MESSAGE_ARRIVAL: A module-team arrival or advance message reaches another die (R143; focus i k d). -/
  | teamMessageArrival
  /-- SCOPE_REMOTE_REQUEST: An increment, close or allocation check sent to another die's finish-scope table is applied there and answered (R146; focus i). -/
  | scopeRemoteRequest
  /-- SCOPE_DECREMENT: A decrement reaches a scope from a child launch's completion, a child scope's completion or an fsc (R150; focus i). -/
  | scopeDecrement
  /-- STAGE_ENTRY_VISIBLE: A pushed channel-queue entry becomes poppable 16 cycles after its push (R152; focus i k). -/
  | stageEntryVisible
  /-- STAGE_SLOT_FREED: A popped channel-queue slot becomes free for producers 16 cycles after the pop (R152; focus i k). -/
  | stageSlotFreed
  /-- BALANCER_INTERVAL: At the end of each balancer interval of I clk, the stage balancer reads the block counts and queue occupancies and resets the counts (R158; focus i). -/
  | balancerInterval
  /-- ENERGY_CHARGE_ARRIVAL: A charge message reaches the lead die, and the launch's current level is recomputed from its budget (R172; focus i). -/
  | energyChargeArrival
  /-- WATCHDOG_PRE: The watchdog count reaches L1 in RUN, and pre-emption is requested for every running launch of the queue (R176; focus v k). -/
  | watchdogPre
  /-- WATCHDOG_KILL: The watchdog count reaches L2 in PRE, and every running launch of the queue is killed (R176; focus v k). -/
  | watchdogKill
  /-- WATCHDOG_FENCE: The watchdog count reaches L3 in KILL, and the cores of the unfinished workers are fenced (R178; focus v k). -/
  | watchdogFence
  /-- PREEMPT_SAVE: At a worker's iteration boundary after a pre-emption request, matrix calls are suspended, loads land, the SAQ drains, and the image is written and the context emptied (R352; focus c x). -/
  | preemptSave
  /-- RESTORE: A saved worker is placed and restored: its image is read, its read-only tiles are reloaded, its queues are re-pushed and its spill area is replayed (R356; focus i). -/
  | restore
  /-- SPILL_WRITE: A network port writes a fabric arrival for an absent worker into that worker's image spill area (R357; focus i). -/
  | spillWrite
  /-- TENANT_VIOLATION: A BAR access outside the map, an error completion on host memory, or a window outside PART is detected; vcause is set and a kind-7 event is logged (R399; focus v k). -/
  | tenantViolation
  /-- VI_RESET: A write of 1 to VICTL.reset freezes the VI, kills its workers, empties its queues and resets its sequence numbers and registers (R400; focus v). -/
  | viReset
  /-- REGISTER_WRITE: A write to a register that has no row of its own, such as DSEED, CLIM, WDLIM, RCTL, CRANGE, LRANGE, SPOOL, PART, ELBASE, ELSIZE, SSEED, a backing-slot entry or VICTL.en and VICTL.debug (R4; focus v o w). -/
  | registerWrite
  /-- LAUNCH_PACKET: A host write to the launch window is examined, and is then accepted into its queue or refused with a code (R397; focus v o w). -/
  | launchPacket
  /-- BODY_RETRY: The Bivouac die reads a launch body again 1 µs after a mismatch and, after the last try, logs a stale body (R398; focus i). -/
  | bodyRetry
  /-- COMPASS_ENTRY_WRITE: A runtime write of a Compass entry word sets fmt from the ladder at pos, limiting pos to the ladder's last position (R282; focus i w). -/
  | compassEntryWrite
  /-- LADDER_WRITE: A write of a ladder register is applied, or is refused when a format within its length is not allowed (R283; focus v i w). -/
  | ladderWrite
  /-- LARDER_ENTRY_WRITE: A write of an expert table entry is checked and may make the entry valid, or resident at once with pre set (R316; focus v i w). -/
  | larderEntryWrite
  /-- GROUP_ENTRY_WRITE: A write of a group table entry applies to later packets, while rw stays set until the packets latched on the old value drain (R388; focus v i w). -/
  | groupEntryWrite
  /-- UE_COMMAND: The host advances the producer index of a VI's Ultra Ethernet command queue, and the entries are started as read, write or tagged send (R402; focus v). -/
  | ueCommand
  /-- UE_INBOUND_WRITE: An inbound Ultra Ethernet write is performed at scope 6 and completes with a release on its named sync object (R381; focus i). -/
  | ueInboundWrite
  /-- THERMAL_THROTTLE: Above 105 °C the management controller enables every core's limiter and lowers lim by one eighth each millisecond, restoring it below 100 °C (R403; focus i). -/
  | thermalThrottle
  /-- THERMAL_SHUTDOWN: At 115 °C the module fences every core and powers down its arrays (R403). -/
  | thermalShutdown
  /-- COLD_RESET: A cold reset brings the module up through the bring-up steps: image check, ring training, HBM scrub, library load, endpoint training and rack-ring set-up (R403). -/
  | coldReset
  /-- LANE_FAILURE: A failed UCIe lane takes its hop down, and the module is reset (R389). -/
  | laneFailure
  /-- COPY_COMMAND_START: A queued copy command starts: it waits under its acquire flag, reads and checks its records and reads its Compass entry (R234; focus c i). -/
  | copyCommandStart
  /-- COPY_PIECE: One sector piece of a copy is read, converted and written, and its bytes are reported to the barrier object (R234; focus c i k). -/
  | copyPiece
  /-- COPY_COMPLETION: Once every write is performed, the command releases its sync object, clears own, and decrements its token and arrives on its barrier (R234; focus c i). -/
  | copyCompletion
  /-- CHANNEL_STEP: A running channel reads the record at its head and starts it as a command, or stops the channel (R233; focus c x k). -/
  | channelStep
  /-- FIRMWARE_PATH: A faulting command is handed to the firmware path, which completes what it can and ends the command with status 4 or 5 and the slow bit set (R243; focus c i). -/
  | firmwarePath
  /-- BARRIER_UPDATE: Arrivals and byte reports are applied at a barrier object's home, and the phase inverts when both counts reach zero (R240; focus c x i). -/
  | barrierUpdate
  /-- BWAIT_REPLY: The home's reply showing the new phase releases a blocked bwait (R239; focus c x). -/
  | bwaitReply
  /-- MATRIX_CALL_START: A matrix call starts: it waits under its acquire flag, reads its routine entry and Compass entries, and requests its banks (R262; focus c x). -/
  | matrixCallStart
  /-- BANK_GRANT: At the end of a cycle the bank allocator applies releases, queues new requests and grants the FIFO head its lowest free banks (R264; focus c). -/
  | bankGrant
  /-- HALT: The micro-operation HALT ends the call (R275; focus c x). -/
  | halt
  /-- TLD: Loads a tile from memory, plain or bound to a Compass entry (R267; focus c x). -/
  | tld
  /-- TST: Writes a tile's rows, and its scales when it has them, to memory (R268; focus c x). -/
  | tst
  /-- TZERO: Zeroes the masked accumulators and their depths (R269; focus c x). -/
  | tzero
  /-- MMA: Multiplies two tiles into an accumulator in fixed 64-column k-blocks, with one rounding per k-block (R271; focus c x). -/
  | mma
  /-- RETIRE: Writes accumulator rows to memory, converted or block-encoded, then resets its depth and optionally zeroes it (R268; focus c x). -/
  | retire
  /-- SCALE: Multiplies every accumulator element by an f32 scale (R269; focus c x). -/
  | scale
  /-- MICRO_LOOP: Increments a micro-loop counter and branches back until the count is reached (R272; focus c x). -/
  | microLoop
  /-- PADD: Adds an immediate, a parameter or a team-block multiple to a captured parameter (R272; focus c x). -/
  | padd
  /-- SIGNAL: Waits until the call's writes are performed at a scope, then arrives on a barrier object (R273; focus c x). -/
  | signal
  /-- TEAMSYNC: Waits until every die-team member's call reaches the same teamsync id (R274; focus c x). -/
  | teamsync
  /-- COMPASS_CONTRIBUTION: Compass accepts a tagged engine contribution, or discards it when its version tag differs (R285; focus i). -/
  | compassContribution
  /-- COMPASS_EPOCH: Compass applies the epoch decision to each entry of a gvepoch range, installs the changes in every die's copy and replies (R287; focus c x). -/
  | compassEpoch
  /-- COMPASS_OBS_ACCEPT: Compass accepts a gvobs and adds to S_v or S_m, or sets B (R290; focus i). -/
  | compassObsAccept
  /-- COMPASS_PIN_ACCEPT: Compass applies a gvpin op to an entry, installs the change and replies (R293; focus c x). -/
  | compassPinAccept
  /-- SLAB_SEND: Once the receiver's own step reaches s, the gate opens and Guyline reads a boundary slab and sends it to the neighbour's ghost region (R307; focus d i k). -/
  | slabSend
  /-- LOCAL_FILL: Guyline fills a boundary ghost region by the zero, mirror or damping rule once its source is ready (R304; focus d i k). -/
  | localFill
  /-- SLAB_DELIVERY: A delivered slab is written and the region's tag becomes s, or the slab is discarded on a mismatch (R308; focus i). -/
  | slabDelivery
  /-- LDH_CHECK: A step-checked load reaching the engine is tested for currency against the region tags, then read or held stale (R312; focus c x). -/
  | ldhCheck
  /-- STALEHALO_TIMEOUT: A stale ldh that is still stale 2^tex clk after its first check lands marked STALEHALO (R313; focus c x). -/
  | stalehaloTimeout
  /-- PROPOSAL_ARRIVE: A routing proposal reaches an expert's heap and is inserted, displaces the weakest held proposal, or falls (R322; focus i). -/
  | proposalArrive
  /-- EXPERT_FILL_START: A filling expert begins its copy once earlier overlapping requests have settled and no overlapping entry is pinned, evicting the resident overlapping entries (R317; focus i). -/
  | expertFillStart
  /-- EXPERT_FILL_COMPLETE: An expert's last byte is performed, the expert becomes resident, and its parked blocks are requeued and pinned (R317; focus i). -/
  | expertFillComplete
  /-- EXPERT_FILL_FAIL: A fill that fails is started once more; on a second failure the expert becomes absent with err set and its parked blocks are released (R317; focus i). -/
  | expertFillFail
  /-- WALK_BATCH_START: The block walker apportions the clusters among the batch's experts and claims a context on each core (R328; focus i). -/
  | walkBatchStart
  /-- BLOCK_DISPATCH: Every 16 clk the walker dispatches the next block to its core, pinning a resident expert, or parks the block (R329; focus i). -/
  | blockDispatch
  /-- WAITER_POOL_RETRY: A block that found the waiter pool empty is retried after 256 clk (R330; focus i). -/
  | waiterPoolRetry
  /-- RING_SLOT_ALLOCATION: Each ring cycle a station gives the empty passing slots to starved tiers first and then by strict priority (R367; focus i). -/
  | ringSlotAllocation
  /-- FLIT_ARRIVAL: A flit reaching its destination station is taken, or is refused and circulates, possibly with an escape reservation (R368; focus i k). -/
  | flitArrival
  /-- FABRIC_MESSAGE_SEND: The network port takes a complete message from the send FIFO once its response words are reserved, or discards a malformed message (R374; focus c x). -/
  | fabricMessageSend
  /-- FABRIC_ACCESS_PERFORM: A fabric load, store or atomic is performed at the scope-5 or scope-6 point of its address (R377; focus i). -/
  | fabricAccessPerform
  /-- FABRIC_MESSAGE_DELIVERY: A message reaches the addressee's receive FIFO or spill area, or is discarded with status 4 or 5 (R378; focus i). -/
  | fabricMessageDelivery
  /-- FABRIC_RESPONSE: A response lands in its reserved receive-FIFO words (R376; focus i). -/
  | fabricResponse
  /-- MULTICAST_PACKET: The Bivouac die latches the group entry and sends a copy of a packet to every member (R385; focus i). -/
  | multicastPacket
  /-- REDUCTION_CONTRIBUTION: A contribution reaches the root's reduction storage and, once all have arrived, the unit is combined in id order and written to every member (R386; focus i). -/
  | reductionContribution
  /-- REDUCTION_RETRY: A contribution refused for lack of storage is sent again after 256 clk (R387; focus i). -/
  | reductionRetry
  /-- CORE_RESET: The physical function resets a fenced core, after which the core takes dispatch again (R178; focus c). -/
  | coreReset
  /-- NVME_FAILURE: An NVMe access for a pager fill or write-back fails, or names an invalid backing slot, and the operation ends with ECCU (R401; focus d i). -/
  | nvmeFailure
deriving DecidableEq, Repr

/-- A micro-operation of the matrix engine (R266): what a 64-bit micro-word says. -/
inductive MicroOp where
  | halt
  | tld (t : BitVec 4) (pa ps pq : BitVec 3) (cm : BitVec 2)
  | tst (t : BitVec 4) (pa ps pq : BitVec 3)
  | tzero (mask : BitVec 4)
  | mma (ta tb : BitVec 4) (ac : BitVec 2) (k0 kn : BitVec 12)
  | retire (ac : BitVec 2) (pa ps pq : BitVec 3) (fmt : BitVec 7) (bsz : BitVec 2) (bs z : Bool) (mr mc : BitVec 6)
  | scale (ac : BitVec 2) (p : BitVec 3)
  | loop (c : BitVec 2) (target : BitVec 10) (n : BitVec 16)
  | padd (p : BitVec 3) (src : BitVec 2) (q : BitVec 3) (imm : BitVec 32)
  | signal (p : BitVec 3) (scope : BitVec 3)
  | teamsync (id : BitVec 8)
deriving DecidableEq, Repr

end Sys2Proof
end

