-- ==== Sys2Proof/WellFormed.lean ====
section
/-!
DEFINITION. Which terms of Instr are instructions of the machine: a move has no never guard (R32), a plain move's source is
neither a pop nor a long immediate (those are rows of their own). A step of another agent has no operand of its own.
-/

namespace Sys2Proof

/-- A guard of a move: any but never (R32). -/
def guardOk (g : Guard) : Bool := g != 0b10000#5

/-- A source that pops nothing and claims no data slot. -/
def Src.isPlain : Src → Bool
  | .ldq | .vldq | .frecv | .qp _ | .qv _ | .limm24 _ | .limm48 _ => false
  | _ => true

/-- A well-formed instruction. -/
def Instr.wf : Instr → Bool
  | .move g s _ => guardOk g && s.isPlain
  | .neverMove _ _ => true
  | .limm24 g _ _ => guardOk g
  | .limm48 g _ _ => guardOk g
  | .sd g _ => guardOk g
  | .vsd g _ => guardOk g
  | .fsend g _ => guardOk g
  | .fsendh g _ => guardOk g
  | .ldq g _ => guardOk g
  | .vldq g _ => guardOk g
  | .frecv g _ => guardOk g
  | .qp g _ _ => guardOk g
  | .qv g _ _ => guardOk g
  | .add g _ _ => guardOk g
  | .sub g _ _ => guardOk g
  | .add32 g _ _ => guardOk g
  | .sub32 g _ _ => guardOk g
  | .and g _ _ => guardOk g
  | .or g _ _ => guardOk g
  | .xor g _ _ => guardOk g
  | .andn g _ _ => guardOk g
  | .shl g _ _ => guardOk g
  | .shr g _ _ => guardOk g
  | .sar g _ _ => guardOk g
  | .rol g _ _ => guardOk g
  | .min g _ _ => guardOk g
  | .max g _ _ => guardOk g
  | .minu g _ _ => guardOk g
  | .maxu g _ _ => guardOk g
  | .seq g _ _ => guardOk g
  | .sne g _ _ => guardOk g
  | .slt g _ _ => guardOk g
  | .sltu g _ _ => guardOk g
  | .sle g _ _ => guardOk g
  | .sleu g _ _ => guardOk g
  | .sext8 g _ _ => guardOk g
  | .sext16 g _ _ => guardOk g
  | .sext32 g _ _ => guardOk g
  | .zext32 g _ _ => guardOk g
  | .clz g _ _ => guardOk g
  | .ctz g _ _ => guardOk g
  | .popc g _ _ => guardOk g
  | .sh1add g _ _ => guardOk g
  | .sh2add g _ _ => guardOk g
  | .sh3add g _ _ => guardOk g
  | .pass g _ _ => guardOk g
  | .bext g _ _ => guardOk g
  | .mul g _ => guardOk g
  | .mulh g _ => guardOk g
  | .mulhu g _ => guardOk g
  | .mul32 g _ => guardOk g
  | .div g _ => guardOk g
  | .divu g _ => guardOk g
  | .rem g _ => guardOk g
  | .remu g _ => guardOk g
  | .fadd g _ => guardOk g
  | .fsub g _ => guardOk g
  | .fmul g _ => guardOk g
  | .ffma g _ => guardOk g
  | .fmin g _ => guardOk g
  | .fmax g _ => guardOk g
  | .feq g _ => guardOk g
  | .flt g _ => guardOk g
  | .fle g _ => guardOk g
  | .fun g _ => guardOk g
  | .fsqrt g _ => guardOk g
  | .frcp g _ => guardOk g
  | .fcvti g _ => guardOk g
  | .icvtf g _ => guardOk g
  | .dadd g _ => guardOk g
  | .dsub g _ => guardOk g
  | .dmul g _ => guardOk g
  | .dfma g _ => guardOk g
  | .fcvtd g _ => guardOk g
  | .dcvtf g _ => guardOk g
  | .br g _ => guardOk g
  | .brr g _ => guardOk g
  | .call g _ => guardOk g
  | .callr g _ => guardOk g
  | .ret g _ => guardOk g
  | .loop g _ => guardOk g
  | .lbrk g _ => guardOk g
  | .vu0Vadd g _ => guardOk g
  | .vu1Vadd g _ => guardOk g
  | .vu0Vsub g _ => guardOk g
  | .vu1Vsub g _ => guardOk g
  | .vu0Vmul g _ => guardOk g
  | .vu1Vmul g _ => guardOk g
  | .vu0Vfma g _ => guardOk g
  | .vu1Vfma g _ => guardOk g
  | .vu0Vmin g _ => guardOk g
  | .vu1Vmin g _ => guardOk g
  | .vu0Vmax g _ => guardOk g
  | .vu1Vmax g _ => guardOk g
  | .vu0Vabs g _ => guardOk g
  | .vu1Vabs g _ => guardOk g
  | .vu0Vneg g _ => guardOk g
  | .vu1Vneg g _ => guardOk g
  | .vu0Vceq g _ => guardOk g
  | .vu1Vceq g _ => guardOk g
  | .vu0Vclt g _ => guardOk g
  | .vu1Vclt g _ => guardOk g
  | .vu0Vcle g _ => guardOk g
  | .vu1Vcle g _ => guardOk g
  | .vu0Vcun g _ => guardOk g
  | .vu1Vcun g _ => guardOk g
  | .vu0Vsel g _ => guardOk g
  | .vu1Vsel g _ => guardOk g
  | .vu0Vand g _ => guardOk g
  | .vu1Vand g _ => guardOk g
  | .vu0Vor g _ => guardOk g
  | .vu1Vor g _ => guardOk g
  | .vu0Vxor g _ => guardOk g
  | .vu1Vxor g _ => guardOk g
  | .vu0Vshl g _ => guardOk g
  | .vu1Vshl g _ => guardOk g
  | .vu0Vshr g _ => guardOk g
  | .vu1Vshr g _ => guardOk g
  | .vu0Vsar g _ => guardOk g
  | .vu1Vsar g _ => guardOk g
  | .vu0Vcvt g _ => guardOk g
  | .vu1Vcvt g _ => guardOk g
  | .vu0Vbcast g _ => guardOk g
  | .vu1Vbcast g _ => guardOk g
  | .vu0Vextr g _ => guardOk g
  | .vu1Vextr g _ => guardOk g
  | .vu0Vperm g _ => guardOk g
  | .vu1Vperm g _ => guardOk g
  | .vu0Vredadd g _ => guardOk g
  | .vu1Vredadd g _ => guardOk g
  | .vu0Vredmax g _ => guardOk g
  | .vu1Vredmax g _ => guardOk g
  | .vu0Vredmin g _ => guardOk g
  | .vu1Vredmin g _ => guardOk g
  | .vu0Vexp2 g _ => guardOk g
  | .vu1Vexp2 g _ => guardOk g
  | .vu0Vlog2 g _ => guardOk g
  | .vu1Vlog2 g _ => guardOk g
  | .vu0Vrcp g _ => guardOk g
  | .vu1Vrcp g _ => guardOk g
  | .vu0Vrsqrt g _ => guardOk g
  | .vu1Vrsqrt g _ => guardOk g
  | .vu0Vtanh g _ => guardOk g
  | .vu1Vtanh g _ => guardOk g
  | .vu0Vquant g _ => guardOk g
  | .vu1Vquant g _ => guardOk g
  | .vu0Vdeq g _ => guardOk g
  | .vu1Vdeq g _ => guardOk g
  | .vu0Vnf g _ => guardOk g
  | .vu1Vnf g _ => guardOk g
  | .vu0Vscan g _ => guardOk g
  | .vu1Vscan g _ => guardOk g
  | .vu0Vtopk g _ => guardOk g
  | .vu1Vtopk g _ => guardOk g
  | .vu0Vidx g _ => guardOk g
  | .vu1Vidx g _ => guardOk g
  | .ld8 g _ => guardOk g
  | .ld16 g _ => guardOk g
  | .ld32 g _ => guardOk g
  | .ld64 g _ => guardOk g
  | .vld g _ => guardOk g
  | .vldm g _ => guardOk g
  | .vldg g _ => guardOk g
  | .st8 g _ => guardOk g
  | .st16 g _ => guardOk g
  | .st32 g _ => guardOk g
  | .st64 g _ => guardOk g
  | .vst g _ => guardOk g
  | .vstm g _ => guardOk g
  | .vsts g _ => guardOk g
  | .ldblk g _ => guardOk g
  | .ldh g _ => guardOk g
  | .amoadd g _ => guardOk g
  | .amomin g _ => guardOk g
  | .amomax g _ => guardOk g
  | .amoand g _ => guardOk g
  | .amoor g _ => guardOk g
  | .amoxor g _ => guardOk g
  | .amoswp g _ => guardOk g
  | .amocas g _ => guardOk g
  | .amofadd g _ => guardOk g
  | .qbind g _ => guardOk g
  | .qpush g _ => guardOk g
  | .qpushv g _ => guardOk g
  | .qtry g _ => guardOk g
  | .qclose g _ => guardOk g
  | .qfmt g _ => guardOk g
  | .qinfo g _ => guardOk g
  | .cpy g _ => guardOk g
  | .chan g _ => guardOk g
  | .cpyq g _ => guardOk g
  | .bini g _ => guardOk g
  | .bexp g _ => guardOk g
  | .barr g _ => guardOk g
  | .bwait g _ => guardOk g
  | .cabt g _ => guardOk g
  | .mcall g _ => guardOk g
  | .mgrant g _ => guardOk g
  | .mrel g _ => guardOk g
  | .mstat g _ => guardOk g
  | .mwr g _ => guardOk g
  | .mabt g _ => guardOk g
  | .wait g _ => guardOk g
  | .fence g _ => guardOk g
  | .acq g _ => guardOk g
  | .rel g _ => guardOk g
  | .ctlr g _ => guardOk g
  | .ctlw g _ => guardOk g
  | .trap g _ => guardOk g
  | .eret g _ => guardOk g
  | .yield g _ => guardOk g
  | .spawn g _ => guardOk g
  | .fso g _ => guardOk g
  | .fsc g _ => guardOk g
  | .fsw g _ => guardOk g
  | .tbar g _ => guardOk g
  | .park g _ => guardOk g
  | .gbind g _ => guardOk g
  | .gstep g _ => guardOk g
  | .gwait g _ => guardOk g
  | .gqry g _ => guardOk g
  | .xscore g _ => guardOk g
  | .xsettle g _ => guardOk g
  | .xemit g _ => guardOk g
  | .xpref g _ => guardOk g
  | .xqry g _ => guardOk g
  | .gvobs g _ => guardOk g
  | .gvget g _ => guardOk g
  | .gvepoch g _ => guardOk g
  | .gvpin g _ => guardOk g
  | .bundleIssue => true
  | .resultDelivery => true
  | .contextSwitch => true
  | .systemReturn => true
  | .debugResume => true
  | .wdog => true
  | .laqSend => true
  | .ldqEntryLand => true
  | .saqDrain => true
  | .storePerform => true
  | .homeAccessArrival => true
  | .writeThroughAck => true
  | .pagerFillStart => true
  | .claimComplete => true
  | .pageFillComplete => true
  | .acqAtHome => true
  | .relAtHome => true
  | .waiterRetry => true
  | .amoPerform => true
  | .dispatchRound => true
  | .workerStart => true
  | .launchComplete => true
  | .teamMessageArrival => true
  | .scopeRemoteRequest => true
  | .scopeDecrement => true
  | .stageEntryVisible => true
  | .stageSlotFreed => true
  | .balancerInterval => true
  | .energyChargeArrival => true
  | .watchdogPre => true
  | .watchdogKill => true
  | .watchdogFence => true
  | .preemptSave => true
  | .restore => true
  | .spillWrite => true
  | .tenantViolation => true
  | .viReset => true
  | .registerWrite => true
  | .launchPacket => true
  | .bodyRetry => true
  | .compassEntryWrite => true
  | .ladderWrite => true
  | .larderEntryWrite => true
  | .groupEntryWrite => true
  | .ueCommand => true
  | .ueInboundWrite => true
  | .thermalThrottle => true
  | .thermalShutdown => true
  | .coldReset => true
  | .laneFailure => true
  | .copyCommandStart => true
  | .copyPiece => true
  | .copyCompletion => true
  | .channelStep => true
  | .firmwarePath => true
  | .barrierUpdate => true
  | .bwaitReply => true
  | .matrixCallStart => true
  | .bankGrant => true
  | .halt => true
  | .tld => true
  | .tst => true
  | .tzero => true
  | .mma => true
  | .retire => true
  | .scale => true
  | .microLoop => true
  | .padd => true
  | .signal => true
  | .teamsync => true
  | .compassContribution => true
  | .compassEpoch => true
  | .compassObsAccept => true
  | .compassPinAccept => true
  | .slabSend => true
  | .localFill => true
  | .slabDelivery => true
  | .ldhCheck => true
  | .stalehaloTimeout => true
  | .proposalArrive => true
  | .expertFillStart => true
  | .expertFillComplete => true
  | .expertFillFail => true
  | .walkBatchStart => true
  | .blockDispatch => true
  | .waiterPoolRetry => true
  | .ringSlotAllocation => true
  | .flitArrival => true
  | .fabricMessageSend => true
  | .fabricAccessPerform => true
  | .fabricMessageDelivery => true
  | .fabricResponse => true
  | .multicastPacket => true
  | .reductionContribution => true
  | .reductionRetry => true
  | .coreReset => true
  | .nvmeFailure => true

/-- The instructions that a slot of a bundle encodes. -/
def Instr.isSlot : Instr → Bool
  | .move .. => true
  | .neverMove .. => true
  | .limm24 .. => true
  | .limm48 .. => true
  | .sd .. => true
  | .vsd .. => true
  | .fsend .. => true
  | .fsendh .. => true
  | .ldq .. => true
  | .vldq .. => true
  | .frecv .. => true
  | .qp .. => true
  | .qv .. => true
  | .add .. => true
  | .sub .. => true
  | .add32 .. => true
  | .sub32 .. => true
  | .and .. => true
  | .or .. => true
  | .xor .. => true
  | .andn .. => true
  | .shl .. => true
  | .shr .. => true
  | .sar .. => true
  | .rol .. => true
  | .min .. => true
  | .max .. => true
  | .minu .. => true
  | .maxu .. => true
  | .seq .. => true
  | .sne .. => true
  | .slt .. => true
  | .sltu .. => true
  | .sle .. => true
  | .sleu .. => true
  | .sext8 .. => true
  | .sext16 .. => true
  | .sext32 .. => true
  | .zext32 .. => true
  | .clz .. => true
  | .ctz .. => true
  | .popc .. => true
  | .sh1add .. => true
  | .sh2add .. => true
  | .sh3add .. => true
  | .pass .. => true
  | .bext .. => true
  | .mul .. => true
  | .mulh .. => true
  | .mulhu .. => true
  | .mul32 .. => true
  | .div .. => true
  | .divu .. => true
  | .rem .. => true
  | .remu .. => true
  | .fadd .. => true
  | .fsub .. => true
  | .fmul .. => true
  | .ffma .. => true
  | .fmin .. => true
  | .fmax .. => true
  | .feq .. => true
  | .flt .. => true
  | .fle .. => true
  | .fun .. => true
  | .fsqrt .. => true
  | .frcp .. => true
  | .fcvti .. => true
  | .icvtf .. => true
  | .dadd .. => true
  | .dsub .. => true
  | .dmul .. => true
  | .dfma .. => true
  | .fcvtd .. => true
  | .dcvtf .. => true
  | .br .. => true
  | .brr .. => true
  | .call .. => true
  | .callr .. => true
  | .ret .. => true
  | .loop .. => true
  | .lbrk .. => true
  | .vu0Vadd .. => true
  | .vu1Vadd .. => true
  | .vu0Vsub .. => true
  | .vu1Vsub .. => true
  | .vu0Vmul .. => true
  | .vu1Vmul .. => true
  | .vu0Vfma .. => true
  | .vu1Vfma .. => true
  | .vu0Vmin .. => true
  | .vu1Vmin .. => true
  | .vu0Vmax .. => true
  | .vu1Vmax .. => true
  | .vu0Vabs .. => true
  | .vu1Vabs .. => true
  | .vu0Vneg .. => true
  | .vu1Vneg .. => true
  | .vu0Vceq .. => true
  | .vu1Vceq .. => true
  | .vu0Vclt .. => true
  | .vu1Vclt .. => true
  | .vu0Vcle .. => true
  | .vu1Vcle .. => true
  | .vu0Vcun .. => true
  | .vu1Vcun .. => true
  | .vu0Vsel .. => true
  | .vu1Vsel .. => true
  | .vu0Vand .. => true
  | .vu1Vand .. => true
  | .vu0Vor .. => true
  | .vu1Vor .. => true
  | .vu0Vxor .. => true
  | .vu1Vxor .. => true
  | .vu0Vshl .. => true
  | .vu1Vshl .. => true
  | .vu0Vshr .. => true
  | .vu1Vshr .. => true
  | .vu0Vsar .. => true
  | .vu1Vsar .. => true
  | .vu0Vcvt .. => true
  | .vu1Vcvt .. => true
  | .vu0Vbcast .. => true
  | .vu1Vbcast .. => true
  | .vu0Vextr .. => true
  | .vu1Vextr .. => true
  | .vu0Vperm .. => true
  | .vu1Vperm .. => true
  | .vu0Vredadd .. => true
  | .vu1Vredadd .. => true
  | .vu0Vredmax .. => true
  | .vu1Vredmax .. => true
  | .vu0Vredmin .. => true
  | .vu1Vredmin .. => true
  | .vu0Vexp2 .. => true
  | .vu1Vexp2 .. => true
  | .vu0Vlog2 .. => true
  | .vu1Vlog2 .. => true
  | .vu0Vrcp .. => true
  | .vu1Vrcp .. => true
  | .vu0Vrsqrt .. => true
  | .vu1Vrsqrt .. => true
  | .vu0Vtanh .. => true
  | .vu1Vtanh .. => true
  | .vu0Vquant .. => true
  | .vu1Vquant .. => true
  | .vu0Vdeq .. => true
  | .vu1Vdeq .. => true
  | .vu0Vnf .. => true
  | .vu1Vnf .. => true
  | .vu0Vscan .. => true
  | .vu1Vscan .. => true
  | .vu0Vtopk .. => true
  | .vu1Vtopk .. => true
  | .vu0Vidx .. => true
  | .vu1Vidx .. => true
  | .ld8 .. => true
  | .ld16 .. => true
  | .ld32 .. => true
  | .ld64 .. => true
  | .vld .. => true
  | .vldm .. => true
  | .vldg .. => true
  | .st8 .. => true
  | .st16 .. => true
  | .st32 .. => true
  | .st64 .. => true
  | .vst .. => true
  | .vstm .. => true
  | .vsts .. => true
  | .ldblk .. => true
  | .ldh .. => true
  | .amoadd .. => true
  | .amomin .. => true
  | .amomax .. => true
  | .amoand .. => true
  | .amoor .. => true
  | .amoxor .. => true
  | .amoswp .. => true
  | .amocas .. => true
  | .amofadd .. => true
  | .qbind .. => true
  | .qpush .. => true
  | .qpushv .. => true
  | .qtry .. => true
  | .qclose .. => true
  | .qfmt .. => true
  | .qinfo .. => true
  | .cpy .. => true
  | .chan .. => true
  | .cpyq .. => true
  | .bini .. => true
  | .bexp .. => true
  | .barr .. => true
  | .bwait .. => true
  | .cabt .. => true
  | .mcall .. => true
  | .mgrant .. => true
  | .mrel .. => true
  | .mstat .. => true
  | .mwr .. => true
  | .mabt .. => true
  | .wait .. => true
  | .fence .. => true
  | .acq .. => true
  | .rel .. => true
  | .ctlr .. => true
  | .ctlw .. => true
  | .trap .. => true
  | .eret .. => true
  | .yield .. => true
  | .spawn .. => true
  | .fso .. => true
  | .fsc .. => true
  | .fsw .. => true
  | .tbar .. => true
  | .park .. => true
  | .gbind .. => true
  | .gstep .. => true
  | .gwait .. => true
  | .gqry .. => true
  | .xscore .. => true
  | .xsettle .. => true
  | .xemit .. => true
  | .xpref .. => true
  | .xqry .. => true
  | .gvobs .. => true
  | .gvget .. => true
  | .gvepoch .. => true
  | .gvpin .. => true
  | .bundleIssue => false
  | .resultDelivery => false
  | .contextSwitch => false
  | .systemReturn => false
  | .debugResume => false
  | .wdog => false
  | .laqSend => false
  | .ldqEntryLand => false
  | .saqDrain => false
  | .storePerform => false
  | .homeAccessArrival => false
  | .writeThroughAck => false
  | .pagerFillStart => false
  | .claimComplete => false
  | .pageFillComplete => false
  | .acqAtHome => false
  | .relAtHome => false
  | .waiterRetry => false
  | .amoPerform => false
  | .dispatchRound => false
  | .workerStart => false
  | .launchComplete => false
  | .teamMessageArrival => false
  | .scopeRemoteRequest => false
  | .scopeDecrement => false
  | .stageEntryVisible => false
  | .stageSlotFreed => false
  | .balancerInterval => false
  | .energyChargeArrival => false
  | .watchdogPre => false
  | .watchdogKill => false
  | .watchdogFence => false
  | .preemptSave => false
  | .restore => false
  | .spillWrite => false
  | .tenantViolation => false
  | .viReset => false
  | .registerWrite => false
  | .launchPacket => false
  | .bodyRetry => false
  | .compassEntryWrite => false
  | .ladderWrite => false
  | .larderEntryWrite => false
  | .groupEntryWrite => false
  | .ueCommand => false
  | .ueInboundWrite => false
  | .thermalThrottle => false
  | .thermalShutdown => false
  | .coldReset => false
  | .laneFailure => false
  | .copyCommandStart => false
  | .copyPiece => false
  | .copyCompletion => false
  | .channelStep => false
  | .firmwarePath => false
  | .barrierUpdate => false
  | .bwaitReply => false
  | .matrixCallStart => false
  | .bankGrant => false
  | .halt => false
  | .tld => false
  | .tst => false
  | .tzero => false
  | .mma => false
  | .retire => false
  | .scale => false
  | .microLoop => false
  | .padd => false
  | .signal => false
  | .teamsync => false
  | .compassContribution => false
  | .compassEpoch => false
  | .compassObsAccept => false
  | .compassPinAccept => false
  | .slabSend => false
  | .localFill => false
  | .slabDelivery => false
  | .ldhCheck => false
  | .stalehaloTimeout => false
  | .proposalArrive => false
  | .expertFillStart => false
  | .expertFillComplete => false
  | .expertFillFail => false
  | .walkBatchStart => false
  | .blockDispatch => false
  | .waiterPoolRetry => false
  | .ringSlotAllocation => false
  | .flitArrival => false
  | .fabricMessageSend => false
  | .fabricAccessPerform => false
  | .fabricMessageDelivery => false
  | .fabricResponse => false
  | .multicastPacket => false
  | .reductionContribution => false
  | .reductionRetry => false
  | .coreReset => false
  | .nvmeFailure => false

end Sys2Proof
end

