-- ==== Sys2Proof/Decode.lean ====
section
/-!
DEFINITION. Decoding of bundles (R30-R37, 02) and of micro-words (R266, 14), total on any bits, reserved codes rejected by
name; after it the encoder, written from the same tables of the spec.
-/

namespace Sys2Proof

/-- What a slot decodes to, or why it does not (R33). -/
inductive SlotRes where
  | ok (i : Instr)
  | illsrc
  | illdst
deriving DecidableEq, Repr

/-- The instruction of a slot that decodes. -/
def SlotRes.toOption : SlotRes → Option Instr
  | .ok i => some i
  | _ => none

/-- A slot that is a move or a never-move: its guard, its destination code, and what it decodes to (R31, R33). -/
structure Slot where
  guard : Guard
  dst : Nat
  res : SlotRes
deriving DecidableEq, Repr

/-- The guard field (R31). -/
def slotGuard (w : SlotWord) : Guard := w.extractLsb' 19 5

/-- The source code (R31). -/
def slotSrc (w : SlotWord) : Nat := (w.extractLsb' 10 9).toNat

/-- The destination code (R31). -/
def slotDst (w : SlotWord) : Nat := (w.extractLsb' 0 10).toNat

/-- The result ports in the order of their codes, from 0x080 (R34). -/
def portList : List ResPort :=
  [.ia 0, .ia 1, .im, .fa, .vuV 0, .vuS 0, .vuM 0, .vuV 1, .vuS 1, .vuM 1, .qu, .ce, .mx, .sy, .xu]

/-- The source of a code that claims no data slot (R34); none for a reserved code. -/
def srcOf (c : Nat) : Option Src :=
  if c < 0x040 then some (.g (BitVec.ofNat 6 c))
  else if c < 0x050 then some (.p (BitVec.ofNat 4 c))
  else if c < 0x070 then some (.v (BitVec.ofNat 5 (c - 0x050)))
  else if c < 0x078 then some (.k (BitVec.ofNat 3 c))
  else if c = 0x078 then some .pk
  else if c = 0x079 then some .lr
  else if c = 0x07A then some .ldq
  else if c = 0x07B then some .vldq
  else if c = 0x07C then some .frecv
  else if c < 0x080 then none
  else if c < 0x08F then (portList[c - 0x080]?).map .port
  else if c < 0x0A0 then none
  else if c < 0x0A4 then some (.qp (BitVec.ofNat 2 c))
  else if c < 0x0A8 then some (.qv (BitVec.ofNat 2 c))
  else if c < 0x100 then none
  else if c < 0x180 then some (.short (BitVec.ofNat 7 c))
  else none

/-- The operand latches and parameter ports by code (R37), but for mp and tc. -/
def latchCodes : List (Nat × Latch) :=
  [(0x080, .iaO 0), (0x0C0, .iaO 1), (0x100, .imO), (0x140, .faO), (0x141, .faP), (0x180, .cuO),
   (0x1C0, .vuO 0), (0x1C1, .vuP 0), (0x1C2, .vuK 0), (0x200, .vuO 1), (0x201, .vuP 1), (0x202, .vuK 1),
   (0x240, .auO), (0x241, .auX), (0x280, .quO), (0x2C0, .ceO), (0x340, .syO), (0x380, .xuO)]

/-- The register or latch of a destination code (R36, R37); none for every other code. -/
def dstOf (c : Nat) : Option Dst :=
  if c < 0x040 then some (.g (BitVec.ofNat 6 c))
  else if c < 0x050 then some (.p (BitVec.ofNat 4 c))
  else if c < 0x070 then some (.v (BitVec.ofNat 5 (c - 0x050)))
  else if c < 0x078 then some (.k (BitVec.ofNat 3 c))
  else if c = 0x078 then some .pk
  else if c = 0x079 then some .lr
  else if 0x300 ≤ c ∧ c < 0x308 then some (.latch (.mp (BitVec.ofNat 3 c)))
  else if 0x308 ≤ c ∧ c < 0x318 then some (.latch (.tc (BitVec.ofNat 4 (c - 0x308))))
  else (latchCodes.lookup c).map .latch

/-- The destinations that push a queue (R36). -/
def pushCodes (g : Guard) (s : Src) : List (Nat × Instr) :=
  [(0x07A, .sd g s), (0x07B, .vsd g s), (0x07C, .fsend g s),
   (0x07D, .fsendh g s)]

/-- Destination codes of the ia0 block that push or trigger (R36, R37). -/
def ia0Codes (g : Guard) (s : Src) : List (Nat × Instr) :=
  [(0x081, .add g s 0#1), (0x082, .sub g s 0#1), (0x083, .add32 g s 0#1),
   (0x084, .sub32 g s 0#1), (0x085, .and g s 0#1), (0x086, .or g s 0#1),
   (0x087, .xor g s 0#1), (0x088, .andn g s 0#1), (0x089, .shl g s 0#1),
   (0x08A, .shr g s 0#1), (0x08B, .sar g s 0#1), (0x08C, .rol g s 0#1),
   (0x08D, .min g s 0#1), (0x08E, .max g s 0#1), (0x08F, .minu g s 0#1),
   (0x090, .maxu g s 0#1), (0x091, .seq g s 0#1), (0x092, .sne g s 0#1),
   (0x093, .slt g s 0#1), (0x094, .sltu g s 0#1), (0x095, .sle g s 0#1),
   (0x096, .sleu g s 0#1), (0x097, .sext8 g s 0#1), (0x098, .sext16 g s 0#1),
   (0x099, .sext32 g s 0#1), (0x09A, .zext32 g s 0#1), (0x09B, .clz g s 0#1),
   (0x09C, .ctz g s 0#1), (0x09D, .popc g s 0#1), (0x09E, .sh1add g s 0#1),
   (0x09F, .sh2add g s 0#1), (0x0A0, .sh3add g s 0#1), (0x0A1, .pass g s 0#1),
   (0x0A2, .bext g s 0#1)]

/-- Destination codes of the ia1 block that push or trigger (R36, R37). -/
def ia1Codes (g : Guard) (s : Src) : List (Nat × Instr) :=
  [(0x0C1, .add g s 1#1), (0x0C2, .sub g s 1#1), (0x0C3, .add32 g s 1#1),
   (0x0C4, .sub32 g s 1#1), (0x0C5, .and g s 1#1), (0x0C6, .or g s 1#1),
   (0x0C7, .xor g s 1#1), (0x0C8, .andn g s 1#1), (0x0C9, .shl g s 1#1),
   (0x0CA, .shr g s 1#1), (0x0CB, .sar g s 1#1), (0x0CC, .rol g s 1#1),
   (0x0CD, .min g s 1#1), (0x0CE, .max g s 1#1), (0x0CF, .minu g s 1#1),
   (0x0D0, .maxu g s 1#1), (0x0D1, .seq g s 1#1), (0x0D2, .sne g s 1#1),
   (0x0D3, .slt g s 1#1), (0x0D4, .sltu g s 1#1), (0x0D5, .sle g s 1#1),
   (0x0D6, .sleu g s 1#1), (0x0D7, .sext8 g s 1#1), (0x0D8, .sext16 g s 1#1),
   (0x0D9, .sext32 g s 1#1), (0x0DA, .zext32 g s 1#1), (0x0DB, .clz g s 1#1),
   (0x0DC, .ctz g s 1#1), (0x0DD, .popc g s 1#1), (0x0DE, .sh1add g s 1#1),
   (0x0DF, .sh2add g s 1#1), (0x0E0, .sh3add g s 1#1), (0x0E1, .pass g s 1#1),
   (0x0E2, .bext g s 1#1)]

/-- Destination codes of the im block that push or trigger (R36, R37). -/
def imCodes (g : Guard) (s : Src) : List (Nat × Instr) :=
  [(0x101, .mul g s), (0x102, .mulh g s), (0x103, .mulhu g s),
   (0x104, .mul32 g s), (0x105, .div g s), (0x106, .divu g s),
   (0x107, .rem g s), (0x108, .remu g s)]

/-- Destination codes of the fa block that push or trigger (R36, R37). -/
def faCodes (g : Guard) (s : Src) : List (Nat × Instr) :=
  [(0x142, .fadd g s), (0x143, .fsub g s), (0x144, .fmul g s),
   (0x145, .ffma g s), (0x146, .fmin g s), (0x147, .fmax g s),
   (0x148, .feq g s), (0x149, .flt g s), (0x14A, .fle g s),
   (0x14B, .fun g s), (0x14C, .fsqrt g s), (0x14D, .frcp g s),
   (0x14E, .fcvti g s), (0x14F, .icvtf g s), (0x150, .dadd g s),
   (0x151, .dsub g s), (0x152, .dmul g s), (0x153, .dfma g s),
   (0x154, .fcvtd g s), (0x155, .dcvtf g s)]

/-- Destination codes of the cu block that push or trigger (R36, R37). -/
def cuCodes (g : Guard) (s : Src) : List (Nat × Instr) :=
  [(0x181, .br g s), (0x182, .brr g s), (0x183, .call g s),
   (0x184, .callr g s), (0x185, .ret g s), (0x186, .loop g s),
   (0x187, .lbrk g s)]

/-- Destination codes of the vu0 block that push or trigger (R36, R37). -/
def vu0Codes (g : Guard) (s : Src) : List (Nat × Instr) :=
  [(0x1C3, .vu0Vadd g s), (0x1C4, .vu0Vsub g s), (0x1C5, .vu0Vmul g s),
   (0x1C6, .vu0Vfma g s), (0x1C7, .vu0Vmin g s), (0x1C8, .vu0Vmax g s),
   (0x1C9, .vu0Vabs g s), (0x1CA, .vu0Vneg g s), (0x1CB, .vu0Vceq g s),
   (0x1CC, .vu0Vclt g s), (0x1CD, .vu0Vcle g s), (0x1CE, .vu0Vcun g s),
   (0x1CF, .vu0Vsel g s), (0x1D0, .vu0Vand g s), (0x1D1, .vu0Vor g s),
   (0x1D2, .vu0Vxor g s), (0x1D3, .vu0Vshl g s), (0x1D4, .vu0Vshr g s),
   (0x1D5, .vu0Vsar g s), (0x1D6, .vu0Vcvt g s), (0x1D7, .vu0Vbcast g s),
   (0x1D8, .vu0Vextr g s), (0x1D9, .vu0Vperm g s), (0x1DA, .vu0Vredadd g s),
   (0x1DB, .vu0Vredmax g s), (0x1DC, .vu0Vredmin g s), (0x1DD, .vu0Vexp2 g s),
   (0x1DE, .vu0Vlog2 g s), (0x1DF, .vu0Vrcp g s), (0x1E0, .vu0Vrsqrt g s),
   (0x1E1, .vu0Vtanh g s), (0x1E2, .vu0Vquant g s), (0x1E3, .vu0Vdeq g s),
   (0x1E4, .vu0Vnf g s), (0x1E5, .vu0Vscan g s), (0x1E6, .vu0Vtopk g s),
   (0x1E7, .vu0Vidx g s)]

/-- Destination codes of the vu1 block that push or trigger (R36, R37). -/
def vu1Codes (g : Guard) (s : Src) : List (Nat × Instr) :=
  [(0x203, .vu1Vadd g s), (0x204, .vu1Vsub g s), (0x205, .vu1Vmul g s),
   (0x206, .vu1Vfma g s), (0x207, .vu1Vmin g s), (0x208, .vu1Vmax g s),
   (0x209, .vu1Vabs g s), (0x20A, .vu1Vneg g s), (0x20B, .vu1Vceq g s),
   (0x20C, .vu1Vclt g s), (0x20D, .vu1Vcle g s), (0x20E, .vu1Vcun g s),
   (0x20F, .vu1Vsel g s), (0x210, .vu1Vand g s), (0x211, .vu1Vor g s),
   (0x212, .vu1Vxor g s), (0x213, .vu1Vshl g s), (0x214, .vu1Vshr g s),
   (0x215, .vu1Vsar g s), (0x216, .vu1Vcvt g s), (0x217, .vu1Vbcast g s),
   (0x218, .vu1Vextr g s), (0x219, .vu1Vperm g s), (0x21A, .vu1Vredadd g s),
   (0x21B, .vu1Vredmax g s), (0x21C, .vu1Vredmin g s), (0x21D, .vu1Vexp2 g s),
   (0x21E, .vu1Vlog2 g s), (0x21F, .vu1Vrcp g s), (0x220, .vu1Vrsqrt g s),
   (0x221, .vu1Vtanh g s), (0x222, .vu1Vquant g s), (0x223, .vu1Vdeq g s),
   (0x224, .vu1Vnf g s), (0x225, .vu1Vscan g s), (0x226, .vu1Vtopk g s),
   (0x227, .vu1Vidx g s)]

/-- Destination codes of the au block that push or trigger (R36, R37). -/
def auCodes (g : Guard) (s : Src) : List (Nat × Instr) :=
  [(0x242, .ld8 g s), (0x243, .ld16 g s), (0x244, .ld32 g s),
   (0x245, .ld64 g s), (0x246, .vld g s), (0x247, .vldm g s),
   (0x248, .vldg g s), (0x249, .st8 g s), (0x24A, .st16 g s),
   (0x24B, .st32 g s), (0x24C, .st64 g s), (0x24D, .vst g s),
   (0x24E, .vstm g s), (0x24F, .vsts g s), (0x250, .ldblk g s),
   (0x251, .ldh g s), (0x252, .amoadd g s), (0x253, .amomin g s),
   (0x254, .amomax g s), (0x255, .amoand g s), (0x256, .amoor g s),
   (0x257, .amoxor g s), (0x258, .amoswp g s), (0x259, .amocas g s),
   (0x25A, .amofadd g s)]

/-- Destination codes of the qu block that push or trigger (R36, R37). -/
def quCodes (g : Guard) (s : Src) : List (Nat × Instr) :=
  [(0x281, .qbind g s), (0x282, .qpush g s), (0x283, .qpushv g s),
   (0x284, .qtry g s), (0x285, .qclose g s), (0x286, .qfmt g s),
   (0x287, .qinfo g s)]

/-- Destination codes of the ce block that push or trigger (R36, R37). -/
def ceCodes (g : Guard) (s : Src) : List (Nat × Instr) :=
  [(0x2C1, .cpy g s), (0x2C2, .chan g s), (0x2C3, .cpyq g s),
   (0x2C4, .bini g s), (0x2C5, .bexp g s), (0x2C6, .barr g s),
   (0x2C7, .bwait g s), (0x2C8, .cabt g s)]

/-- Destination codes of the mx block that push or trigger (R36, R37). -/
def mxCodes (g : Guard) (s : Src) : List (Nat × Instr) :=
  [(0x318, .mcall g s), (0x319, .mgrant g s), (0x31A, .mrel g s),
   (0x31B, .mstat g s), (0x31C, .mwr g s), (0x31D, .mabt g s)]

/-- Destination codes of the sy block that push or trigger (R36, R37). -/
def syCodes (g : Guard) (s : Src) : List (Nat × Instr) :=
  [(0x341, .wait g s), (0x342, .fence g s), (0x343, .acq g s),
   (0x344, .rel g s), (0x345, .ctlr g s), (0x346, .ctlw g s),
   (0x347, .trap g s), (0x348, .eret g s), (0x349, .yield g s),
   (0x34A, .spawn g s), (0x34B, .fso g s), (0x34C, .fsc g s),
   (0x34D, .fsw g s), (0x34E, .tbar g s), (0x34F, .park g s)]

/-- Destination codes of the xu block that push or trigger (R36, R37). -/
def xuCodes (g : Guard) (s : Src) : List (Nat × Instr) :=
  [(0x381, .gbind g s), (0x382, .gstep g s), (0x383, .gwait g s),
   (0x384, .gqry g s), (0x385, .xscore g s), (0x386, .xsettle g s),
   (0x387, .xemit g s), (0x388, .xpref g s), (0x389, .xqry g s),
   (0x38A, .gvobs g s), (0x38B, .gvget g s), (0x38C, .gvepoch g s),
   (0x38D, .gvpin g s)]

/-- Every destination code that pushes or triggers, with the instruction it makes of a guard and a source (R36, R37). -/
def actCodes (g : Guard) (s : Src) : List (Nat × Instr) :=
  pushCodes g s ++ ia0Codes g s ++ ia1Codes g s ++ imCodes g s ++ faCodes g s ++ cuCodes g s ++ vu0Codes g s ++ vu1Codes g s ++ auCodes g s ++ quCodes g s ++ ceCodes g s ++ mxCodes g s ++ syCodes g s ++ xuCodes g s

/-- A move to a register or a latch: pops and long immediates are rows of their own. -/
def plainMove (g : Guard) (s : Src) (d : Dst) : Instr :=
  match s with
  | .ldq => .ldq g d
  | .vldq => .vldq g d
  | .frecv => .frecv g d
  | .qp h => .qp g h d
  | .qv h => .qv g h d
  | .limm24 x => .limm24 g x d
  | .limm48 x => .limm48 g x d
  | s => .move g s d

/-- The instruction of a guard, a source and a destination code; none for a reserved destination (R36). -/
def instrAt (g : Guard) (s : Src) (d : Nat) : Option Instr :=
  match (actCodes g s).lookup d with
  | some i => some i
  | none => (dstOf d).map (plainMove g s)

/-- A slot with its source decoded: the source is checked before the destination (R33). -/
def slotWith (w : SlotWord) (s : Option Src) : Slot :=
  { guard := slotGuard w, dst := slotDst w
    res := match s with
      | none => .illsrc
      | some s =>
        match instrAt (slotGuard w) s (slotDst w) with
        | some i => .ok i
        | none => .illdst }

/-- The slots of a bundle from a list of words (R33): never-moves are not decoded, a long immediate claims the words that
follow, and a claim past the last word is ILLSRC and takes what remains. -/
def decodeSlots : List SlotWord → List Slot
  | [] => []
  | w :: ws =>
    if slotGuard w = 0b10000#5 then
      { guard := 0b10000#5, dst := slotDst w, res := .ok (.neverMove (w.extractLsb' 10 9) (w.extractLsb' 0 10)) }
        :: decodeSlots ws
    else if slotSrc w = 0x1FE then
      match ws with
      | d :: ws' => slotWith w (some (.limm24 d)) :: decodeSlots ws'
      | [] => [slotWith w none]
    else if slotSrc w = 0x1FF then
      match ws with
      | d :: e :: ws' => slotWith w (some (.limm48 (e ++ d))) :: decodeSlots ws'
      | _ => [slotWith w none]
    else slotWith w (srcOf (slotSrc w)) :: decodeSlots ws

/-- The eight slots of a bundle given as its 192 bits (R30). -/
def bundleWords (b : BitVec 192) : List SlotWord :=
  (List.range 8).map fun i => b.extractLsb' (24 * i) 24

/-- A bundle decoded (R33). -/
def decodeBundle (b : BitVec 192) : List Slot := decodeSlots (bundleWords b)

/-- The instruction of slot 0 of the bundle whose bits are w. -/
def decodeTableWord (nbits w : Nat) : Option Instr :=
  match decodeBundle (BitVec.ofNat 192 (w % 2 ^ nbits)) with
  | s :: _ => s.res.toOption
  | [] => none

/-- A micro-word decoded (R266); none for opcodes 11 to 15. -/
def decodeMicro (w : Word) : Option MicroOp :=
  match (w.extractLsb' 60 4).toNat with
  | 0 => some .halt
  | 1 => some (.tld (w.extractLsb' 56 4) (w.extractLsb' 53 3) (w.extractLsb' 50 3) (w.extractLsb' 47 3)
      (w.extractLsb' 45 2))
  | 2 => some (.tst (w.extractLsb' 56 4) (w.extractLsb' 53 3) (w.extractLsb' 50 3) (w.extractLsb' 47 3))
  | 3 => some (.tzero (w.extractLsb' 56 4))
  | 4 => some (.mma (w.extractLsb' 56 4) (w.extractLsb' 52 4) (w.extractLsb' 50 2) (w.extractLsb' 38 12)
      (w.extractLsb' 26 12))
  | 5 => some (.retire (w.extractLsb' 58 2) (w.extractLsb' 55 3) (w.extractLsb' 52 3) (w.extractLsb' 49 3)
      (w.extractLsb' 42 7) (w.extractLsb' 40 2) (w.getLsbD 39) (w.getLsbD 38) (w.extractLsb' 32 6) (w.extractLsb' 26 6))
  | 6 => some (.scale (w.extractLsb' 58 2) (w.extractLsb' 55 3))
  | 7 => some (.loop (w.extractLsb' 58 2) (w.extractLsb' 48 10) (w.extractLsb' 32 16))
  | 8 => some (.padd (w.extractLsb' 57 3) (w.extractLsb' 55 2) (w.extractLsb' 52 3) (w.extractLsb' 0 32))
  | 9 => some (.signal (w.extractLsb' 57 3) (w.extractLsb' 54 3))
  | 10 => some (.teamsync (w.extractLsb' 52 8))
  | _ => none

/-- The code of a result port (R34). -/
def ResPort.code : ResPort → Nat
  | .ia u => 0x080 + u.toNat
  | .im => 0x082
  | .fa => 0x083
  | .vuV u => 0x084 + 3 * u.toNat
  | .vuS u => 0x085 + 3 * u.toNat
  | .vuM u => 0x086 + 3 * u.toNat
  | .qu => 0x08A
  | .ce => 0x08B
  | .mx => 0x08C
  | .sy => 0x08D
  | .xu => 0x08E

/-- The code of a source (R34). -/
def Src.code : Src → Nat
  | .g i => i.toNat
  | .p i => 0x040 + i.toNat
  | .v i => 0x050 + i.toNat
  | .k i => 0x070 + i.toNat
  | .pk => 0x078
  | .lr => 0x079
  | .ldq => 0x07A
  | .vldq => 0x07B
  | .frecv => 0x07C
  | .port r => r.code
  | .qp h => 0x0A0 + h.toNat
  | .qv h => 0x0A4 + h.toNat
  | .short c => 0x100 + c.toNat
  | .limm24 _ => 0x1FE
  | .limm48 _ => 0x1FF

/-- The data slots a source claims (R33, R35). -/
def Src.data : Src → List SlotWord
  | .limm24 x => [x]
  | .limm48 x => [x.extractLsb' 0 24, x.extractLsb' 24 24]
  | _ => []

/-- The code of an operand latch or a parameter port (R36, R37). -/
def Latch.code : Latch → Nat
  | .iaO u => 0x080 + 0x40 * u.toNat
  | .imO => 0x100
  | .faO => 0x140
  | .faP => 0x141
  | .cuO => 0x180
  | .vuO u => 0x1C0 + 0x40 * u.toNat
  | .vuP u => 0x1C1 + 0x40 * u.toNat
  | .vuK u => 0x1C2 + 0x40 * u.toNat
  | .auO => 0x240
  | .auX => 0x241
  | .quO => 0x280
  | .ceO => 0x2C0
  | .syO => 0x340
  | .xuO => 0x380
  | .mp i => 0x300 + i.toNat
  | .tc i => 0x308 + i.toNat

/-- The code of a register or latch destination (R36). -/
def Dst.code : Dst → Nat
  | .g i => i.toNat
  | .p i => 0x040 + i.toNat
  | .v i => 0x050 + i.toNat
  | .k i => 0x070 + i.toNat
  | .pk => 0x078
  | .lr => 0x079
  | .latch l => l.code

/-- The slots of a move: its own word, then its data slots (R31, R33). -/
def slotOf (g : Guard) (s : Src) (d : Nat) : List SlotWord :=
  BitVec.ofNat 24 (g.toNat * 2 ^ 19 + s.code * 2 ^ 10 + d) :: s.data

/-- The slots of an instruction (R31-R37); none for a step of another agent, which no slot encodes. -/
def encode : Instr → List SlotWord
  | .sd g s => slotOf g s 0x07A
  | .vsd g s => slotOf g s 0x07B
  | .fsend g s => slotOf g s 0x07C
  | .fsendh g s => slotOf g s 0x07D
  | .add g s u => slotOf g s (0x081 + 0x40 * u.toNat)
  | .sub g s u => slotOf g s (0x082 + 0x40 * u.toNat)
  | .add32 g s u => slotOf g s (0x083 + 0x40 * u.toNat)
  | .sub32 g s u => slotOf g s (0x084 + 0x40 * u.toNat)
  | .and g s u => slotOf g s (0x085 + 0x40 * u.toNat)
  | .or g s u => slotOf g s (0x086 + 0x40 * u.toNat)
  | .xor g s u => slotOf g s (0x087 + 0x40 * u.toNat)
  | .andn g s u => slotOf g s (0x088 + 0x40 * u.toNat)
  | .shl g s u => slotOf g s (0x089 + 0x40 * u.toNat)
  | .shr g s u => slotOf g s (0x08A + 0x40 * u.toNat)
  | .sar g s u => slotOf g s (0x08B + 0x40 * u.toNat)
  | .rol g s u => slotOf g s (0x08C + 0x40 * u.toNat)
  | .min g s u => slotOf g s (0x08D + 0x40 * u.toNat)
  | .max g s u => slotOf g s (0x08E + 0x40 * u.toNat)
  | .minu g s u => slotOf g s (0x08F + 0x40 * u.toNat)
  | .maxu g s u => slotOf g s (0x090 + 0x40 * u.toNat)
  | .seq g s u => slotOf g s (0x091 + 0x40 * u.toNat)
  | .sne g s u => slotOf g s (0x092 + 0x40 * u.toNat)
  | .slt g s u => slotOf g s (0x093 + 0x40 * u.toNat)
  | .sltu g s u => slotOf g s (0x094 + 0x40 * u.toNat)
  | .sle g s u => slotOf g s (0x095 + 0x40 * u.toNat)
  | .sleu g s u => slotOf g s (0x096 + 0x40 * u.toNat)
  | .sext8 g s u => slotOf g s (0x097 + 0x40 * u.toNat)
  | .sext16 g s u => slotOf g s (0x098 + 0x40 * u.toNat)
  | .sext32 g s u => slotOf g s (0x099 + 0x40 * u.toNat)
  | .zext32 g s u => slotOf g s (0x09A + 0x40 * u.toNat)
  | .clz g s u => slotOf g s (0x09B + 0x40 * u.toNat)
  | .ctz g s u => slotOf g s (0x09C + 0x40 * u.toNat)
  | .popc g s u => slotOf g s (0x09D + 0x40 * u.toNat)
  | .sh1add g s u => slotOf g s (0x09E + 0x40 * u.toNat)
  | .sh2add g s u => slotOf g s (0x09F + 0x40 * u.toNat)
  | .sh3add g s u => slotOf g s (0x0A0 + 0x40 * u.toNat)
  | .pass g s u => slotOf g s (0x0A1 + 0x40 * u.toNat)
  | .bext g s u => slotOf g s (0x0A2 + 0x40 * u.toNat)
  | .mul g s => slotOf g s 0x101
  | .mulh g s => slotOf g s 0x102
  | .mulhu g s => slotOf g s 0x103
  | .mul32 g s => slotOf g s 0x104
  | .div g s => slotOf g s 0x105
  | .divu g s => slotOf g s 0x106
  | .rem g s => slotOf g s 0x107
  | .remu g s => slotOf g s 0x108
  | .fadd g s => slotOf g s 0x142
  | .fsub g s => slotOf g s 0x143
  | .fmul g s => slotOf g s 0x144
  | .ffma g s => slotOf g s 0x145
  | .fmin g s => slotOf g s 0x146
  | .fmax g s => slotOf g s 0x147
  | .feq g s => slotOf g s 0x148
  | .flt g s => slotOf g s 0x149
  | .fle g s => slotOf g s 0x14A
  | .fun g s => slotOf g s 0x14B
  | .fsqrt g s => slotOf g s 0x14C
  | .frcp g s => slotOf g s 0x14D
  | .fcvti g s => slotOf g s 0x14E
  | .icvtf g s => slotOf g s 0x14F
  | .dadd g s => slotOf g s 0x150
  | .dsub g s => slotOf g s 0x151
  | .dmul g s => slotOf g s 0x152
  | .dfma g s => slotOf g s 0x153
  | .fcvtd g s => slotOf g s 0x154
  | .dcvtf g s => slotOf g s 0x155
  | .br g s => slotOf g s 0x181
  | .brr g s => slotOf g s 0x182
  | .call g s => slotOf g s 0x183
  | .callr g s => slotOf g s 0x184
  | .ret g s => slotOf g s 0x185
  | .loop g s => slotOf g s 0x186
  | .lbrk g s => slotOf g s 0x187
  | .vu0Vadd g s => slotOf g s 0x1C3
  | .vu0Vsub g s => slotOf g s 0x1C4
  | .vu0Vmul g s => slotOf g s 0x1C5
  | .vu0Vfma g s => slotOf g s 0x1C6
  | .vu0Vmin g s => slotOf g s 0x1C7
  | .vu0Vmax g s => slotOf g s 0x1C8
  | .vu0Vabs g s => slotOf g s 0x1C9
  | .vu0Vneg g s => slotOf g s 0x1CA
  | .vu0Vceq g s => slotOf g s 0x1CB
  | .vu0Vclt g s => slotOf g s 0x1CC
  | .vu0Vcle g s => slotOf g s 0x1CD
  | .vu0Vcun g s => slotOf g s 0x1CE
  | .vu0Vsel g s => slotOf g s 0x1CF
  | .vu0Vand g s => slotOf g s 0x1D0
  | .vu0Vor g s => slotOf g s 0x1D1
  | .vu0Vxor g s => slotOf g s 0x1D2
  | .vu0Vshl g s => slotOf g s 0x1D3
  | .vu0Vshr g s => slotOf g s 0x1D4
  | .vu0Vsar g s => slotOf g s 0x1D5
  | .vu0Vcvt g s => slotOf g s 0x1D6
  | .vu0Vbcast g s => slotOf g s 0x1D7
  | .vu0Vextr g s => slotOf g s 0x1D8
  | .vu0Vperm g s => slotOf g s 0x1D9
  | .vu0Vredadd g s => slotOf g s 0x1DA
  | .vu0Vredmax g s => slotOf g s 0x1DB
  | .vu0Vredmin g s => slotOf g s 0x1DC
  | .vu0Vexp2 g s => slotOf g s 0x1DD
  | .vu0Vlog2 g s => slotOf g s 0x1DE
  | .vu0Vrcp g s => slotOf g s 0x1DF
  | .vu0Vrsqrt g s => slotOf g s 0x1E0
  | .vu0Vtanh g s => slotOf g s 0x1E1
  | .vu0Vquant g s => slotOf g s 0x1E2
  | .vu0Vdeq g s => slotOf g s 0x1E3
  | .vu0Vnf g s => slotOf g s 0x1E4
  | .vu0Vscan g s => slotOf g s 0x1E5
  | .vu0Vtopk g s => slotOf g s 0x1E6
  | .vu0Vidx g s => slotOf g s 0x1E7
  | .vu1Vadd g s => slotOf g s 0x203
  | .vu1Vsub g s => slotOf g s 0x204
  | .vu1Vmul g s => slotOf g s 0x205
  | .vu1Vfma g s => slotOf g s 0x206
  | .vu1Vmin g s => slotOf g s 0x207
  | .vu1Vmax g s => slotOf g s 0x208
  | .vu1Vabs g s => slotOf g s 0x209
  | .vu1Vneg g s => slotOf g s 0x20A
  | .vu1Vceq g s => slotOf g s 0x20B
  | .vu1Vclt g s => slotOf g s 0x20C
  | .vu1Vcle g s => slotOf g s 0x20D
  | .vu1Vcun g s => slotOf g s 0x20E
  | .vu1Vsel g s => slotOf g s 0x20F
  | .vu1Vand g s => slotOf g s 0x210
  | .vu1Vor g s => slotOf g s 0x211
  | .vu1Vxor g s => slotOf g s 0x212
  | .vu1Vshl g s => slotOf g s 0x213
  | .vu1Vshr g s => slotOf g s 0x214
  | .vu1Vsar g s => slotOf g s 0x215
  | .vu1Vcvt g s => slotOf g s 0x216
  | .vu1Vbcast g s => slotOf g s 0x217
  | .vu1Vextr g s => slotOf g s 0x218
  | .vu1Vperm g s => slotOf g s 0x219
  | .vu1Vredadd g s => slotOf g s 0x21A
  | .vu1Vredmax g s => slotOf g s 0x21B
  | .vu1Vredmin g s => slotOf g s 0x21C
  | .vu1Vexp2 g s => slotOf g s 0x21D
  | .vu1Vlog2 g s => slotOf g s 0x21E
  | .vu1Vrcp g s => slotOf g s 0x21F
  | .vu1Vrsqrt g s => slotOf g s 0x220
  | .vu1Vtanh g s => slotOf g s 0x221
  | .vu1Vquant g s => slotOf g s 0x222
  | .vu1Vdeq g s => slotOf g s 0x223
  | .vu1Vnf g s => slotOf g s 0x224
  | .vu1Vscan g s => slotOf g s 0x225
  | .vu1Vtopk g s => slotOf g s 0x226
  | .vu1Vidx g s => slotOf g s 0x227
  | .ld8 g s => slotOf g s 0x242
  | .ld16 g s => slotOf g s 0x243
  | .ld32 g s => slotOf g s 0x244
  | .ld64 g s => slotOf g s 0x245
  | .vld g s => slotOf g s 0x246
  | .vldm g s => slotOf g s 0x247
  | .vldg g s => slotOf g s 0x248
  | .st8 g s => slotOf g s 0x249
  | .st16 g s => slotOf g s 0x24A
  | .st32 g s => slotOf g s 0x24B
  | .st64 g s => slotOf g s 0x24C
  | .vst g s => slotOf g s 0x24D
  | .vstm g s => slotOf g s 0x24E
  | .vsts g s => slotOf g s 0x24F
  | .ldblk g s => slotOf g s 0x250
  | .ldh g s => slotOf g s 0x251
  | .amoadd g s => slotOf g s 0x252
  | .amomin g s => slotOf g s 0x253
  | .amomax g s => slotOf g s 0x254
  | .amoand g s => slotOf g s 0x255
  | .amoor g s => slotOf g s 0x256
  | .amoxor g s => slotOf g s 0x257
  | .amoswp g s => slotOf g s 0x258
  | .amocas g s => slotOf g s 0x259
  | .amofadd g s => slotOf g s 0x25A
  | .qbind g s => slotOf g s 0x281
  | .qpush g s => slotOf g s 0x282
  | .qpushv g s => slotOf g s 0x283
  | .qtry g s => slotOf g s 0x284
  | .qclose g s => slotOf g s 0x285
  | .qfmt g s => slotOf g s 0x286
  | .qinfo g s => slotOf g s 0x287
  | .cpy g s => slotOf g s 0x2C1
  | .chan g s => slotOf g s 0x2C2
  | .cpyq g s => slotOf g s 0x2C3
  | .bini g s => slotOf g s 0x2C4
  | .bexp g s => slotOf g s 0x2C5
  | .barr g s => slotOf g s 0x2C6
  | .bwait g s => slotOf g s 0x2C7
  | .cabt g s => slotOf g s 0x2C8
  | .mcall g s => slotOf g s 0x318
  | .mgrant g s => slotOf g s 0x319
  | .mrel g s => slotOf g s 0x31A
  | .mstat g s => slotOf g s 0x31B
  | .mwr g s => slotOf g s 0x31C
  | .mabt g s => slotOf g s 0x31D
  | .wait g s => slotOf g s 0x341
  | .fence g s => slotOf g s 0x342
  | .acq g s => slotOf g s 0x343
  | .rel g s => slotOf g s 0x344
  | .ctlr g s => slotOf g s 0x345
  | .ctlw g s => slotOf g s 0x346
  | .trap g s => slotOf g s 0x347
  | .eret g s => slotOf g s 0x348
  | .yield g s => slotOf g s 0x349
  | .spawn g s => slotOf g s 0x34A
  | .fso g s => slotOf g s 0x34B
  | .fsc g s => slotOf g s 0x34C
  | .fsw g s => slotOf g s 0x34D
  | .tbar g s => slotOf g s 0x34E
  | .park g s => slotOf g s 0x34F
  | .gbind g s => slotOf g s 0x381
  | .gstep g s => slotOf g s 0x382
  | .gwait g s => slotOf g s 0x383
  | .gqry g s => slotOf g s 0x384
  | .xscore g s => slotOf g s 0x385
  | .xsettle g s => slotOf g s 0x386
  | .xemit g s => slotOf g s 0x387
  | .xpref g s => slotOf g s 0x388
  | .xqry g s => slotOf g s 0x389
  | .gvobs g s => slotOf g s 0x38A
  | .gvget g s => slotOf g s 0x38B
  | .gvepoch g s => slotOf g s 0x38C
  | .gvpin g s => slotOf g s 0x38D
  | .move g s d => slotOf g s d.code
  | .neverMove a b => [BitVec.ofNat 24 (0x800000 + a.toNat * 1024 + b.toNat)]
  | .limm24 g x d => slotOf g (.limm24 x) d.code
  | .limm48 g x d => slotOf g (.limm48 x) d.code
  | .ldq g d => slotOf g .ldq d.code
  | .vldq g d => slotOf g .vldq d.code
  | .frecv g d => slotOf g .frecv d.code
  | .qp g h d => slotOf g (.qp h) d.code
  | .qv g h d => slotOf g (.qv h) d.code
  | .bundleIssue => []
  | .resultDelivery => []
  | .contextSwitch => []
  | .systemReturn => []
  | .debugResume => []
  | .wdog => []
  | .laqSend => []
  | .ldqEntryLand => []
  | .saqDrain => []
  | .storePerform => []
  | .homeAccessArrival => []
  | .writeThroughAck => []
  | .pagerFillStart => []
  | .claimComplete => []
  | .pageFillComplete => []
  | .acqAtHome => []
  | .relAtHome => []
  | .waiterRetry => []
  | .amoPerform => []
  | .dispatchRound => []
  | .workerStart => []
  | .launchComplete => []
  | .teamMessageArrival => []
  | .scopeRemoteRequest => []
  | .scopeDecrement => []
  | .stageEntryVisible => []
  | .stageSlotFreed => []
  | .balancerInterval => []
  | .energyChargeArrival => []
  | .watchdogPre => []
  | .watchdogKill => []
  | .watchdogFence => []
  | .preemptSave => []
  | .restore => []
  | .spillWrite => []
  | .tenantViolation => []
  | .viReset => []
  | .registerWrite => []
  | .launchPacket => []
  | .bodyRetry => []
  | .compassEntryWrite => []
  | .ladderWrite => []
  | .larderEntryWrite => []
  | .groupEntryWrite => []
  | .ueCommand => []
  | .ueInboundWrite => []
  | .thermalThrottle => []
  | .thermalShutdown => []
  | .coldReset => []
  | .laneFailure => []
  | .copyCommandStart => []
  | .copyPiece => []
  | .copyCompletion => []
  | .channelStep => []
  | .firmwarePath => []
  | .barrierUpdate => []
  | .bwaitReply => []
  | .matrixCallStart => []
  | .bankGrant => []
  | .halt => []
  | .tld => []
  | .tst => []
  | .tzero => []
  | .mma => []
  | .retire => []
  | .scale => []
  | .microLoop => []
  | .padd => []
  | .signal => []
  | .teamsync => []
  | .compassContribution => []
  | .compassEpoch => []
  | .compassObsAccept => []
  | .compassPinAccept => []
  | .slabSend => []
  | .localFill => []
  | .slabDelivery => []
  | .ldhCheck => []
  | .stalehaloTimeout => []
  | .proposalArrive => []
  | .expertFillStart => []
  | .expertFillComplete => []
  | .expertFillFail => []
  | .walkBatchStart => []
  | .blockDispatch => []
  | .waiterPoolRetry => []
  | .ringSlotAllocation => []
  | .flitArrival => []
  | .fabricMessageSend => []
  | .fabricAccessPerform => []
  | .fabricMessageDelivery => []
  | .fabricResponse => []
  | .multicastPacket => []
  | .reductionContribution => []
  | .reductionRetry => []
  | .coreReset => []
  | .nvmeFailure => []

/-- The micro-word of a micro-operation (R266); the bits not named are zero. -/
def encodeMicro : MicroOp → Word
  | .halt => 0
  | .tld t pa ps pq cm => 1#4 ++ t ++ pa ++ ps ++ pq ++ cm ++ 0#45
  | .tst t pa ps pq => 2#4 ++ t ++ pa ++ ps ++ pq ++ 0#47
  | .tzero m => 3#4 ++ m ++ 0#56
  | .mma ta tb ac k0 kn => 4#4 ++ ta ++ tb ++ ac ++ k0 ++ kn ++ 0#26
  | .retire ac pa ps pq fmt bsz bs z mr mc =>
    5#4 ++ ac ++ pa ++ ps ++ pq ++ fmt ++ bsz ++ BitVec.ofBool bs ++ BitVec.ofBool z ++ mr ++ mc ++ 0#26
  | .scale ac p => 6#4 ++ ac ++ p ++ 0#55
  | .loop c t n => 7#4 ++ c ++ t ++ n ++ (0#32 : BitVec 32)
  | .padd p src q imm => 8#4 ++ p ++ src ++ q ++ 0#20 ++ imm
  | .signal p sc => 9#4 ++ p ++ sc ++ 0#54
  | .teamsync id => 10#4 ++ id ++ 0#52

end Sys2Proof
end

