-- ==== Sys2Proof/Machine/Real.lean ====
section
/-!
DEFINITION. Exact real magnitudes, and the floor of a magnitude at any binary scale.
R5 (00) makes real arithmetic exact: a real becomes a format value only through RoundTo or Conv. A magnitude is held as data
(a dyadic, a quotient, a square root of a quotient, or a transcendental of a dyadic), and rounding asks it one question: the
integer part of the magnitude times a power of two, and whether anything lies below it.
-/

namespace Sys2Proof.Machine

/-- The transcendental functions of R103 whose value at a dyadic argument may be irrational. -/
inductive IrrFun where
  | exp2 | log2 | tanh
deriving DecidableEq, Repr

/-- A nonnegative exact real. -/
inductive Mag where
  /-- m * 2^e -/
  | dy (m : Nat) (e : Int)
  /-- (n / d) * 2^e, d > 0 -/
  | quo (n d : Nat) (e : Int)
  /-- the square root of (n / d) * 2^e, d > 0 -/
  | root (n d : Nat) (e : Int)
  /-- the magnitude of f at the dyadic (-1)^neg * m * 2^e -/
  | irr (f : IrrFun) (neg : Bool) (m : Nat) (e : Int)
deriving DecidableEq, Repr

/-- n * 2^k for k of either sign, floored. -/
def shiftNat (n : Nat) (k : Int) : Nat :=
  if 0 ≤ k then n <<< k.toNat else n >>> (-k).toNat

/-- The integer square root, one result bit a step from bit b downwards. -/
def isqrtFrom : Nat → Nat → Nat → Nat
  | 0, _, acc => acc
  | b + 1, n, acc =>
    let c := acc + 2 ^ b
    isqrtFrom b n (if c * c ≤ n then c else acc)

/-- The integer part of the square root of n. -/
def isqrt (n : Nat) : Nat := isqrtFrom (Nat.log2 n / 2 + 1) n 0

/-- Sum of z^(2i+1)/(2i+1) at scale 2^p, the terms from i on: t is z^(2i+1), w is z^2. -/
def atanhSum (p w : Nat) : Nat → Nat → Nat → Nat
  | 0, _, _ => 0
  | n + 1, i, t => t / (2 * i + 1) + atanhSum p w n (i + 1) ((t * w) >>> p)

/-- 2 * artanh(a / b) at scale 2^p: the natural logarithm of (b + a)/(b - a), for 3 * a ≤ b. -/
def lnRatio (p a b : Nat) : Nat :=
  let z := (a <<< p) / b
  2 * atanhSum p ((z * z) >>> p) (p / 3 + 8) 0 z

/-- The natural logarithm of 2 at scale 2^p. -/
def ln2 (p : Nat) : Nat := lnRatio p 1 3

/-- Sum of y^j / j! at scale 2^p over n terms, from the term t = y^j / j! on. -/
def expSum (p y : Nat) : Nat → Nat → Nat → Nat
  | 0, _, _ => 0
  | n + 1, j, t => t + expSum p y n (j + 1) (t * y / ((j + 1) <<< p))

/-- 2^h at scale 2^p for h in [0, 1] given at scale 2^p. -/
def pow2Frac (p h : Nat) : Nat :=
  expSum p ((h * ln2 p) >>> p) (p / 4 + 16) 0 (1 <<< p)

/-- An approximation of a transcendental's magnitude at scale 2^p and a bound of its error in units of 2^(-p). -/
def irrApprox (f : IrrFun) (neg : Bool) (m : Nat) (e : Int) (p : Nat) : Nat × Nat :=
  match f with
  | .exp2 =>
    -- x = n + h with n the floor and h in [0, 1)
    let x : Int := (if neg then -1 else 1) * (m : Int)
    let n : Int := if 0 ≤ e then x * 2 ^ e.toNat else x / 2 ^ (-e).toNat
    let h : Nat := if 0 ≤ e then 0 else ((x % 2 ^ (-e).toNat).toNat <<< p) >>> (-e).toNat
    (shiftNat (pow2Frac p h) n, shiftNat (8 * p + 256) n + 2)
  | .log2 =>
    -- x = y * 2^n with y in [1, 2)
    let l := Nat.log2 m
    let n : Int := (l : Int) + e
    let lny := lnRatio p (m - 2 ^ l) (m + 2 ^ l)
    let frac := (lny <<< p) / ln2 p
    let v : Int := n * 2 ^ p + (frac : Int)
    (v.natAbs, 8 * p + 256)
  | .tanh =>
    -- (1 - t)/(1 + t) with t = 2^(-u), u = 2|x| / ln 2
    let ax := shiftNat m (e + (p : Int) + 1)
    let u := (ax <<< p) / ln2 p
    let n := u >>> p
    let h := u % 2 ^ p
    let t := (pow2Frac p (2 ^ p - h)) >>> (n + 1)
    (((2 ^ p - t) <<< p) / (2 ^ p + t), 32 * p + 1024)

/-- The floor of an irrational magnitude times 2^k: the precision doubles until the error bound no longer straddles an
integer multiple, at most n times. -/
def irrFloor (f : IrrFun) (neg : Bool) (m : Nat) (e k : Int) : Nat → Nat → Nat
  | 0, p => shiftNat (irrApprox f neg m e p).1 (k - p)
  | n + 1, p =>
    let (v, err) := irrApprox f neg m e p
    let lo := shiftNat (v - err) (k - p)
    if lo = shiftNat (v + err) (k - p) then lo else irrFloor f neg m e k n (2 * p)

/-- The integer part of a magnitude times 2^k, and whether the product is an integer. -/
def Mag.floorScaled : Mag → Int → Nat × Bool
  | .dy m e, k =>
    let t := e + k
    if 0 ≤ t then (m <<< t.toNat, true) else (m >>> (-t).toNat, m % 2 ^ (-t).toNat = 0)
  | .quo n d e, k =>
    let t := e + k
    let num := if 0 ≤ t then n <<< t.toNat else n
    let den := if 0 ≤ t then d else d <<< (-t).toNat
    (num / den, num % den = 0)
  | .root n d e, k =>
    let t := e + 2 * k
    let num := if 0 ≤ t then n <<< t.toNat else n
    let den := if 0 ≤ t then d else d <<< (-t).toNat
    let r := isqrt (num / den)
    (r, r * r * den = num)
  | .irr f neg m e, k => (irrFloor f neg m e k 4 (k.toNat + 96), false)

/-- The exponent E with 2^E ≤ a < 2^(E+1), for a > 0. An irrational below 2^(-200) is given -201: it lies below half of half
the least subnormal of every lane format. -/
def Mag.ilog2 : Mag → Int
  | .dy m e => (Nat.log2 m : Int) + e
  | .quo n d e =>
    let c := (Nat.log2 n : Int) - Nat.log2 d + e
    if 1 ≤ ((Mag.quo n d e).floorScaled (-c)).1 then c else c - 1
  | .root n d e =>
    let c := ((Nat.log2 n : Int) - Nat.log2 d + e) / 2
    if 1 ≤ ((Mag.root n d e).floorScaled (-c)).1 then c else c - 1
  | .irr f neg m e =>
    let q := ((Mag.irr f neg m e).floorScaled 200).1
    if q = 0 then -201 else (Nat.log2 q : Int) - 200

/-- Whether a magnitude is zero. Every transcendental magnitude held is nonzero. -/
def Mag.isZero : Mag → Bool
  | .dy m _ => m = 0
  | .quo n _ _ => n = 0
  | .root n _ _ => n = 0
  | .irr .. => false

/-- A decoded format value: a NaN, an infinity, or the dyadic (-1)^neg * m * 2^e. -/
inductive XR where
  | nan
  | inf (neg : Bool)
  | fin (neg : Bool) (m : Nat) (e : Int)
deriving DecidableEq, Repr

/-- An exact result before rounding. -/
inductive RV where
  | nan
  | inf (neg : Bool)
  | fin (neg : Bool) (a : Mag)
deriving DecidableEq, Repr

/-- A decoded value as an exact result. -/
def XR.toRV : XR → RV
  | .nan => .nan
  | .inf s => .inf s
  | .fin s m e => .fin s (.dy m e)

/-- Whether a decoded value is zero. -/
def XR.isZero : XR → Bool
  | .fin _ m _ => m = 0
  | _ => false

/-- Whether a decoded value is a NaN. -/
def XR.isNaN : XR → Bool
  | .nan => true
  | _ => false

/-- Whether a decoded value is an infinity. -/
def XR.isInf : XR → Bool
  | .inf _ => true
  | _ => false

/-- Whether a decoded value is finite. -/
def XR.isFin : XR → Bool
  | .fin .. => true
  | _ => false

/-- The sign of a decoded value (false for a NaN). -/
def XR.sign : XR → Bool
  | .nan => false
  | .inf s => s
  | .fin s _ _ => s

/-- The value of an integer. -/
def XR.ofInt (n : Int) : XR := .fin (n < 0) n.natAbs 0

/-- The negated value; the sign of a zero flips. -/
def XR.neg : XR → XR
  | .nan => .nan
  | .inf s => .inf (!s)
  | .fin s m e => .fin (!s) m e

/-- The magnitude. -/
def XR.abs : XR → XR
  | .nan => .nan
  | .inf _ => .inf false
  | .fin _ m e => .fin false m e

/-- A signed integer m with (-1)^neg * m * 2^e = result * 2^f, for f ≤ e. -/
def alignTo (neg : Bool) (m : Nat) (e f : Int) : Int :=
  let a : Int := (m <<< (e - f).toNat : Nat)
  if neg then -a else a

/-- The exact sum (R56): opposite infinities give NaN; an exact zero of opposite signs is +0, of equal signs keeps it. -/
def XR.add : XR → XR → XR
  | .nan, _ => .nan
  | _, .nan => .nan
  | .inf a, .inf b => if a = b then .inf a else .nan
  | .inf a, _ => .inf a
  | _, .inf b => .inf b
  | .fin a m e, .fin b n f =>
    let q := if e ≤ f then e else f
    let s := alignTo a m e q + alignTo b n f q
    if s = 0 then .fin (a && b) 0 0 else .fin (s < 0) s.natAbs q

/-- The exact difference. -/
def XR.sub (a b : XR) : XR := a.add b.neg

/-- The exact product (R56): 0 * inf is NaN; the sign is the exclusive OR of the signs. -/
def XR.mul : XR → XR → XR
  | .nan, _ => .nan
  | _, .nan => .nan
  | .inf a, .inf b => .inf (a != b)
  | .inf a, .fin b n _ => if n = 0 then .nan else .inf (a != b)
  | .fin a m _, .inf b => if m = 0 then .nan else .inf (a != b)
  | .fin a m e, .fin b n f => .fin (a != b) (m * n) (e + f)

/-- Exact order of two values that are not NaN, -0 equal to +0: lt. -/
def XR.lt : XR → XR → Bool
  | .nan, _ => false
  | _, .nan => false
  | .inf a, .inf b => a && !b
  | .inf a, .fin .. => a
  | .fin .., .inf b => !b
  | .fin a m e, .fin b n f =>
    let q := if e ≤ f then e else f
    alignTo a m e q < alignTo b n f q

/-- Exact equality of two values that are not NaN, -0 equal to +0. -/
def XR.eq (a b : XR) : Bool := !a.isNaN && !b.isNaN && !a.lt b && !b.lt a

/-- a ≤ b for values that are not NaN. -/
def XR.le (a b : XR) : Bool := a.lt b || a.eq b

/-- The exact quotient of two dyadics as a result; a zero divisor is the caller's case. -/
def divMag (m : Nat) (e : Int) (n : Nat) (f : Int) : Mag := .quo m n (e - f)

end Sys2Proof.Machine
end

