-- ==== Sys2Proof/Machine/Format.lean ====
section
/-!
DEFINITION. Number formats (R69-R76), rounding (R77, R78), the draw (R79), conversion (R80) and block scaling (R81, R82) of
04_number_formats.md.
-/

namespace Sys2Proof.Machine

/-- A rounding mode, the value of RM (R12): 0 nearest even, 1 toward zero, 2 saturate-to-finite, 3 stochastic. -/
abbrev RMode := BitVec 2

/-- A 7-bit format code (R69). -/
abbrev FmtCode := BitVec 7

/-- A floating format by its magnitude codes (R74, R75): code c decodes to t * 2^qmin below 2^(P-1), and otherwise to
(2^(P-1) + t) * 2^(e - 1 + qmin) with e = c / 2^(P-1). Both the IEEE layouts and binaryKpP have this form. -/
structure Fp where
  /-- Storage bits. -/
  width : Nat
  /-- Precision, the hidden bit included. -/
  prec : Nat
  /-- The exponent of the least subnormal. -/
  qmin : Int
  /-- The magnitude code of the largest finite magnitude M. -/
  maxCode : Nat
  /-- The magnitude code of infinity, when the format has infinities. -/
  infCode : Option Nat
  /-- The canonical NaN. -/
  nanCode : Nat
  /-- No sign bit: an unsigned binaryKpP format. -/
  unsigned : Bool
  /-- A negative zero exists (IEEE layouts only). -/
  negZero : Bool
deriving DecidableEq, Repr

/-- What a format code names. -/
inductive FmtInfo where
  | fp (f : Fp)
  | int (w : Nat) (signed : Bool)
  | sc8
deriving DecidableEq, Repr

/-- An IEEE 754 binary layout with eb exponent and tb trailing bits (R74). -/
def ieee (eb tb : Nat) : Fp where
  width := eb + tb + 1
  prec := tb + 1
  qmin := 2 - (2 ^ (eb - 1) : Nat) - tb
  maxCode := (2 ^ eb - 1) * 2 ^ tb - 1
  infCode := some ((2 ^ eb - 1) * 2 ^ tb)
  nanCode := (2 ^ eb - 1) * 2 ^ tb + 2 ^ (tb - 1)
  unsigned := false
  negZero := true

/-- binaryKpP (R75): K bits, precision p, unsigned flag s, finite flag f. -/
def binaryKp (k p : Nat) (s f : Bool) : Fp where
  width := k
  prec := p
  qmin := if s then 2 - (2 ^ (k - p) : Nat) - p else 2 - (2 ^ (k - p - 1) : Nat) - p
  maxCode :=
    match s, f with
    | false, false => 2 ^ (k - 1) - 2
    | false, true => 2 ^ (k - 1) - 1
    | true, false => 2 ^ k - 3
    | true, true => 2 ^ k - 2
  infCode :=
    match s, f with
    | false, false => some (2 ^ (k - 1) - 1)
    | true, false => some (2 ^ k - 2)
    | _, true => none
  nanCode := if s then 2 ^ k - 1 else 2 ^ (k - 1)
  unsigned := s
  negZero := false

def f32 : Fp := ieee 8 23
def f16 : Fp := ieee 5 10
def bf16 : Fp := ieee 8 7
def f64 : Fp := ieee 11 52

/-- The meaning of a format code (R69); none for the reserved codes of R70. -/
def fmtInfo (c : FmtCode) : Option FmtInfo :=
  let n := c.toNat
  if n = 0x00 then some (.fp f32)
  else if n = 0x01 then some (.fp f16)
  else if n = 0x02 then some (.fp bf16)
  else if n = 0x03 then some (.fp f64)
  else if n = 0x08 then some (.int 32 true)
  else if n = 0x09 then some (.int 16 true)
  else if n = 0x0A then some (.int 8 true)
  else if n = 0x0B then some (.int 4 true)
  else if n = 0x0C then some (.int 2 true)
  else if n = 0x0D then some (.int 8 false)
  else if n = 0x0E then some (.int 4 false)
  else if n = 0x10 then some .sc8
  else if n < 0x40 then none
  else
    let k4 := c.getLsbD 5
    let p := n % 8
    if p = 0 then none
    else if k4 && 3 < p then none
    else some (.fp (binaryKp (if k4 then 4 else 8) p (c.getLsbD 4) (c.getLsbD 3)))

/-- A code is assigned (R70). -/
def fmtAssigned (c : FmtCode) : Bool := (fmtInfo c).isSome

/-- Storage bits of a format (R69). -/
def FmtInfo.width : FmtInfo → Nat
  | .fp f => f.width
  | .int w _ => w
  | .sc8 => 8

/-- Storage bits of a format code; 8 for a reserved code, which no holder accepts. -/
def fmtWidth (c : FmtCode) : Nat :=
  match fmtInfo c with
  | some i => i.width
  | none => 8

def fmtF32 : FmtCode := 0x00#7
def fmtF64 : FmtCode := 0x03#7
def fmtSc8 : FmtCode := 0x10#7

/-- The FP class of R89: f32, f16, bf16 and every binaryKpP format. -/
def fmtIsFp (c : FmtCode) : Bool :=
  match fmtInfo c with
  | some (.fp _) => true
  | _ => false

/-- An element format of a block-scaled tensor (R81): a binaryKpP format, or i8, i4, i2, n8 or n4. -/
def fmtBlockElem (c : FmtCode) : Bool :=
  match fmtInfo c with
  | some (.fp f) => f.width ≤ 8
  | some (.int w _) => w ≤ 8
  | _ => false

/-- The value of magnitude code c (R75). -/
def Fp.codeMag (f : Fp) (c : Nat) : Nat × Int :=
  let h := 2 ^ (f.prec - 1)
  let e := c / h
  if e = 0 then (c, f.qmin) else (h + c % h, f.qmin + (e : Int) - 1)

/-- Decodes a code of a floating format (R74, R75). -/
def Fp.decode (f : Fp) (b : Nat) : XR :=
  let b := b % 2 ^ f.width
  let neg := !f.unsigned && b.testBit (f.width - 1)
  let c := if f.unsigned then b else b % 2 ^ (f.width - 1)
  if f.negZero then
    match f.infCode with
    | some i => if c = i then .inf neg else if i < c then .nan else
        let (m, e) := f.codeMag c
        .fin neg m e
    | none => .nan
  else if b = f.nanCode then .nan
  else if f.infCode = some c then .inf neg
  else
    let (m, e) := f.codeMag c
    .fin neg m e

/-- The signed or unsigned value of the low w bits of b. -/
def intOf (w : Nat) (signed : Bool) (b : Nat) : Int :=
  let b := b % 2 ^ w
  if signed && b.testBit (w - 1) then (b : Int) - (2 ^ w : Nat) else b

/-- Decodes the code b of a format (R69, R75); an sc8 code e is 2^(e-127), 0xFF is NaN. -/
def FmtInfo.decode : FmtInfo → Nat → XR
  | .fp f, b => f.decode b
  | .int w s, b => XR.ofInt (intOf w s b)
  | .sc8, b => if b % 256 = 255 then .nan else .fin false 1 ((b % 256 : Nat) - 127)

/-- Decodes under a format code. -/
def fmtDecode (c : FmtCode) (b : Nat) : XR :=
  match fmtInfo c with
  | some i => i.decode b
  | none => .nan

/-- One draw of the stochastic generator (R79): the new SEED, whose low 24 bits are the value drawn. -/
def drawSeed (s : Word) : Word :=
  let s := s ^^^ (s <<< 13)
  let s := s ^^^ (s >>> 7)
  s ^^^ (s <<< 17)

/-- The 24 bits a draw returns from the SEED it leaves (R79). -/
def drawValue (s : Word) : Nat := s.toNat % 2 ^ 24

/-- The outcome of a rounding: the code delivered, whether NFS is due, whether it was inexact, and SEED after it. -/
structure Rounded where
  bits : Nat
  nfs : Bool
  inexact : Bool
  seed : Word
deriving DecidableEq, Repr

/-- The position of a magnitude on the continued grid of R77: the code of the grid value at or below it, whether it is that
value, the comparison with the midpoint (0 below, 1 at, 2 above), and the first 24 bits of its place between the two. -/
structure GridPos where
  code : Nat
  exact : Bool
  half : Nat
  frac : Nat
deriving DecidableEq, Repr

/-- Places a magnitude on the grid of a format (R77). -/
def Fp.place (f : Fp) (a : Mag) : GridPos :=
  if a.isZero then { code := 0, exact := true, half := 0, frac := 0 }
  else
    let q0 := a.ilog2 - ((f.prec : Int) - 1)
    let q := if f.qmin ≤ q0 then q0 else f.qmin
    let (n, ex) := a.floorScaled (25 - q)
    let rest := n % 2 ^ 25
    { code := (q - f.qmin).toNat * 2 ^ (f.prec - 1) + n / 2 ^ 25
      exact := rest = 0 && ex
      half := if rest < 2 ^ 24 then 0 else if rest = 2 ^ 24 && ex then 1 else 2
      frac := rest / 2 }

/-- The grid code a mode chooses, and SEED after it (R77, R79). -/
def GridPos.choose (g : GridPos) (mode : RMode) (seed : Word) : Nat × Word :=
  if g.exact then (g.code, seed)
  else if mode = 1#2 then (g.code, seed)
  else if mode = 3#2 then
    let s := drawSeed seed
    (if drawValue s < g.frac then g.code + 1 else g.code, s)
  else
    let up := g.half = 2 || (g.half = 1 && g.code % 2 = 1)
    (if up then g.code + 1 else g.code, seed)

/-- The code with a sign: the sign bit stands above the magnitude code. -/
def Fp.withSign (f : Fp) (neg : Bool) (c : Nat) : Nat :=
  if neg && !f.unsigned then 2 ^ (f.width - 1) + c else c

/-- RoundTo (R77): the code in format f of an exact result, rounded under mode. -/
def Fp.round (f : Fp) (mode : RMode) (seed : Word) (x : RV) : Rounded :=
  match x with
  | .nan => { bits := f.nanCode, nfs := true, inexact := false, seed := seed }
  | .inf neg =>
    match f.infCode with
    | some i =>
      { bits := if neg && f.unsigned then f.nanCode else f.withSign neg i, nfs := true, inexact := false, seed := seed }
    | none => { bits := f.nanCode, nfs := true, inexact := false, seed := seed }
  | .fin neg a =>
    let g := f.place a
    let (m, seed') := g.choose mode seed
    if neg && f.unsigned && !a.isZero then
      if m = 0 || mode = 2#2 then { bits := 0, nfs := false, inexact := !g.exact, seed := seed' }
      else { bits := f.nanCode, nfs := true, inexact := !g.exact, seed := seed' }
    else if f.maxCode < m then
      if mode = 1#2 || mode = 2#2 then
        { bits := f.withSign neg f.maxCode, nfs := false, inexact := true, seed := seed' }
      else
        match f.infCode with
        | some i => { bits := f.withSign neg i, nfs := true, inexact := !g.exact, seed := seed' }
        | none => { bits := f.nanCode, nfs := true, inexact := !g.exact, seed := seed' }
    else if m = 0 then
      { bits := f.withSign (neg && f.negZero) 0, nfs := false, inexact := !g.exact, seed := seed' }
    else { bits := f.withSign neg m, nfs := false, inexact := !g.exact, seed := seed' }

/-- The least value of an integer format (R74). -/
def intMin (w : Nat) (signed : Bool) : Int := if signed then -((2 ^ (w - 1) : Nat) : Int) else 0

/-- The greatest value of an integer format (R74). -/
def intMax (w : Nat) (signed : Bool) : Int := if signed then ((2 ^ (w - 1) : Nat) : Int) - 1 else (2 ^ w : Nat) - 1

/-- The code of an integer in w bits, wrapped. -/
def intCode (w : Nat) (n : Int) : Nat := (n % (2 ^ w : Nat)).toNat

/-- The integer a mode rounds an exact result to, on the magnitude, and SEED after it (R78). -/
def roundInt (neg : Bool) (a : Mag) (mode : RMode) (seed : Word) : Int × Bool × Word :=
  let (n, ex) := a.floorScaled 25
  let rest := n % 2 ^ 25
  let g : GridPos :=
    { code := n / 2 ^ 25, exact := rest = 0 && ex
      half := if rest < 2 ^ 24 then 0 else if rest = 2 ^ 24 && ex then 1 else 2
      frac := rest / 2 }
  let (m, seed') := g.choose mode seed
  (if neg then -(m : Int) else m, !g.exact, seed')

/-- Conversion of an exact result into an integer format (R78): saturates under every mode. -/
def roundToInt (w : Nat) (signed : Bool) (mode : RMode) (seed : Word) (x : RV) : Rounded :=
  match x with
  | .nan => { bits := 0, nfs := true, inexact := false, seed := seed }
  | .inf neg =>
    { bits := intCode w (if neg then intMin w signed else intMax w signed), nfs := true, inexact := false, seed := seed }
  | .fin neg a =>
    let (n, inex, seed') := roundInt neg a mode seed
    if n < intMin w signed then
      { bits := intCode w (intMin w signed), nfs := true, inexact := inex, seed := seed' }
    else if intMax w signed < n then
      { bits := intCode w (intMax w signed), nfs := true, inexact := inex, seed := seed' }
    else { bits := intCode w n, nfs := false, inexact := inex, seed := seed' }

/-- Rounding into any format code: R77 or R78; a reserved code and sc8 take the 0xFF of R80. -/
def roundFmt (c : FmtCode) (mode : RMode) (seed : Word) (x : RV) : Rounded :=
  match fmtInfo c with
  | some (.fp f) => f.round mode seed x
  | some (.int w s) => roundToInt w s mode seed x
  | _ => { bits := 0xFF, nfs := true, inexact := false, seed := seed }

/-- The canonical NaN code of a format that has one (R74, R75, R80). -/
def fmtNaN (c : FmtCode) : Nat :=
  match fmtInfo c with
  | some (.fp f) => f.nanCode
  | some .sc8 => 0xFF
  | _ => 0

/-- Conv (R80): decodes b under f1 and rounds into f2; equal formats keep b but for a NaN, which becomes canonical. A NaN or an infinity
delivered is reported (R77, R83). -/
def conv (b : Nat) (f1 f2 : FmtCode) (mode : RMode) (seed : Word) : Rounded :=
  let b := b % 2 ^ fmtWidth f1
  let v := fmtDecode f1 b
  if f1 = f2 then
    if v.isNaN then { bits := fmtNaN f2, nfs := true, inexact := false, seed := seed }
    else { bits := b, nfs := v.isInf, inexact := false, seed := seed }
  else if f2 = fmtSc8 then { bits := 0xFF, nfs := true, inexact := false, seed := seed }
  else roundFmt f2 mode seed v.toRV

/-- A format pair is valid (R84). -/
def pairValid (src snk : FmtCode) : Bool :=
  if !(fmtAssigned src && fmtAssigned snk) then false
  else if src = snk then true
  else if src = fmtSc8 || snk = fmtSc8 then false
  else if src = fmtF64 then snk = fmtF32
  else if snk = fmtF64 then src = fmtF32
  else true

/-- The source and the sink of a 14-bit pair (R84). -/
def pairSrc (p : BitVec 14) : FmtCode := p.extractLsb' 7 7
def pairSnk (p : BitVec 14) : FmtCode := p.extractLsb' 0 7

/-- The block size of a 2-bit code (R81): 16, 32, 64, 128. -/
def blockSize (c : BitVec 2) : Nat := 16 <<< c.toNat

/-- A value scaled by the sc8 code e (R81): NaN under 0xFF; NaN and infinite elements are kept. -/
def scaleBy (v : XR) (e : Nat) : XR :=
  if e % 256 = 255 then .nan
  else
    match v with
    | .fin s m q => .fin s m (q + ((e % 256 : Nat) : Int) - 127)
    | x => x

/-- The largest finite magnitude M(fmt) of an element format as m * 2^e (R82). -/
def fmtMax (c : FmtCode) : Nat × Int :=
  match fmtInfo c with
  | some (.fp f) => f.codeMag f.maxCode
  | some (.int w s) => ((intMax w s).natAbs, 0)
  | _ => (1, 0)

/-- The comparison m * 2^e ≤ n * 2^f. -/
def dyLe (m : Nat) (e : Int) (n : Nat) (f : Int) : Bool :=
  if e ≤ f then m ≤ n <<< (f - e).toNat else m <<< (e - f).toNat ≤ n

/-- The largest finite magnitude of a block (R82); zero when no element is finite and nonzero. -/
def blockMax : List XR → Nat × Int
  | [] => (0, 0)
  | x :: xs =>
    let (m, e) := blockMax xs
    match x with
    | .fin _ n f => if m = 0 then (n, f) else if n = 0 then (m, e) else if dyLe m e n f then (n, f) else (m, e)
    | _ => (m, e)

/-- The smallest integer sx with A / 2^sx ≤ M (R82), for A = m * 2^e and M = n * 2^f nonzero. -/
def blockExp (m : Nat) (e : Int) (n : Nat) (f : Int) : Int :=
  let c := (Nat.log2 m : Int) + e - ((Nat.log2 n : Int) + f)
  if dyLe m (e - c) n f then c else c + 1

/-- The scale code of a block (R82): the code, whether SCLAMP is due, and whether its elements saturate. -/
def blockScale (xs : List XR) (fmt : FmtCode) : Nat × Bool × Bool :=
  let (m, e) := blockMax xs
  if m = 0 then (0, false, false)
  else
    let (n, f) := fmtMax fmt
    let s := blockExp m e n f + 127
    if s < 0 then (0, true, false)
    else if 254 < s then (254, true, true)
    else (s.toNat, false, false)

/-- A block encoded (R82): the scale, the element codes in order, and what the roundings reported. -/
structure Block where
  scale : Nat
  codes : List Nat
  sclamp : Bool
  nfs : Bool
  seed : Word
deriving DecidableEq, Repr

/-- The elements of a block under scale e, in ascending order, drawing as they go (R82). -/
def encodeElems (fmt : FmtCode) (mode : RMode) (e : Nat) : List XR → Word → List Nat × Bool × Word
  | [], s => ([], false, s)
  | x :: xs, s =>
    let v : XR := match x with
      | .fin g m q => .fin g m (q - ((e : Int) - 127))
      | y => y
    let r := roundFmt fmt mode s v.toRV
    let (cs, n, s') := encodeElems fmt mode e xs r.seed
    (r.bits :: cs, r.nfs || n, s')

/-- Block encoding (R82). -/
def encodeBlock (xs : List XR) (fmt : FmtCode) (mode : RMode) (seed : Word) : Block :=
  let (e, cl, sat) := blockScale xs fmt
  let (cs, n, s) := encodeElems fmt (if sat then 2#2 else mode) e xs seed
  { scale := e, codes := cs, sclamp := cl, nfs := n, seed := s }

end Sys2Proof.Machine
end

