-- ==== Sys2Proof/Config.lean ====
section
/-!
DEFINITION. What an implementation fixes and the free values: constants with no body, so that no proof can see what they are.
Each is named in the assumption log.
-/

namespace Sys2Proof.Config

/-- A byte the spec leaves open (R242: the contents of a half re-encoded tile; R354: the regions of an image
whose inner layout is not stated; R322: the layout of a heap area): applied to the
counter of free values of the state. Log 5. -/
opaque freeByte : Nat → BitVec 8

/-- A field of a 64-byte entry of an Ultra Ethernet command queue, whose layout R402 does not state: 0 the operation, 1 the local
global address, 2 the length, 3 the global address of its sync object, 4 the version that an acquire waits for, 5 the peer's address. Log 5. -/
opaque ueField : BitVec 512 → Nat → BitVec 64

/-- Which line a full remote-data cache replaces, of those that it may (R193 states no policy): by the clk and the line that comes in.
Log 47. -/
opaque victimLine : Nat → Nat → Nat

/-- How many logical blocks the namespace of a number (second) at an NVMe port (first) holds: the spec gives no register that says it
(R317 ends a fill whose source runs past the end). Log 54. -/
opaque nsLbas : Nat → Nat → Nat

/-- The core and context (core * 4 + context) that an exclusive object names as its owner once an Ultra Ethernet transfer has acquired it, by the object's
address: R210 gives a name to contexts alone. Log 55. -/
opaque ueOwner : Nat → Nat

end Sys2Proof.Config
end

