-- ==== Sys2Proof/Machine/State.lean ====
section
/-!
DEFINITION. The state of one GA-810 module and of the memory its rack ring addresses, as plain data.
Every record names the rule of the spec that gives it. Collections that are sparse in practice are lists sorted by key; a key
that is not listed holds the value of reset.
-/

namespace Sys2Proof.Machine

/-! ## Causes, ways to stop -/

/-- The trap causes of R339 (20). -/
inductive Cause where
  | illsrc | illdst | bundle | regbound | unitbusy | stack | window | perm | resid | qkind | record | mxnan | stalehalo
  | brk | sstep | wdog | eccu | priv
deriving DecidableEq, Repr

/-- Faults of the model. A trap of the spec is a next state, never one of these. -/
inductive Fault where
  /-- The module is powered down (R403): nothing executes until a cold reset. Raised by step when an agent other than a cold
  reset is to act in a module that is down. Safe: the spec gives a powered-down array no behaviour. -/
  | poweredDown
deriving DecidableEq, Repr

/-- Refusals of the model. -/
inductive Refusal where
  /-- The instruction has no meaning in the model yet. Raised by Dispatch only. Safe. -/
  | notModelled (mnemonic : String)
deriving DecidableEq, Repr

/-! ## A context -/

/-- The operand latches and parameter ports (R18, R255). -/
structure Latches where
  iaO : Vector Word 2 := Vector.replicate 2 0
  imO : Word := 0
  faO : Word := 0
  faP : Word := 0
  cuO : Word := 0
  vuO : Vector VWord 2 := Vector.replicate 2 0
  vuP : Vector VWord 2 := Vector.replicate 2 0
  vuK : Vector KWord 2 := Vector.replicate 2 0
  auO : Word := 0
  auX : Word := 0
  quO : Word := 0
  ceO : Word := 0
  syO : Word := 0
  xuO : Word := 0
  mp : Vector Word 8 := Vector.replicate 8 0
  tc : Vector Word 16 := Vector.replicate 16 0
deriving DecidableEq, Repr

/-- The result ports (R19). -/
structure Ports where
  ia : Vector Word 2 := Vector.replicate 2 0
  im : Word := 0
  fa : Word := 0
  vuV : Vector VWord 2 := Vector.replicate 2 0
  vuS : Vector Word 2 := Vector.replicate 2 0
  vuM : Vector KWord 2 := Vector.replicate 2 0
  qu : Word := 0
  ce : Word := 0
  mx : Word := 0
  sy : Word := 0
  xu : Word := 0
deriving DecidableEq, Repr

/-- The software-visible control registers of a context (R12); CTXINFO is computed from the placement. -/
structure Control where
  vfmt : BitVec 7 := 0
  rm : BitVec 2 := 0
  ldqf : BitVec 14 := 0
  nfs : BitVec 2 := 0
  slim : Word := 0
  spreg : BitVec 6 := 31
  utvec : BitVec 48 := 0
  nullen : BitVec 1 := 0
  swt : BitVec 16 := 16
  step : BitVec 2 := 0
  seed : Word := 0
  limcnt : BitVec 32 := 0
deriving DecidableEq, Repr

/-- An outstanding fixed-latency result, and a snapshot entry (R25): the port, the value, the issue cycles left before its
delivery, and the flags it sets then. -/
structure Pend where
  port : ResPort
  val : VWord
  left : Nat
  flags : BitVec 2
deriving DecidableEq, Repr

/-- A pending transfer (R63): its target and the delay positions left. eret: the transfer of an eret, with its t[0] (R346). -/
structure Transfer where
  target : BIndex
  left : Nat
  eret : Option (BitVec 1) := none
deriving DecidableEq, Repr

/-- A change of a loop level made by cu.loop or cu.lbrk, seen by the fetch decision made after the second bundle that follows
(R65, R68). -/
structure LoopChange where
  level : BitVec 2
  armed : Bool
  c : BitVec 32
  left : Nat
deriving DecidableEq, Repr

/-- A hardware loop level: its table entry and its live state (R64). -/
structure LoopLevel where
  first : BIndex := 0
  last : BIndex := 0
  valid : Bool := false
  armed : Bool := false
  c : BitVec 32 := 0
deriving DecidableEq, Repr

/-- A fault marker of an LDQ entry (R117, R313): its cause, the address reported, and the exact address of the byte, which does not wrap
(R109). -/
structure Mark where
  cause : Cause
  addr : Nat
  va : Int := (addr : Int)
deriving DecidableEq, Repr

/-- The atomic operations (R217). -/
inductive AmoOp where
  | add | min | max | and | or | xor | swp | cas | fadd
deriving DecidableEq, Repr

/-- What a load-type request does (R111). -/
inductive LoadOp where
  /-- ld8-ld64, vld, vldm, and ldh after its check. -/
  | plain
  /-- vldg: base, address of the index block, elements, element bytes; known once the indices have been read (R115). -/
  | gather (base idx n eb : Nat) (known : Bool)
  /-- ldblk: release form, lines (R195). -/
  | ldblk (rel : Bool) (lines : Nat)
  /-- ldh before its check: step computed, grid handle, the clk of its first check (R311-R313). -/
  | ldh (u : BitVec 32) (h : BitVec 2) (since : Option Nat)
  /-- An amo: operation, width in bytes, scope, number of its first claimed SDQ entry, operands once sent (R217). -/
  | amo (op : AmoOp) (w : Nat) (scope : BitVec 3) (claim : Nat) (c d : Word)
deriving DecidableEq, Repr

/-- The page of a paged or first-touch window (R191, R198, R201). -/
inductive PageId where
  /-- Backed in the CXL tier, by its global physical address. -/
  | cxl (pa : Nat)
  /-- Backed on NVMe: backing slot and 2 MiB chunk. -/
  | nvme (slot chunk : Nat)
  /-- A non-paged first-touch page: launch, window, page. -/
  | anon (launch win page : Nat)
deriving DecidableEq, Repr

/-- Where a byte lies: a global physical address, or a byte of a page whose frame its home finds (R188, R191). -/
inductive Loc where
  | phys (pa : Nat)
  /-- page, byte in it, fixed home die (none: first-touch), directory die, ro -/
  | page (p : PageId) (off : Nat) (home : Option Nat) (dir : Nat) (ro : Bool)
deriving DecidableEq, Repr

/-- A load-type request (R108): its place in trigger order, the base address, and the image byte each virtual address fills. -/
structure LoadReq where
  seq : Nat
  op : LoadOp
  va : Nat
  /-- bytes to read: virtual address and the place it fills in the entry's image -/
  img : List (Int × Nat)
  /-- element bytes: an access is split in pieces by element and by sector (R122) -/
  eb : Nat
  len : Nat
  vec : Bool
  pair : BitVec 14
  /-- bytes whose value has been fixed before they could be delivered (R120, R206, R209; log 49) -/
  pre : List (Loc × Byte) := []
deriving DecidableEq, Repr

/-- An LDQ entry, reserved when its request is sent (R108): the bytes read so far, the places of those that were refused, its marker, and
whether it has landed. -/
structure LdqEntry where
  req : LoadReq
  got : List (Nat × Byte) := []
  fail : List Nat := []
  mark : Option Mark := none
  landed : Bool := false
  /-- its RESID trap has been taken: it waits for its page (R196) -/
  held : Bool := false
deriving DecidableEq, Repr

/-- What an item of the SAQ does (R108, R213, R239, R290, R321). -/
inductive StoreOp where
  /-- st8-st64, vst, vstm: the image byte that each virtual address takes; mk: a mask entry is claimed too (R119). -/
  | plain (img : List (Int × Nat)) (eb : Nat) (mk : Bool)
  /-- vsts: base, address of the index block, elements, element bytes (R119). -/
  | scatter (base idx n eb : Nat)
  | rel (scope : BitVec 3)
  | bini (count : BitVec 16)
  | bexp (adj : BitVec 48)
  | barr (scope : BitVec 3)
  | gvobs (entry : Nat) (kind : BitVec 2) (val : BitVec 32)
  | xscore
deriving DecidableEq, Repr

/-- A SAQ entry: its place in trigger order, its address, its operation and its claims (R118). -/
structure StoreReq where
  seq : Nat
  va : Nat
  op : StoreOp
  claim : Nat
  nclaim : Nat
deriving DecidableEq, Repr

/-- An SDQ entry, numbered by its push (R118). -/
structure SdqEntry where
  num : Nat
  vec : Bool
  data : VWord
deriving DecidableEq, Repr

/-- A sent store whose pieces are not all performed (R205), or a sent SAQ item that has not taken effect at its home. -/
structure StoreFlight where
  seq : Nat
  req : StoreReq
  /-- element, place and byte of what is still to be performed -/
  cells : List (Nat × Loc × Byte)
deriving DecidableEq, Repr

/-- A byte that an engine of a die writes once its page is resident (R196): the bits that it writes, and their values. -/
structure OwedWrite where
  die : Nat
  loc : Loc
  mask : Byte := BitVec.allOnes 8
  val : Byte
deriving DecidableEq, Repr

/-- The outstanding counters (R123). -/
structure Counters where
  loads : Nat := 0
  stores : Nat := 0
  copies : Nat := 0
  tiles : Nat := 0
deriving DecidableEq, Repr

/-- A stage-queue handle (R153): the queue it is bound to, and the direction. -/
structure Handle where
  queue : Nat
  output : Bool
deriving DecidableEq, Repr

/-- A token word (R236). -/
structure Token where
  count : Nat := 0
  slow : Bool := false
  nf : Bool := false
  status : Nat := 0
  bytes : Nat := 0
deriving DecidableEq, Repr

/-- A chain channel (R233). -/
structure Channel where
  running : Bool := false
  head : BitVec 48 := 0
  /-- sectors of the record at the head that have been read: address and bytes (R235) -/
  got : List (Nat × BitVec 256) := []
  /-- place of its chan in the context's trigger order -/
  seq : Nat := 0
deriving DecidableEq, Repr

/-- A load-block held (R195): its home die (none: the Bivouac die), virtual base, lines, and where its lines lie. -/
structure LoadBlock where
  home : Option Nat
  va : Nat
  lines : Nat
  locs : List Loc
deriving DecidableEq, Repr

/-- A window of a worker's copy of its table (R186). -/
structure Window where
  index : Nat
  vbase : Nat
  target : Nat
  lsize : Nat
  r : Bool
  w : Bool
  x : Bool
  ro : Bool
  place : Nat
  paged : Bool
  nvme : Bool
  hdie : Nat
deriving DecidableEq, Repr

/-- The kinds of a level (R135). -/
inductive LevelKind where
  | unused | temporal | core | die
deriving DecidableEq, Repr

/-- A loop record's fields (R135). -/
structure LoopRec where
  elen : Nat := 0
  energy : Nat := 0
  queue : Nat := 0
  prio : Nat := 0
  tickets : Nat := 0
  scope : BitVec 16 := 0x0800
  wtab : Nat := 0
  counts : List Nat := [0, 0, 0, 0]
  kinds : List LevelKind := [.unused, .unused, .unused, .unused]
  mode : Nat := 0
  dies : BitVec 8 := 0
  cores : Nat := 0
  ctxs : Nat := 0
  regs : Nat := 0
  accs : BitVec 4 := 0
  tiles : BitVec 16 := 0
  trip : Nat := 0
  kend : BIndex := 0
  epi : BIndex := 0
  ev : Bool := false
  pro : BIndex := 0
  pv : Bool := false
  kernel : BIndex := 0
  ptab : Nat := 0
deriving DecidableEq, Repr

/-- Where a worker stands in its record (R137). -/
inductive Phase where
  | prologue | iteration | epilogue
  /-- A block-walk worker at an iteration boundary, waiting for its next dispatch (R329). -/
  | waiting
  /-- Past its last bundle. -/
  | done
deriving DecidableEq, Repr

/-- The block a walk's worker runs, and those dispatched to it and not yet begun (R329): indices into the record array. -/
structure WalkPart where
  walk : Nat
  /-- the module core that the batch claimed it on, to which its blocks are given -/
  core : Nat
  /-- the batch that it belongs to -/
  batch : Nat
  block : Option Nat
  next : List Nat
deriving DecidableEq, Repr

/-- A bundle cache's view of memory (R189): its bytes as they stood at a launch's start, with the frames that then held the pages
of windows, and the bytes of the NVMe namespaces. -/
structure CodeView where
  mem : List Host.Cell := []
  /-- die, page, and the physical address of its frame -/
  frames : List (Nat × PageId × Nat) := []
  /-- directory die, page, and the die that it is bound to -/
  binds : List (Nat × PageId × Nat) := []
  nvme : List Host.Cell := []
  slots : List (Nat × BitVec 128) := []
deriving DecidableEq, Repr

/-- A worker (R137): its launch, its ranks, its chunk and cursor, its window table copy. -/
structure Worker where
  /-- the number that tells this worker from every other (R25) -/
  uid : Nat
  launch : Nat
  vi : Nat
  code : CodeView := {}
  rcd : LoopRec
  wins : List Window
  die : Nat
  dieRank : Nat
  modRank : Nat
  phase : Phase
  dieFirst : Nat
  dieSize : Nat
  coreFirst : Nat
  coreSize : Nat
  dp : Nat
  cp : Nat
  it : Nat
  /-- pipeline id and stage (R151) -/
  stage : Option (Nat × Nat)
  /-- a pending stage change: pipeline and receiving stage (R160) -/
  move : Option (Nat × Nat)
  walk : Option WalkPart
deriving DecidableEq, Repr

/-- The units that accept a trigger (R37). -/
inductive Unit10 where
  | ia0 | ia1 | im | fa | cu | vu0 | vu1 | au | qu | ce | mx | sy | xu
deriving DecidableEq, Repr

/-- A reply a waiting bundle has received: a value, or a refusal (R212, R239). -/
inductive Reply where
  | value (w : Word)
  | refused (m : Mark)
deriving DecidableEq, Repr

/-- A request a waiting bundle has sent, by unit, its operands, and its reply (R146, R212, R239, R292, R306, R324, R327). -/
structure Awaiting where
  unit : Unit10
  /-- the trigger's destination code, and the number of the request -/
  code : Nat := 0
  rid : Nat := 0
  a : Word
  t : Word
  reply : Option Reply := none
  /-- the scope entry reserved for an fso, and the scope that a granted increment is taken back from when the bundle is abandoned
  (R146, R148) -/
  entry : Option (BitVec 16) := none
  undo : Option (BitVec 16) := none
  /-- the launch queue in which a spawn has reserved a place (R148) -/
  queue : Option Nat := none
  /-- the bound regions of the object, with the reply of a granted acq (R212): base and length -/
  regions : List (Nat × Nat) := []
  /-- the home answered "retry": the request may be sent again from a clk on (R211) -/
  retry : Bool := false
  retryAt : Nat := 0
  /-- sectors of a grid descriptor that the engine has read: address and bytes (R300) -/
  got : List (Nat × BitVec 256) := []
deriving DecidableEq, Repr

/-- What a user handler holds of the trapped code (R341, R344). -/
structure Held where
  pc : BIndex
  snap : List Pend
  divBusy : Nat
  xfer : List Transfer
  changes : List LoopChange
  word : Word
  cause : Cause
  addr : Nat
deriving DecidableEq, Repr

/-- A trap that has gone to the system context (R348). -/
structure SysEntry where
  cause : Cause
  pc : BIndex
  addr : Nat
  /-- a double trap: the cause that entered the user handler, its pc and address (R342) -/
  first : Option (Cause × BIndex × Nat)
deriving DecidableEq, Repr

/-- A message of a context's send FIFO that awaits words (R374): its header and the words still owed. -/
structure OpenMsg where
  header : Word
  owed : Nat
deriving DecidableEq, Repr

/-- A word of a send FIFO (R374). -/
structure SendWord where
  isHeader : Bool
  word : Word
  /-- the translation of an address word (R375) -/
  loc : List Loc
deriving DecidableEq, Repr

/-- How a tile that is staged read-only was loaded (R279). -/
structure RoTile where
  tile : Nat
  /-- the tile that the TLD names: another one, for a tile that holds its scales -/
  load : Nat
  cm : BitVec 2
  pa : Word
  ps : Word
  pq : Word
  tc : Word
  /-- the Compass entry's word read at the call's start, for a bound form -/
  entry : Word
deriving DecidableEq, Repr

/-- A context (R8). -/
structure Ctx where
  g : Vector Word 64 := Vector.replicate 64 0
  p : BitVec 16 := 1
  v : Vector VWord 32 := Vector.replicate 32 0
  k : Vector KWord 8 := (Vector.replicate 8 0).set 0 (BitVec.allOnes 256)
  lr : Word := 0
  pc : BIndex := 0
  ctl : Control := {}
  lat : Latches := {}
  port : Ports := {}
  nregs : Nat := 64
  tiles : BitVec 16 := 0
  accs : BitVec 4 := 0
  snap : List Pend := []
  divBusy : Nat := 0
  xfer : List Transfer := []
  changes : List LoopChange := []
  loops : Vector LoopLevel 4 := Vector.replicate 4 {}
  /-- the position after pc is marked by the nullifier (R28) -/
  nul : Bool := false
  /-- the bundle at pc is a resumed one (R347) -/
  resumed : Bool := false
  laq : List LoadReq := []
  ldq : List LdqEntry := []
  saq : List StoreReq := []
  sdq : List SdqEntry := []
  stFlight : List StoreFlight := []
  /-- bytes of the index block that a vsts at the SAQ head has read: its place in trigger order, place and byte (R121, R122) -/
  scat : Nat × List (Nat × Byte) := (0, [])
  /-- pages that refused a request of a blocked bundle, and whether their fill has failed since (R212, R239, R401) -/
  pages : List (PageId × Bool) := []
  /-- next place in trigger order -/
  seq : Nat := 0
  /-- entries pushed to the SDQ, and claims made (R118) -/
  pushes : Nat := 0
  claims : Nat := 0
  /-- every write-through of the die below this number may have been seen by the context (R209) -/
  wtSeen : Nat := 0
  /-- physical addresses of the exclusive objects that have been granted to the worker and not released by it (R215) -/
  owns : List Nat := []
  /-- of what an ended worker leaves to be done: the number of its context, and whether the worker was killed (R140, R349) -/
  was : Nat := 0
  killed : Bool := false
  cnt : Counters := {}
  storeFault : Option Mark := none
  copyFault : Option Nat := none
  mxnan : Word := 0
  mxnanPend : Bool := false
  sendF : List SendWord := []
  sendOpen : Option OpenMsg := none
  recvF : List Word := []
  recvRes : Nat := 0
  handles : Vector (Option Handle) 4 := Vector.replicate 4 none
  tok : Vector Token 8 := Vector.replicate 8 {}
  chan : Vector Channel 2 := Vector.replicate 2 {}
  /-- grid handles: the physical address of the bound descriptor (R299) -/
  grid : Vector (Option Nat) 4 := Vector.replicate 4 none
  blocks : List LoadBlock := []
  /-- the user handler active, with what it holds of the trapped code -/
  handler : Option Held := none
  tbarReg : Option (Bool × Nat) := none
  /-- the generation of a registered xsettle arrival (R324) -/
  settleReg : Option Nat := none
  awaiting : List Awaiting := []
  blocked : Nat := 0
  /-- a token completed since the bundle first blocked (R134) -/
  tokDone : Bool := false
  hasBlocked : Bool := false
  /-- a RESID store fault has been taken: the held store drains before the trapping bundle executes again (R121) -/
  drainFirst : Bool := false
  yielded : Bool := false
  /-- eret with t[0] = 1: the next bundle issues as never-moves (R346) -/
  asNever : Bool := false
  /-- SSTEP is due before the next bundle (R358) -/
  stepDue : Bool := false
  worker : Option Worker := none
  sys : Option SysEntry := none
  /-- stopped for a debugger (R339) -/
  stopped : Bool := false
  /-- frozen with its VI (R360) -/
  frozen : Bool := false
  /-- a kill requested and not yet delivered, with its completion code (R350, R399) -/
  killReq : Option Nat := none
  /-- pre-emption requested (R351), and reached: the worker is being saved (R352) -/
  preempt : Bool := false
  saving : Bool := false
  /-- fabric responses of the worker still owed (R379) -/
  owed : Nat := 0
  /-- its worker is placed and has not started (R162) -/
  starting : Bool := false
  roTiles : List RoTile := []
deriving DecidableEq, Repr

/-! ## A core -/

/-- Where a byte of a copy's destination goes (R225, R383): a virtual address; an offset from an NVMe side's first byte, from the base of a
group's members, or from their scale base. -/
inductive DstAt where
  | va (a : Int)
  | nvme (o : Nat)
  | base (o : Nat)
  | scale (o : Nat)
deriving DecidableEq, Repr

/-- A piece of a command's writes that has been formed and is still to be performed (R234): the unit it is of, and its bytes. -/
structure OutPiece where
  unit : Nat
  cells : List (DstAt × Byte)
deriving DecidableEq, Repr

/-- Work on a tile whose stamp has been set busy (R242): a tile of a source that is re-encoded, or of a destination; the stamp that was
read; whether its bytes have been formed, the pieces still to be written, and whether one has been. -/
structure TileWork where
  src : Bool
  tile : Nat
  stamp : Nat
  formed : Bool := false
  out : List (List (Int × Byte)) := []
  wrote : Bool := false
  nf : Bool := false
  /-- bytes of it that have been read, a sector at a time (R234) -/
  seen : List (Int × Byte) := []
deriving DecidableEq, Repr

/-- A copy command of a core's queue (R232, R234). -/
inductive CmdPhase where
  | queued | running | firmware | ended
  /-- cancelled, with writes of it in flight (R245) -/
  | aborted
deriving DecidableEq, Repr

/-- A copy command (R225, R232-R234): it holds its place from its trigger to its end. -/
structure CopyCmd where
  id : Nat
  /-- the issuing context, and the number of its worker -/
  ctx : Nat
  uid : Nat
  /-- virtual address of the record, and its 64 bytes: read by its channel, or at its start -/
  rva : Nat
  rcd : BitVec 512 := 0
  /-- the channel it comes from -/
  chan : Option Nat := none
  tok : Option Nat
  phase : CmdPhase := .queued
  /-- place in the issuing context's trigger order -/
  seq : Nat
  /-- its shape records, 0 for a flat side -/
  srcShape : BitVec 512 := 0
  dstShape : BitVec 512 := 0
  /-- Compass words read at the start: the source's and the destination's (R234) -/
  centS : Word := 0
  centD : Word := 0
  /-- what is still to be written: bytes, blocks or tiles of the destination, by number -/
  todo : List Nat := []
  total : Nat := 0
  written : Nat := 0
  nf : Bool := false
  slow : Bool := false
  status : Nat := 0
  wins : List Window
  vi : Nat
  launch : Nat
  /-- packets and contributions whose writes are not yet performed (R385, R387) -/
  owed : Nat := 0
  /-- sectors of its records that have been read: address and bytes (R235) -/
  got : List (Nat × BitVec 256) := []
  /-- bytes of its source that have been read ahead of the unit that needs them (R234) -/
  seen : List (Int × Byte) := []
  /-- pieces formed and not yet written -/
  out : List OutPiece := []
  /-- the tile whose stamp it has set busy (R242) -/
  busy : Option TileWork := none
  /-- bytes written and not yet reported, its barrier object's page being absent (R196, R234) -/
  rpt : Nat := 0
deriving DecidableEq, Repr

/-- A matrix call (R256, R262). -/
inductive CallPhase where
  | queued | waiting | running | suspended | ended
deriving DecidableEq, Repr

/-- A matrix call with its captured parameters and its micro state (R255, R262). -/
structure MatCall where
  id : Nat
  ctx : Nat
  uid : Nat
  tiles : BitVec 16
  accs : BitVec 4
  /-- the t of its mcall -/
  t : Word
  seq : Nat
  phase : CallPhase
  mp : Vector Word 8
  tc : Vector Word 16
  /-- operands' Compass words and the routine's entry, read at the start -/
  ca : Word := 0
  cb : Word := 0
  entry : Word := 0
  need : Nat := 0
  upc : Nat := 0
  lc : Vector Nat 4 := Vector.replicate 4 0
  depth : Vector Nat 4 := Vector.replicate 4 0
  bytes : Nat := 0
  nf : Bool := false
  slow : Bool := false
  /-- the id of the TEAMSYNC that it has reached (R274) -/
  sync : Option Nat := none
  wins : List Window
  vi : Nat
  launch : Nat
  die : Nat
  dieRank : Nat
  /-- sectors of a bound TLD's shape record that have been read: address and bytes (R235, R267) -/
  got : List (Nat × BitVec 256) := []
  /-- the tile whose stamp it has set busy (R242), and those that a fault keeps it from delivering in the TLD it is at (R243) -/
  busy : Option TileWork := none
  lost : List (Nat × Cause) := []
  /-- its worker has ended (R405) -/
  orphan : Bool := false
deriving DecidableEq, Repr

/-- A bank request of the allocator's FIFO (R264): the holding it is for, and its total. -/
structure BankReq where
  uid : Nat
  ctx : Nat
  n : Nat
deriving DecidableEq, Repr

/-- A core. -/
structure Core where
  /-- contexts 0 to 3, and the hidden system context (R348) as number 4 -/
  ctxs : Vector Ctx 5 := Vector.replicate 5 {}
  running : Option Nat := none
  /-- the context that ran last, from which the next is looked for (R131) -/
  last : Nat := 3
  /-- the worker whose bundle issued last, and the worker whose 6 cycles have been paid since (R25) -/
  lastWorker : Option Nat := none
  paid : Option Nat := none
  stall : Nat := 0
  /-- charges of the last 63 cycles, the latest first (R179) -/
  window : List Nat := []
  climEn : Bool := false
  climLim : Nat := 0xFFFF
  /-- what acts in the clk in which CLIM has been written (R180) -/
  climWas : Option (Bool × Nat) := none
  /-- the context whose bundle has issued in a clk (R158) -/
  issued : Option (Nat × Nat) := none
  /-- the CLIM last written by the physical function or firmware (R403) -/
  climSet : Bool × Nat := (false, 0xFFFF)
  fenced : Bool := false
  /-- what ended workers leave to be done: their stores (R140), as contexts numbered from 5 on -/
  ghosts : List Ctx := []
  cmds : List CopyCmd := []
  calls : List MatCall := []
  /-- banks held, as a mask, by the worker whose holding it is (R264, R405) -/
  holds : List (Nat × BitVec 16) := []
  /-- the allocator's FIFO, and what it applies at the end of the cycle: banks released and requests made -/
  bankQ : List BankReq := []
  bankRel : BitVec 16 := 0
  bankNew : List BankReq := []
  /-- microprogram store words that are not zero (R260) -/
  mstore : List (Nat × Word) := []
  /-- routine table entries: shared 0-63, then 64 + 192 * ctx + (idx - 64) (R260) -/
  rtab : List (Nat × Word) := []
  /-- tile bytes by worker: (uid * 16 + tile) * 32768 + byte (R250) -/
  tileB : List (Nat × Byte) := []
  /-- accumulator values by worker: ((uid * 4 + acc) * 64 + row) * 64 + column (R253) -/
  accW : List (Nat × BitVec 32) := []
  /-- messages that its network port has sent (R364) -/
  sent : Nat := 0
deriving DecidableEq, Repr

/-! ## A die -/

/-- A line of a remote-data cache (R193): its number (address / 128), valid bit per sector, dirty bit per 4-byte word, and the
bytes of its valid sectors. -/
structure RdcLine where
  line : Nat
  valid : BitVec 4
  dirty : BitVec 32
  data : List (Nat × Byte)
deriving DecidableEq, Repr

/-- A write-through sent home (R193, R205): by which worker and at which place of its trigger order, its number among those of its die,
and whether the own Bivouac die has accepted bytes of another module (R204). -/
structure WriteThrough where
  core : Nat
  ctx : Nat
  uid : Nat := 0
  seq : Nat
  id : Nat := 0
  bivouac : Bool := false
  cells : List (Nat × Byte)
deriving DecidableEq, Repr

/-- Bytes of another module that the own Bivouac die has accepted and their home has not (R204): the die and the number of their
write-through. -/
structure Accepted where
  die : Nat
  id : Nat
  cells : List (Nat × Byte)
deriving DecidableEq, Repr

/-- A finish-scope entry (R144). -/
structure Scope where
  valid : Bool := false
  /-- taken by an fso whose parent's die has not answered (R146) -/
  reserved : Bool := false
  gen : BitVec 4 := 0
  pending : Nat := 0
  isOpen : Bool := false
  parent : BitVec 16 := 0x0800
  owner : Nat × Nat := (0, 0)
  /-- the worker that opened it, whose progress a decrement is wherever it stands (R174) -/
  uid : Nat := 0
deriving DecidableEq, Repr

/-- The states of a frame (R199). -/
inductive FrameState where
  | free | filling | resident | claimed | pinned
deriving DecidableEq, Repr

/-- A frame that is not FREE (R199). -/
structure Frame where
  state : FrameState
  page : PageId
  dirty : Bool
  ro : Bool
  pins : Nat
deriving DecidableEq, Repr

/-- A fill a pager owes (R196, R199). -/
structure FillReq where
  page : PageId
  ro : Bool
deriving DecidableEq, Repr

/-- A bound grid object of a Guyline engine (R299-R308). -/
structure GridObj where
  /-- global physical address of the descriptor -/
  desc : Nat
  /-- the worker that bound it, its core, and the handle -/
  uid : Nat
  core : Nat
  handle : Nat
  /-- unbound once its work is done: its worker has ended (R306) -/
  closing : Bool
  launch : Nat
  /-- the descriptor as read at gbind -/
  raw : BitVec 1024
  wins : List Window
  /-- tags of regions 0-26; none: 0xFFFF_FFFF -/
  tags : List (Option Nat)
  own : Option Nat
  sent : Option Nat
  mismatched : Bool
  timedOut : Bool
  /-- work of published steps not yet done: (step, region) slab reads and local fills, in ascending step -/
  slabs : List (Nat × Nat)
  fills : List (Nat × Nat)
  /-- accesses the reads of a step wait for: (step, place in trigger order of its gstep) -/
  gates : List (Nat × Nat)
  /-- bytes of a slab that have been read ahead of its sending: its step and region, address and byte (R307) -/
  seen : List ((Nat × Nat) × Int × Byte) := []
deriving DecidableEq, Repr

/-- A slab on its way to a receiving region (R307): receiver's descriptor address, region, tag, and what it carries. -/
structure Slab where
  /-- the die that sends it -/
  src : Nat := 0
  dest : Nat
  region : Nat
  step : Nat
  fmt : BitVec 7
  bs : Bool
  bsz : BitVec 2
  gw : Nat
  d : Nat
  elems : List Nat
  scales : List Nat
  /-- all of it has come, where it comes from another module (R380) -/
  whole : Bool := true
deriving DecidableEq, Repr

/-- A channel queue of a pipeline (R152). -/
structure QEntry where
  vec : Bool
  len : Nat
  pair : BitVec 14
  data : VWord
  /-- the clk of its push, and whether the 16 clk that make it poppable have passed (R152) -/
  since : Nat := 0
  visible : Bool
deriving DecidableEq, Repr

/-- A channel queue (R151-R156): `gone` holds the clk of each pop whose slot producers do not yet see free, the oldest first (R152). -/
structure ChanQueue where
  src : Nat
  dst : Nat
  depth : Nat
  pair : BitVec 14
  entries : List QEntry
  gone : List Nat
  closed : Bool
deriving DecidableEq, Repr

/-- A pipeline of a die (R151, R158-R160). -/
structure Pipeline where
  id : Nat
  launch : Nat
  die : Nat
  start : Nat
  ivexp : Nat
  hw : Nat
  lw : Nat
  queues : List ChanQueue
  /-- stage records, cores of each stage (module core numbers), blocked counts Bs, ended flags -/
  recs : List LoopRec
  cores : List (List Nat)
  blocked : List Nat
  /-- the clk of the last interval's end that has been measured -/
  measured : Nat := 0
deriving DecidableEq, Repr

/-- One block of a walk (R326, R328): the number of its record, its expert, and its core of the module once its batch has begun. -/
structure WalkBlock where
  idx : Nat
  expert : Nat
  core : Nat := 0
  /-- requeued at the end of a fill: pinned already (R330) -/
  requeued : Bool := false
  /-- the clk at which it found the waiter pool empty (R330) -/
  since : Nat := 0
deriving DecidableEq, Repr

/-- A block walk (R328-R330). -/
structure Walk where
  id : Nat
  die : Nat
  /-- virtual address of the topology header, and what translates it: the emitting context's core, launch and windows -/
  header : Nat
  launch : Nat
  wins : List Window
  emitter : Nat
  rcd : LoopRec
  scope : BitVec 16
  nrec : Nat
  done : Nat := 0
  /-- the records' first 128 bits as emitted (R332) -/
  emitted : List (BitVec 128)
  /-- blocks not yet in a batch, in dispatch order -/
  rest : List WalkBlock
  /-- blocks of the batch still to dispatch, in order -/
  order : List WalkBlock := []
  /-- blocks of the batch parked on waiter lists, and those that found the pool empty (R330) -/
  parked : List WalkBlock := []
  noNode : List WalkBlock := []
  /-- blocks of the batch dispatched and not retired -/
  active : Nat := 0
  /-- blocks parked so far (R325) -/
  npark : Nat := 0
  /-- the number of its batches, the clk of the next dispatch slot, and dispatches that have not arrived (R328, R329) -/
  batch : Nat := 0
  slot : Nat := 0
  arriving : List WalkBlock := []
  /-- tokens of each expert (R173) -/
  counts : List (Nat × Nat)
deriving DecidableEq, Repr

/-- A die. -/
structure Die where
  rdc : List RdcLine := []
  /-- write-throughs that home has not acknowledged, and the number of the next (R193, R205) -/
  wt : List WriteThrough := []
  wtNext : Nat := 0
  /-- writes that home has accepted and that an expander has not completed (R204) -/
  exp : List WriteThrough := []
  scopes : List (Nat × Scope) := []
  dseed : Word := 0
  frames : List (Nat × Frame) := []
  /-- first-touch bindings held by this die as a directory: page and bound die (R198) -/
  binds : List (PageId × Nat) := []
  /-- pages that this die as a directory has bound in the present clk (R198) -/
  fresh : List PageId := []
  fillQ : List FillReq := []
  eccCount : Nat := 0
  grids : List GridObj := []
deriving DecidableEq, Repr

/-- A request on its way to a scope's table on another die (R146-R148): its number, who waits for the answer, and whether it closes
the scope or counts it up. -/
structure ScopeReq where
  rid : Nat
  uid : Nat
  unit : Unit10
  id : BitVec 16
  close : Bool
deriving DecidableEq, Repr

/-- An arrival at a module team's barrier on its way (R143). -/
structure TeamMsg where
  launch : Nat
  uid : Nat
deriving DecidableEq, Repr

/-- What the program loader knows of a kernel beside its record (R45, R64): the window table and the first bundle that name it, and
the 64 bytes of its loop table. The spec does not say where a kernel's loop table lies or how a launch finds it: the model looks it up
among the kernels that software has loaded, by these two fields of the record (log 46). -/
structure KernelInfo where
  wtab : Nat
  kernel : BIndex
  ltab : BitVec 512 := 0
  /-- its routines: words of the context's region by number, and table entries 64 to 255 (R260, R261) -/
  store : List (Nat × Word) := []
  table : List (Nat × Word) := []
deriving DecidableEq, Repr

/-- A request that a home holds until it can grant it (R211): its object, and the worker that asks. -/
structure HomeWaiter where
  pa : Nat
  uid : Nat
deriving DecidableEq, Repr

/-! ## The module -/

/-- The body segment of a host launch (R398). -/
inductive Body where
  /-- taken as read -/
  | taken
  /-- host address, reads made so far, clk of the last read (R398) -/
  | pending (addr : Nat) (reads : Nat) (last : Nat)
deriving DecidableEq, Repr

/-- A team's barrier (R142, R143): its members and the arrivals at its generation, by worker number, and for a module team the
generation that each die has been told. -/
structure Team where
  /-- none: the module team -/
  die : Option Nat
  gen : Nat := 0
  members : List Nat
  arrived : List Nat := []
  views : List (Nat × Nat) := []
deriving DecidableEq, Repr

/-- A launch: queued, or running (R161, R140). -/
structure Launch where
  id : Nat
  vi : Nat
  queue : Nat
  /-- the record as far as it has been read: the four fields a spawn keeps, then all (R148) -/
  rcd : LoopRec
  /-- its 64 bytes, once the launch has reached the head of its queue or its body has been taken -/
  taken : Bool
  charge : Nat := 0
  scope : BitVec 16
  body : Body := .taken
  fromHost : Bool := false
  seq : BitVec 32 := 0
  cookie : Word := 0
  irq : Bool := false
  vec : BitVec 4 := 0
  /-- virtual address of a device-made launch's record, or of a walk's topology header, and the table that translates it -/
  recVa : Nat := 0
  sWins : List Window := []
  sCore : Nat := 0
  sLaunch : Nat := 0
  /-- SSEED as read at its dispatch, and STEP of its workers (R13, R359) -/
  sseed : Word := 1
  step : BitVec 2 := 0
  /-- the workers that have not ended -/
  workers : List Nat := []
  teams : List Team := []
  /-- xsettle: arrivals, tokens dropped in the open round, and the count the last completed round delivers (R324) -/
  settle : Team := { die := none, members := [] }
  dropped : Nat := 0
  settled : Nat := 0
  /-- completion code once killed: 1, or 2 by a fence (R399) -/
  killed : Nat := 0
  /-- the saved workers a resume entry restores (R169) -/
  resume : List Nat := []
  /-- the order of dispatch (R168) -/
  order : Nat := 0
  /-- a pre-emption of it is under way (R351) -/
  preempting : Bool := false
  /-- at the head of its queue: it has passed the checks of R170, and the launch whose pre-emption was requested for it (R168) -/
  checked : Bool := false
  asked : Option Nat := none
  /-- its pipeline as declared by its table (R151), and the cores of each stage -/
  pipe : Option (Pipeline × List Nat) := none
  walk : Option Nat := none
deriving DecidableEq, Repr

/-- The watchdog's states (R176). -/
inductive WdState where
  | idle | run | susp | pre | kill | fence
deriving DecidableEq, Repr

/-- A queue's watchdog (R176, R177). -/
structure Watchdog where
  l1 : Nat := 10000
  l2 : Nat := 100000
  l3 : Nat := 1000000
  state : WdState := .idle
  /-- the count, in clk -/
  count : Nat := 0
  /-- the limits compared in the clk in which others have been written (R177) -/
  was : Option (Nat × Nat × Nat) := none
deriving DecidableEq, Repr

/-- A virtual interface (R394-R400). -/
structure VI where
  en : Bool := false
  debug : Bool := false
  frozen : Bool := false
  vcause : BitVec 8 := 0
  resetting : Bool := false
  lseq : BitVec 32 := 0
  cseq : BitVec 32 := 0
  eseq : BitVec 32 := 0
  elbase : Word := 0
  elsize : BitVec 5 := 0
  wd : List (Nat × Watchdog) := []
  crange : Nat × Nat := (0, 0)
  lrange : Nat × Nat := (0, 0)
  /-- SPOOL: first slot's address / 4096, and number of slots (R353) -/
  spool : Nat × Nat := (0, 0)
  sseed : Word := 1
  part : List (Nat × BitVec 128) := []
  /-- accepted sequence numbers whose final event is logged, above CSEQ -/
  finals : List (BitVec 32) := []
deriving DecidableEq, Repr

/-- A Compass entry (R282, R285, R286). -/
structure CompassEntry where
  word : Word := 0x00000000_00000102#64
  sv : BitVec 64 := 0
  sm : BitVec 64 := 0
  q : BitVec 64 := 0
  ec : BitVec 64 := 0
  en : BitVec 64 := 0
  pr : BitVec 64 := 0
  n : Nat := 0
  b : BitVec 32 := 0
  /-- the last epoch's rho, eps_c, eps_n, P; none: absent -/
  rho : Option (BitVec 32) := none
  lec : Option (BitVec 32) := none
  len : Option (BitVec 32) := none
  lp : Option (BitVec 32) := none
deriving DecidableEq, Repr

/-- What a sampled block contributes (R285): the sums, the next-narrower format's where there is one, the largest magnitude, and the
block size where R81 allows the format. -/
structure Sample where
  q : XR
  ec : XR
  en : Option XR
  mx : XR
  b : Option Nat
deriving DecidableEq, Repr

/-- A request or contribution waiting for Compass to accept it (R285, R288, R292). -/
inductive CompassReq where
  /-- command, entry, version tag -/
  | sample (cmd entry : Nat) (ver : BitVec 32) (s : Sample)
  /-- number of the request, asking worker, its virtual interface, t -/
  | epoch (rid uid vi : Nat) (t : Word)
  | pin (rid uid vi : Nat) (t : Word)
deriving DecidableEq, Repr

/-! ## Groups (R382-R388) -/

/-- A group entry with the number of its writes (R382, R388). -/
structure Group where
  raw : BitVec 256 := 0
  gen : Nat := 0
deriving DecidableEq, Repr

/-- A packet of a multicast command, or the result of a reduction unit, on its way to the members (R385, R386): bytes by offset from
the base and from the scale base, and once latched the entry and the members still to be written. -/
structure Packet where
  /-- the commands that wait for it -/
  cmds : List Nat
  group : Nat
  cells : List (Nat × Byte)
  scales : List (Nat × Byte)
  latched : Option Group
  left : List Nat
  /-- the reduction unit whose storage is freed when all is written -/
  unit : Option Nat := none
deriving DecidableEq, Repr

/-- A contribution to a reduction unit (R386): its id, its place in issue order, and its elements. -/
structure Contribution where
  cmd : Nat
  id : Nat
  order : Nat
  group : Nat
  gop : Nat
  offset : Nat
  data : List Byte
  scale : Byte
  /-- refused for want of storage: it may be sent again from a clk on (R387) -/
  refused : Bool := false
  retryAt : Nat := 0
  /-- it has left for the root in another module (R363, R386) -/
  away : Bool := false
deriving DecidableEq, Repr

/-- A unit in the root's reduction storage. -/
structure RedUnit where
  id : Nat
  group : Nat
  gop : Nat
  offset : Nat
  latched : Group
  got : List Contribution
  /-- combined: its result is on its way to the members -/
  combined : Bool := false
deriving DecidableEq, Repr

/-- An update of a barrier object in the current cycle (R240): bini's count, an addition to pending bytes, an arrival, or err set. -/
inductive BarOp where
  | init (n : Nat)
  | bytes (n : Int)
  | arrive
  | err
deriving DecidableEq, Repr

/-- A routing proposal (R321): its token, rank, score, expert and record, and the round of the launch that it belongs to. -/
structure Proposal where
  token : Nat
  rank : Nat
  score : BitVec 32
  expert : Nat
  /-- physical address of its choice record -/
  rcd : Nat
  vi : Nat
  launch : Nat
  round : Nat
deriving DecidableEq, Repr

/-- A waiter node of the Larder's pool that is linked to an entry's list (R330): its number, the walk and the record. -/
structure Waiter where
  node : Nat
  walk : Nat
  idx : Nat
deriving DecidableEq, Repr

/-- A Larder entry (R315). A pinned entry is one of state 2 with pins above 0. -/
structure Expert where
  src : Nat := 0
  nvme : Bool := false
  res : Nat := 0
  size : Nat := 0
  cap : Nat := 0
  home : Nat := 0
  hoff : Nat := 0
  last : BitVec 32 := 0
  /-- 16 bits: a sum keeps its low bits (R5) -/
  pins : Nat := 0
  /-- waiter list, oldest first (R330) -/
  waiters : List Waiter := []
  err : Bool := false
  valid : Bool := false
  state : Nat := 0
  /-- a fill's place in the order of requests, whether it copies, and whether it has failed once (R317) -/
  reqOrder : Nat := 0
  copying : Bool := false
  failed : Bool := false
  /-- pins that xpref raises when the entry becomes resident (R331) -/
  prefPins : Nat := 0
  /-- the heap's proposals (R322), and their number at the last xsettle completion (R332) -/
  heap : List Proposal := []
  settledSize : Nat := 0
deriving DecidableEq, Repr

/-- What the agents' own steps are about (log 1): which core, context, die, virtual interface or item acts. -/
structure Focus where
  c : Nat := 0
  x : Nat := 0
  d : Nat := 0
  v : Nat := 0
  i : Nat := 0
  k : Nat := 0
  o : Nat := 0
  w : BitVec 512 := 0
deriving DecidableEq, Repr

/-- One entry of the agenda (log 1): an agent's step, what it is about, and the clk that pass before it. -/
structure Act where
  after : Nat
  instr : Instr
  focus : Focus
deriving DecidableEq, Repr

/-- An image slot of a VI (R351, R353): reserved for a worker, and the worker's state once saved (R354). -/
structure Image where
  uid : Nat
  vi : Nat
  slot : Nat
  /-- the core and context it was placed on when the request was made -/
  core : Nat
  x : Nat
  /-- the worker: what the image in memory does not hold in a layout that the spec states (R354, log 32) -/
  saved : Option Ctx
  calls : List MatCall
  /-- words in the spill area, and room reserved there for replies still owed (R357) -/
  spill : List Word
  owed : Nat
  /-- its restore has read it (R356); the recorded TLDs that have been repeated since, and the one that is being repeated (R279) -/
  begun : Bool := false
  reloaded : Nat := 0
  loading : Option MatCall := none
  /-- its worker has been restored, and has not issued a bundle since: arrivals go to the spill area still (R357) -/
  fresh : Bool := false
deriving DecidableEq, Repr

/-- A message of the fabric (R372-R379): a request or message of a context, and later its response. -/
structure FabricMsg where
  id : Nat
  /-- the sender -/
  uid : Nat
  vi : Nat
  core : Nat
  ctx : Nat
  header : Word
  words : List Word
  /-- where the bytes of its access lie -/
  locs : List Loc
  /-- response words reserved -/
  room : Nat
  /-- the response, once it has been performed, delivered or refused -/
  resp : Option (List Word) := none
  /-- message number at the source unit (R364) -/
  mid : Nat := 0
  /-- the module of a sender in another module; none: this one -/
  away : Option Nat := none
  /-- the image slot to which the port has forwarded it (R357) -/
  fwd : Option Nat := none
deriving DecidableEq, Repr

/-- A flit (R364): the route field, but for what its ring gives; the payload words; the model's number of the message or item that it is of;
and its place on the ring it rides, as long as it has one: the stations at which it enters and leaves that ring, its lane and the slot of the
lane (R362), the ring cycle in which a station last looked at it, and whether its station counts it in U (R369). -/
structure Flit where
  msg : Nat
  src : Nat
  dst : Nat
  reply : Bool
  tier : Nat
  /-- counter-clockwise -/
  dir : Bool
  seq : Nat
  head : Bool
  tail : Bool
  lap : Bool := false
  esc : Bool := false
  lane : Nat := 0
  words : List Word
  smod : Nat := 0
  ssta : Nat := 0
  sunit : Nat := 0x3FF
  mid : Nat := 0
  dmod : Nat := 0
  dsta : Nat := 0
  dunit : Nat := 0x3FF
  dctx : Nat := 0
  slot : Nat := 0xFFFF
  place : Nat := 0
  seen : Option Nat := none
  counted : Bool := false
deriving DecidableEq, Repr

/-- An escape entry in use (R368): of a direction, reserved for a flit, or holding it. -/
structure EscEntry where
  dir : Bool
  flit : Flit
  held : Bool := false
deriving DecidableEq, Repr

/-- A station of the package ring, or, numbered 9, the module's station of the rack ring (R361, R367-R369): what waits to be injected, by
direction and tier, the starvation counters, the escape entries in use, U, the ring cycle in which it last gave slots, by direction, and the
messages that its functions have sent (R364). -/
structure Station where
  queue : List Flit := []
  /-- counters of tiers 1 and 2, clockwise and counter-clockwise -/
  ctr : List (Nat × Nat) := [(0, 0), (0, 0)]
  esc : List EscEntry := []
  u : Nat := 0
  ran : List (Option Nat) := [none, none]
  sent : Nat := 0
deriving DecidableEq, Repr

/-- A message of another module's context of which flits have come over the rack ring (R364, R378): the route fields of its first flit, and
the words so far. -/
structure Inbound where
  first : Flit
  words : List Word
deriving DecidableEq, Repr

/-- An Ultra Ethernet command queue (R402), and how far the device has taken its entries. -/
structure UeQueue where
  base : Word := 0
  size : Nat := 0
  prod : Nat := 0
  cons : Nat := 0
deriving DecidableEq, Repr

/-- A started entry of an Ultra Ethernet command queue (R381, R402). -/
structure UeOp where
  vi : Nat
  /-- 0 read, 1 write, 2 tagged send -/
  op : Nat
  addr : Nat
  len : Nat
  obj : Nat
  want : BitVec 32
  /-- the peer's address (R402) -/
  peer : BitVec 64 := 0
  done : Nat := 0
  /-- of an outbound one: the acquire of its object is satisfied (R381) -/
  acq : Bool := false
deriving DecidableEq, Repr

/-- The ring control register RCTL (R363). -/
structure Rctl where
  s1 : BitVec 16 := 64
  s2 : BitVec 16 := 64
  up : Bool := false
  nmod : BitVec 6 := 0
  mod : BitVec 6 := 0
deriving DecidableEq, Repr

/-- The state of a module and of the memory its rack ring addresses. -/
structure State where
  mem : List Host.Cell := []
  cores : List (Nat × Core) := []
  dies : List (Nat × Die) := []
  clk : Nat := 0
  agenda : List Act := []
  focus : Focus := {}
  freeCtr : Nat := 0
  down : Bool := false
  rctl : Rctl := {}
  /-- RCTL as written, and the ring cycle of the write: it takes effect at the next (R363) -/
  rctlNext : Option (Nat × Rctl) := none
  hostMem : List Host.Cell := []
  /-- the next number given to a launch, a worker, a walk or a pipeline -/
  nextId : Nat := 1
  launchQ : List (Nat × List Launch) := []
  launches : List Launch := []
  vis : List (Nat × VI) := []
  images : List Image := []
  pipes : List Pipeline := []
  walks : List Walk := []
  /-- the Compass table; a change reaches every die's copy in the step that makes it (R281, R288) -/
  compass : List (Nat × CompassEntry) := []
  compassQ : List CompassReq := []
  /-- ladder registers written since reset (R283) -/
  ladders : List (Nat × Word) := []
  groups : List (Nat × Group) := []
  packets : List Packet := []
  contribs : List Contribution := []
  redUnits : List RedUnit := []
  /-- updates of barrier objects in the current cycle, by physical address (R240) -/
  barNow : List (Nat × BarOp) := []
  larder : List (Nat × Expert) := []
  /-- waiter nodes of the module's pool that are taken (R330) -/
  nodesUsed : Nat := 0
  /-- proposals in flight (R321) -/
  proposals : List Proposal := []
  /-- decrements on their way to a scope (R150) -/
  scopeDecs : List (BitVec 16) := []
  /-- charges on their way to the lead die of a launch (R172) -/
  energyMsgs : List (Nat × Nat) := []
  /-- interrupts raised: virtual interface and vector (R399, R401) -/
  irqs : List (Nat × Nat) := []
  /-- the up bits of the other modules' RCTL (R363) -/
  peersUp : BitVec 64 := 0
  /-- bytes of the NVMe namespaces that are not zero, by port, namespace and byte (R401) -/
  nvmeMem : List Host.Cell := []
  /-- the backing-slot table (R401) -/
  slots : List (Nat × BitVec 128) := []
  /-- the temperature of the hottest die, in 1/16 degree (R403) -/
  temp : BitVec 16 := 0
  scopeReqs : List ScopeReq := []
  teamMsgs : List TeamMsg := []
  kernels : List KernelInfo := []
  /-- slabs read and on their way (R307) -/
  slabs : List Slab := []
  /-- requests held at homes, oldest first (R211) -/
  waiters : List HomeWaiter := []
  /-- bytes whose uncorrectable error is there to be met, and bytes with a single-bit error (R202) -/
  badEcc : List Nat := []
  softEcc : List Nat := []
  /-- messages of the fabric under way (R372), the stations of the package ring, and the flits in its slots (R361-R369) -/
  fabric : List FabricMsg := []
  stations : List (Nat × Station) := []
  flits : List Flit := []
  inbound : List Inbound := []
  /-- Ultra Ethernet command queues by virtual interface, and their started entries (R402) -/
  ueq : List (Nat × UeQueue) := []
  /-- bytes of other modules at the own Bivouac die, in the order of acceptance (R204) -/
  accepted : List Accepted := []
  /-- bytes that engines have written to pages that are not resident (R196) -/
  owedWrites : List OwedWrite := []
  ueOps : List UeOp := []
  /-- what has left by the Ultra Ethernet ports: interface, address and bytes (R381) -/
  ueSent : List (Nat × BitVec 64 × Nat × List Byte) := []
deriving DecidableEq, Repr

/-- The module right after reset: every field at the value that INVENTORY.md gives for reset. No core holds a worker, memory lists
nothing, and the registers hold what the spec states or log 3 names. -/
def State.reset : State := {}

end Sys2Proof.Machine
end

