-- ==== Sys2Proof/Machine/Ops.lean ====
section
/-!
DEFINITION. The named operations over the state: sparse tables, memory in canonical form (R3, R182), cores, contexts and dies,
the switch and the snapshot (R24, R25), and taking a trap and returning from one (R339-R346, 20).
-/

namespace Sys2Proof.Machine

/-! ## Sparse tables -/

/-- The entry at a key of a table sorted by key; d where nothing is listed. -/
def tget {α : Type} (d : α) (t : List (Nat × α)) (i : Nat) : α := (t.lookup i).getD d

/-- Replaces the entry at a key. -/
def tset {α : Type} (t : List (Nat × α)) (i : Nat) (a : α) : List (Nat × α) :=
  t.filter (fun p => p.1 < i) ++ (i, a) :: t.filter (fun p => i < p.1)

/-- The element of a vector at a number, d past its end. -/
def vget {α : Type} {n : Nat} (v : Vector α n) (i : Nat) (d : α) : α := v[i]?.getD d

/-- Replaces the element of a vector at a number; nothing past its end. -/
def vset {α : Type} {n : Nat} (v : Vector α n) (i : Nat) (a : α) : Vector α n := v.setIfInBounds i a

/-- Replaces the element of a list at a number by f of it. -/
def lmod {α : Type} (l : List α) (i : Nat) (f : α → α) : List α := l.modify i f

/-! ## Memory -/

/-- The number whose little-endian bytes are given (R3). -/
def bytesNat : List Byte → Nat
  | [] => 0
  | b :: bs => b.toNat + 256 * bytesNat bs

/-- The n little-endian bytes of a number (R3). -/
def natBytes : Nat → Nat → List Byte
  | 0, _ => []
  | n + 1, v => BitVec.ofNat 8 v :: natBytes n (v / 256)

/-- What a byte of memory that is not listed reads as (log 2). -/
def memZero : Byte := 0

/-- The canonical form of memory: addresses strictly rising, and no byte listed that reads as an unlisted one does. -/
abbrev Memory.wf (m : List Host.Cell) : Prop := m.Pairwise (fun p q => p.1 < q.1) ∧ ∀ p ∈ m, p.2 ≠ memZero

/-- The byte at an address. -/
def memGet (m : List Host.Cell) (a : Nat) : Byte := (m.lookup a).getD memZero

/-- The cells of bytes placed from an address on, but those that read as an unlisted byte does. -/
def cellsOf (a : Nat) : List Byte → List Host.Cell
  | [] => []
  | b :: bs => if b = memZero then cellsOf (a + 1) bs else (a, b) :: cellsOf (a + 1) bs

/-- Writes bytes from an address on, keeping the canonical form. -/
def memWrite (m : List Host.Cell) (a : Nat) (bs : List Byte) : List Host.Cell :=
  m.filter (fun p => p.1 < a) ++ cellsOf a bs ++ m.filter (fun p => a + bs.length ≤ p.1)

/-- Writes one byte. -/
def memSet (m : List Host.Cell) (a : Nat) (b : Byte) : List Host.Cell := memWrite m a [b]

/-- Writes bytes at scattered addresses, in order. -/
def memPut (m : List Host.Cell) (l : List (Nat × Byte)) : List Host.Cell := l.foldl (fun m p => memSet m p.1 p.2) m

/-- The n bytes from an address on. -/
def memRead (m : List Host.Cell) (a n : Nat) : List Byte := (List.range n).map fun i => memGet m (a + i)

/-- The n-byte little-endian number at an address (R3). -/
def memNat (m : List Host.Cell) (a n : Nat) : Nat := bytesNat (memRead m a n)

/-- Sets each byte of a run to zero. -/
def memClear (m : List Host.Cell) (a n : Nat) : List Host.Cell := m.filter fun p => p.1 < a || a + n ≤ p.1

/-! ## Cores, contexts, dies -/

/-- A core. -/
def State.core (s : State) (c : Nat) : Core := tget {} s.cores c

/-- Replaces a core. -/
def State.setCore (s : State) (c : Nat) (k : Core) : State := { s with cores := tset s.cores c k }

/-- Changes a core. -/
def State.updCore (s : State) (c : Nat) (f : Core → Core) : State := s.setCore c (f (s.core c))

/-- A context of a core: 0 to 3, 4 the system context, and from 5 on what ended workers left to be done (R140). -/
def Core.ctx (k : Core) (x : Nat) : Ctx := if x < 5 then vget k.ctxs x {} else k.ghosts.getD (x - 5) {}

/-- Replaces a context of a core. -/
def Core.setCtx (k : Core) (x : Nat) (t : Ctx) : Core :=
  if x < 5 then { k with ctxs := vset k.ctxs x t } else { k with ghosts := k.ghosts.set (x - 5) t }

/-- A context. -/
def State.ctx (s : State) (c x : Nat) : Ctx := (s.core c).ctx x

/-- Replaces a context. -/
def State.setCtx (s : State) (c x : Nat) (t : Ctx) : State := s.updCore c fun k => k.setCtx x t

/-- Changes a context. -/
def State.updCtx (s : State) (c x : Nat) (f : Ctx → Ctx) : State := s.setCtx c x (f (s.ctx c x))

/-- The state of a die that nothing has touched: DSEED is die + 1 (R165). -/
def Die.init (d : Nat) : Die := { dseed := BitVec.ofNat 64 (d + 1) }

/-- A die. -/
def State.die (s : State) (d : Nat) : Die := tget (Die.init d) s.dies d

/-- Replaces a die. -/
def State.setDie (s : State) (d : Nat) (k : Die) : State := { s with dies := tset s.dies d k }

/-- Changes a die. -/
def State.updDie (s : State) (d : Nat) (f : Die → Die) : State := s.setDie d (f (s.die d))

/-- The die of a module core number (R1). -/
def dieOf (c : Nat) : Nat := c / 128

/-! ## Control registers -/

/-- CTXINFO of a context (R12). -/
def Ctx.info (t : Ctx) (c x : Nat) : Word :=
  BitVec.ofNat 64 (c * 2 ^ 32 + x * 2 ^ 30 + t.nregs * 2 ^ 23 + t.tiles.toNat * 16 + t.accs.toNat)

/-- A control register as ctlr reads it (R12, R14). -/
def Ctx.ctlRead (t : Ctx) (c x idx : Nat) : Word :=
  match idx with
  | 0x00 => t.ctl.vfmt.zeroExtend 64
  | 0x01 => t.ctl.rm.zeroExtend 64
  | 0x02 => t.ctl.ldqf.zeroExtend 64
  | 0x03 => t.ctl.nfs.zeroExtend 64
  | 0x04 => t.ctl.slim
  | 0x05 => t.ctl.spreg.zeroExtend 64
  | 0x06 => t.ctl.utvec.zeroExtend 64
  | 0x07 => t.ctl.nullen.zeroExtend 64
  | 0x08 => t.ctl.swt.zeroExtend 64
  | 0x09 => t.ctl.step.zeroExtend 64
  | 0x0A => t.info c x
  | 0x0B => t.ctl.seed
  | 0x0C => t.ctl.limcnt.zeroExtend 64
  | _ => 0

/-- A code VFMT accepts: every assigned one but f64 (R70). -/
def vfmtOk (c : FmtCode) : Bool := fmtAssigned c && c != fmtF64

/-- A control register written by ctlw: masked to its fields, W1C for NFS, nothing for an RO or unassigned one (R12, R14), and
nothing for a format or a pair that is not accepted (R70). -/
def Control.write (k : Control) (idx : Nat) (w : Word) : Control :=
  match idx with
  | 0x00 => if vfmtOk (w.truncate 7) then { k with vfmt := w.truncate 7 } else k
  | 0x01 => { k with rm := w.truncate 2 }
  | 0x02 =>
    let p : BitVec 14 := w.truncate 14
    if pairValid (pairSrc p) (pairSnk p) then { k with ldqf := p } else k
  | 0x03 => { k with nfs := k.nfs &&& ~~~(w.truncate 2) }
  | 0x04 => { k with slim := w }
  | 0x05 => { k with spreg := w.truncate 6 }
  | 0x06 => { k with utvec := w.truncate 48 }
  | 0x07 => { k with nullen := w.truncate 1 }
  | 0x08 => { k with swt := w.truncate 16 }
  | 0x0B => { k with seed := w }
  | _ => k

/-! ## Result ports -/

/-- A result port's value, zero-extended to the widest port (R19, R34). -/
def Ports.get (p : Ports) : ResPort → VWord
  | .ia u => (p.ia[u.toNat]).zeroExtend 2048
  | .im => p.im.zeroExtend 2048
  | .fa => p.fa.zeroExtend 2048
  | .vuV u => p.vuV[u.toNat]
  | .vuS u => (p.vuS[u.toNat]).zeroExtend 2048
  | .vuM u => (p.vuM[u.toNat]).zeroExtend 2048
  | .qu => p.qu.zeroExtend 2048
  | .ce => p.ce.zeroExtend 2048
  | .mx => p.mx.zeroExtend 2048
  | .sy => p.sy.zeroExtend 2048
  | .xu => p.xu.zeroExtend 2048

/-- Delivers a value to a result port, cut to its width (R11, R19). -/
def Ports.put (p : Ports) (r : ResPort) (w : VWord) : Ports :=
  match r with
  | .ia u => { p with ia := p.ia.set u.toNat (w.truncate 64) }
  | .im => { p with im := w.truncate 64 }
  | .fa => { p with fa := w.truncate 64 }
  | .vuV u => { p with vuV := p.vuV.set u.toNat w }
  | .vuS u => { p with vuS := p.vuS.set u.toNat (w.truncate 64) }
  | .vuM u => { p with vuM := p.vuM.set u.toNat (w.truncate 256) }
  | .qu => { p with qu := w.truncate 64 }
  | .ce => { p with ce := w.truncate 64 }
  | .mx => { p with mx := w.truncate 64 }
  | .sy => { p with sy := w.truncate 64 }
  | .xu => { p with xu := w.truncate 64 }

/-- The results whose last issue cycle has passed are delivered, oldest trigger first so that the later stays, and their flags are
set (R19, R20, R56); the others wait. -/
def deliver (p : Ports) (nfs : BitVec 2) : List Pend → Ports × BitVec 2 × List Pend
  | [] => (p, nfs, [])
  | e :: es =>
    if e.left = 0 then deliver (p.put e.port e.val) (nfs ||| e.flags) es
    else
      let (p', n', l) := deliver p nfs es
      (p', n', e :: l)

/-- The deliveries due at the end of a context's last issue cycle (R19). -/
def Ctx.deliverDue (t : Ctx) : Ctx :=
  let (port, nfs, snap) := deliver t.port t.ctl.nfs t.snap
  { t with port := port, snap := snap, ctl := { t.ctl with nfs := nfs } }

/-- One issue cycle passes for the outstanding results (R16, R23). -/
def countDown (l : List Pend) : List Pend := l.map fun e => { e with left := e.left - 1 }

/-! ## Traps -/

/-- A cause's code (R339). -/
def Cause.code : Cause → Nat
  | .illsrc => 1
  | .illdst => 2
  | .bundle => 3
  | .regbound => 4
  | .unitbusy => 5
  | .stack => 6
  | .window => 7
  | .perm => 8
  | .resid => 9
  | .qkind => 10
  | .record => 11
  | .mxnan => 12
  | .stalehalo => 13
  | .brk => 14
  | .sstep => 15
  | .wdog => 16
  | .eccu => 17
  | .priv => 18

/-- The user-class causes (R339). -/
def Cause.isUser : Cause → Bool
  | .regbound | .stack | .mxnan | .stalehalo | .brk => true
  | _ => false

/-- A trap found: its cause, slot, info field and reported address (R339, R343). -/
structure Trap where
  cause : Cause
  slot : Nat := 0
  info : Nat := 0
  addr : Nat := 0
  /-- the LDQ entry whose marker it is (R117), and whether it is the pending store or copy fault (R121, R244) -/
  entry : Option Nat := none
  fault : Bool := false
deriving DecidableEq, Repr

/-- The trap word (R343). -/
def Trap.word (t : Trap) (pc : BIndex) : Word :=
  BitVec.ofNat 64 (t.cause.code * 2 ^ 59 + t.slot % 8 * 2 ^ 56 + t.info % 512 * 2 ^ 47 + pc.toNat)

/-- A trapped context in its user handler (R341, R343, R344): what the trapped code held goes to the trap snapshot. -/
def Ctx.enterUser (t : Ctx) (tr : Trap) : Ctx :=
  { t with
    handler := some { pc := t.pc, snap := t.snap, divBusy := t.divBusy, xfer := t.xfer, changes := t.changes
                      word := tr.word t.pc, cause := tr.cause, addr := tr.addr }
    snap := [], divBusy := 0, xfer := [], changes := []
    port := { t.port with sy := tr.word t.pc }
    pc := t.ctl.utvec.extractLsb' 1 47
    nul := false, resumed := false, asNever := false }

/-- A trapped context in the system context (R341, R342, R348); a user cause inside a handler is a double trap. -/
def Ctx.enterSystem (t : Ctx) (tr : Trap) : Ctx :=
  { t with
    sys := some { cause := tr.cause, pc := t.pc, addr := tr.addr
                  first := match t.handler with
                    | some h => if tr.cause.isUser then some (h.cause, h.pc, h.addr) else none
                    | none => none } }

/-- A marked entry whose RESID or STALEHALO trap is taken becomes a pending request again, in its place, for the bytes that were refused
(R196, R313). -/
def LdqEntry.renew (e : LdqEntry) : LdqEntry :=
  let op := match e.req.op with
    | .ldh u h _ => LoadOp.ldh u h none
    | o => o
  { e with mark := none, landed := false, fail := [], held := true, req := { e.req with op := op } }

/-- What taking a pending or marked fault does to its source: a RESID or STALEHALO entry is a request again (R196, R313); a store held for RESID
drains before the trapping bundle executes again (R121); a copy fault is no longer pending (R244). -/
def Ctx.takeFault (t : Ctx) (tr : Trap) : Ctx :=
  match tr.entry with
  | some i => if tr.cause = .resid || tr.cause = .stalehalo then { t with ldq := lmod t.ldq i LdqEntry.renew } else t
  | none =>
    if !tr.fault then t
    else if tr.cause = .resid then { t with storeFault := none, drainFirst := true }
    else if tr.cause = .record then { t with copyFault := none } else t

/-- What a context holds once a trap is taken (R341, R342): the requests of its bundle are forgotten, its count of blocked
cycles is cleared, and taking MXNAN clears the pending bit and the report's valid bit (R277, R343). -/
def Ctx.trapped (t : Ctx) (tr : Trap) : Ctx :=
  let t := t.takeFault tr
  let t := if tr.cause = .mxnan then { t with mxnan := t.mxnan &&& ~~~(1#64 <<< 63) } else t
  let t := { t with awaiting := [], blocked := 0, tokDone := false, hasBlocked := false, resumed := true
                    mxnanPend := t.mxnanPend && tr.cause != Cause.mxnan }
  if tr.cause.isUser && t.ctl.utvec.getLsbD 0 && t.handler.isNone then t.enterUser tr else t.enterSystem tr

/-- A bundle that has sent requests is abandoned: what they were granted is taken back (R145, R146, R148). -/
def State.abandon (s : State) (l : List Awaiting) : State :=
  let free : State → BitVec 16 → State := fun s id =>
    s.updDie (id.extractLsb' 8 3).toNat fun d =>
      { d with scopes := d.scopes.map fun e =>
          (e.1, if e.1 = (id.extractLsb' 0 8).toNat then { e.2 with reserved := false } else e.2) }
  let s := l.foldl (fun s a => match a.entry with | some id => free s id | none => s) s
  { s with scopeDecs := s.scopeDecs ++ l.filterMap (·.undo) }

/-- Takes a trap on a context: entry costs 6 cycles, the trapping cycle among them where the core is in it (n = 5), and all of them to come
where it is not (n = 6), after what the core still pays for (R341); a trap that goes to the system context makes the system context, number 4,
the running one (R348). A request of the bundle that waits at a home is withdrawn, and sent again with the bundle (R212; log 65). -/
def State.takeTrap (s : State) (c x : Nat) (tr : Trap) (n : Nat := 5) : State :=
  let s := s.abandon (s.ctx c x).awaiting
  let s := match (s.ctx c x).worker with
    | some w => { s with waiters := s.waiters.filter fun h => h.uid != w.uid }
    | none => s
  s.updCore c fun k =>
    let t := (k.ctx x).trapped tr
    { k.setCtx x t with stall := k.stall + n, running := if t.sys.isSome then some 4 else k.running }

/-- The redirect of an eret (R346): the trap snapshot and the held transfers come back, and the trapping bundle is next. -/
def Ctx.leaveUser (t : Ctx) (skip : BitVec 1) : Ctx :=
  match t.handler with
  | none => t
  | some h =>
    { t with handler := none, pc := h.pc, snap := h.snap, divBusy := h.divBusy, xfer := h.xfer, changes := h.changes
             nul := false, resumed := true, asNever := skip == 1 }

/-! ## Readiness and switching -/

/-- A context holds a worker that may run: it is not frozen, stopped, being saved, started or in the system context (R131). -/
def Ctx.runnable (t : Ctx) : Bool :=
  t.worker.isSome && !t.frozen && !t.stopped && !t.saving && !t.starting && t.sys.isNone

/-- The snapshot of an outgoing context (R25): the results due have been delivered (R19), those still outstanding stay where they count, its
requests are kept, and the bundle it resumes at is a resumed one (R347). -/
def Ctx.switchOut (t : Ctx) : Ctx := { t.deliverDue with resumed := true, blocked := 0, yielded := false }

/-- Switches the core to a context (R24, R131); the 6 cycles are paid before a bundle of another worker than the one that
issued last (R25). -/
def Core.switchTo (k : Core) (x : Nat) : Core :=
  let k := match k.running with
    | some o => k.setCtx o ((k.ctx o).switchOut)
    | none => k
  { k.setCtx x { k.ctx x with blocked := 0 } with running := some x, last := x, paid := none }

/-- The order in which the core looks for the next context: c+1, c+2, c+3 modulo 4 (R131); then c itself, where a new worker may
stand once the outgoing one has ended (R132). -/
def switchOrder (x : Nat) : List Nat := [(x + 1) % 4, (x + 2) % 4, (x + 3) % 4, x % 4]

end Sys2Proof.Machine
end

