-- ==== Sys2Proof/Machine/Operands.lean ====
section
/-!
DEFINITION. Operand forms: guards (R21), sources (R10, R11, R34, R35), destinations (R36), latches (R18), lanes (R72, R73) and the
conversion of a popped entry (R84-R86).
-/

namespace Sys2Proof.Machine

/-! ## Predicates, masks, guards -/

/-- A predicate as a source reads it: p0 reads 1 (R10). -/
def Ctx.pred (t : Ctx) (i : Nat) : Bool := i = 0 || t.p.getLsbD i

/-- A mask register as a source reads it: k0 reads all ones (R10). -/
def Ctx.mask (t : Ctx) (i : Nat) : KWord := if i = 0 then BitVec.allOnes 256 else vget t.k i 0

/-- pk as a source reads it: p15-p1 and 1 in bit 0 (R10). -/
def Ctx.pk (t : Ctx) : Word := (t.p ||| 1).zeroExtend 64

/-- Whether a guard is true (R21, R31). -/
def Ctx.guard (t : Ctx) (g : Guard) : Bool := t.pred (g.extractLsb' 0 4).toNat != g.getLsbD 4

/-! ## Sources -/

/-- The value of a short immediate: code - 0x140, sign-extended (R34). -/
def shortVal (c : BitVec 7) : Word := c.zeroExtend 64 - 64

/-- The value of a source that pops nothing, zero-extended to the widest port (R11, R34, R35). A pop's value is its queue's. -/
def Ctx.source (t : Ctx) : Src → VWord
  | .g i => (vget t.g i.toNat 0).zeroExtend 2048
  | .p i => if t.pred i.toNat then 1 else 0
  | .v i => vget t.v i.toNat 0
  | .k i => (t.mask i.toNat).zeroExtend 2048
  | .pk => t.pk.zeroExtend 2048
  | .lr => t.lr.zeroExtend 2048
  | .port r => t.port.get r
  | .short c => (shortVal c).zeroExtend 2048
  | .limm24 x => (x.signExtend 64).zeroExtend 2048
  | .limm48 x => (x.signExtend 64).zeroExtend 2048
  | .ldq | .vldq | .frecv | .qp _ | .qv _ => 0

/-- The register index a source names, when it is a g register (R9). -/
def srcG : Src → Option Nat
  | .g i => some i.toNat
  | _ => none

/-- The register index a destination names, when it is a g register (R9). -/
def dstG : Dst → Option Nat
  | .g i => some i.toNat
  | _ => none

/-! ## Destinations -/

/-- The predicates after a write to pk: bits 15:1 of the value, p0 kept at 1 (R10). -/
def pkWrite (w : Word) : BitVec 16 := w.truncate 16 ||| 1

/-- The predicates after a write to one of them; a write to p0 has no effect (R10). -/
def predWrite (p : BitVec 16) (i : Nat) (b : Bool) : BitVec 16 :=
  if i = 0 then p else if b then p ||| (1#16 <<< i) else p &&& ~~~(1#16 <<< i)

/-- A tile control word as it is held: reserved bits read as zero (R4, R251). -/
def tcMask : Word := 0x00FFFFFC7FFFF07F

/-- An operand latch or parameter port written, cut to its width (R11, R18). -/
def Latches.put (l : Latches) (a : Latch) (w : VWord) : Latches :=
  match a with
  | .iaO u => { l with iaO := l.iaO.set u.toNat (w.truncate 64) }
  | .imO => { l with imO := w.truncate 64 }
  | .faO => { l with faO := w.truncate 64 }
  | .faP => { l with faP := w.truncate 64 }
  | .cuO => { l with cuO := w.truncate 64 }
  | .vuO u => { l with vuO := l.vuO.set u.toNat w }
  | .vuP u => { l with vuP := l.vuP.set u.toNat w }
  | .vuK u => { l with vuK := l.vuK.set u.toNat (w.truncate 256) }
  | .auO => { l with auO := w.truncate 64 }
  | .auX => { l with auX := w.truncate 64 }
  | .quO => { l with quO := w.truncate 64 }
  | .ceO => { l with ceO := w.truncate 64 }
  | .syO => { l with syO := w.truncate 64 }
  | .xuO => { l with xuO := w.truncate 64 }
  | .mp i => { l with mp := vset l.mp i.toNat (w.truncate 64) }
  | .tc i => { l with tc := vset l.tc i.toNat (w.truncate 64 &&& tcMask) }

/-- A register or latch destination written (R10, R11, R36). -/
def Ctx.write (t : Ctx) (d : Dst) (w : VWord) : Ctx :=
  match d with
  | .g i => { t with g := vset t.g i.toNat (w.truncate 64) }
  | .p i => { t with p := predWrite t.p i.toNat (w.getLsbD 0) }
  | .v i => { t with v := vset t.v i.toNat w }
  | .k i => if i = 0 then t else { t with k := vset t.k i.toNat (w.truncate 256) }
  | .pk => { t with p := pkWrite (w.truncate 64) }
  | .lr => { t with lr := w.truncate 64 }
  | .latch l => { t with lat := t.lat.put l w }

/-! ## Lanes -/

/-- Bits of a lane: a format narrower than 8 bits stands in an 8-bit lane (R73). -/
def laneBits (c : FmtCode) : Nat := if fmtWidth c ≤ 8 then 8 else fmtWidth c

/-- Lanes of a vector (R12, R73). -/
def laneCount (c : FmtCode) : Nat := 2048 / laneBits c

/-- The bits of lane i, lanes of lb bits. -/
def laneAt (v : VWord) (lb i : Nat) : Nat := (v.toNat >>> (i * lb)) % 2 ^ lb

/-- All the lanes of a vector. -/
def lanesOf (v : VWord) (lb : Nat) : List Nat := (List.range (2048 / lb)).map (laneAt v lb)

/-- A number from its digits of b bits, the lowest first. -/
def packBits (b : Nat) : List Nat → Nat
  | [] => 0
  | x :: xs => x % 2 ^ b + 2 ^ b * packBits b xs

/-- A vector from its lanes, the lowest first; lanes not given are zero. -/
def ofLanes (lb : Nat) (l : List Nat) : VWord := BitVec.ofNat 2048 (packBits lb l)

/-- A converted element in its lane: i4 and i2 fill the lane with copies of the top bit, others with zeros (R73). -/
def laneFill (c : FmtCode) (b : Nat) : Nat :=
  match fmtInfo c with
  | some (.int w true) => if w < 8 then intCode 8 (intOf w true b) else b
  | _ => b

/-- The elements of a run of bytes given as a number, elements of w bits (R72). -/
def elemsOf (data w n : Nat) : List Nat := (List.range n).map fun i => (data >>> (i * w)) % 2 ^ w

/-- Conversions in order, drawing as they go (R79, R80): the codes, whether NFS is due, and SEED after them. -/
def convList (f1 f2 : FmtCode) (mode : RMode) : List Nat → Word → List Nat × Bool × Word
  | [], s => ([], false, s)
  | b :: bs, s =>
    let r := conv b f1 f2 mode s
    let (cs, n, s') := convList f1 f2 mode bs r.seed
    (r.bits :: cs, r.nfs || n, s')

/-- A popped value: what the move delivers, whether NFS is due, and SEED after it (R86). -/
structure Popped where
  val : VWord
  nfs : Bool
  seed : Word
deriving DecidableEq, Repr

/-- The scalar view of an entry of B bytes (R86). -/
def popScalar (data : Nat) (pair : BitVec 14) (rm : RMode) (seed : Word) : Popped :=
  let f1 := pairSrc pair
  let f2 := pairSnk pair
  if f1 = f2 then { val := BitVec.ofNat 2048 (data % 2 ^ 64), nfs := false, seed := seed }
  else
    let r := conv (data % 2 ^ fmtWidth f1) f1 f2 rm seed
    let v := match fmtInfo f2 with
      | some (.int w true) => intCode 64 (intOf w true r.bits)
      | _ => r.bits
    { val := BitVec.ofNat 2048 v, nfs := r.nfs, seed := r.seed }

/-- The vector view of an entry of B bytes (R86). -/
def popVector (data len : Nat) (pair : BitVec 14) (rm : RMode) (seed : Word) : Popped :=
  let f1 := pairSrc pair
  let f2 := pairSnk pair
  if f1 = f2 then { val := BitVec.ofNat 2048 data, nfs := false, seed := seed }
  else
    let n := Nat.min (8 * len / fmtWidth f1) (laneCount f2)
    let (cs, nf, s) := convList f1 f2 rm (elemsOf data (fmtWidth f1) n) seed
    { val := ofLanes (laneBits f2) (cs.map (laneFill f2)), nfs := nf, seed := s }

/-- Whether the vector view of an entry with this pair is a mismatch: a sink of f64 (R87). -/
def vecSinkBad (pair : BitVec 14) : Bool := pairSnk pair = fmtF64

end Sys2Proof.Machine
end

