-- ==== Sys2Proof/Machine/Access.lean ====
section
/-!
DEFINITION. Addresses and where accesses are performed: the physical map (R182-R184), the window table (R185-R188), homes
(R190-R192), the remote-data cache (R193, R204, R205), scratch (R194), errors (R202) and reachable modules (R363).
-/

namespace Sys2Proof.Machine

/-! ## Physical addresses -/

/-- This module's number (R1, R363). -/
def State.mod (s : State) : Nat := s.rctl.mod.toNat

/-- The module of a global physical address (R182). -/
def paMod (pa : Nat) : Nat := pa / 2 ^ 50

/-- The region of a global physical address: 0 HBM, 1 scratch, 2 CXL, 3 control and mailbox (R182). -/
def paRegion (pa : Nat) : Nat := pa / 2 ^ 48 % 4

/-- The home die of an HBM address (R182). -/
def paDie (pa : Nat) : Nat := pa / 2 ^ 37 % 8

/-- The module core number of a scratch address: bits 47:38 hold die and core in die (R184). -/
def paCore (pa : Nat) : Nat := pa / 2 ^ 38 % 1024

/-- Bytes of a die's frames: 61,035 frames of 2 MiB (R183). -/
def hbmFrames : Nat := 61035 * 2 ^ 21

/-- The end of a die's two stacks (R183). -/
def hbmEnd : Nat := 0x1DCD650000

/-- The end of a module's CXL address space: 16 TiB (R182). -/
def cxlEnd : Nat := 2 ^ 44

/-- The scratch of a module core (R184). -/
def scratchBase (m c : Nat) : Nat := m * 2 ^ 50 + 2 ^ 48 + c / 128 * 2 ^ 45 + c % 128 * 2 ^ 38

/-- Whether a module can be reached (R363). -/
def State.reachable (s : State) (m : Nat) : Bool :=
  m = s.mod || (s.rctl.up && m ≤ s.rctl.nmod.toNat && s.peersUp.getLsbD m)

/-- Whether a die of this module is the home of an address, or its scratch port serves it (R190, R204). -/
def State.isLocal (s : State) (die pa : Nat) : Bool :=
  paMod pa = s.mod && (paRegion pa = 1 || (paRegion pa = 0 && paDie pa = die))

/-! ## Windows -/

/-- The first virtual byte of a window (R186). -/
def Window.base (w : Window) : Nat := w.vbase * 2 ^ 21

/-- The size of a window in bytes (R186). -/
def Window.size (w : Window) : Nat := 2 ^ w.lsize

/-- The physical address a target names (R186). -/
def Window.targetPa (w : Window) : Nat := w.target * 2 ^ 21

/-- Whether a window holds a byte address (R188). -/
def Window.holds (w : Window) (va : Int) : Bool := (w.base : Int) ≤ va && va < (w.base : Int) + (w.size : Int)

/-- The window that holds a byte address (R188): at most one does. -/
def findWindow (ws : List Window) (va : Int) : Option Window := ws.find? fun w => w.holds va

/-- A scratch target with the own-core form (R184). -/
def Window.isSelf (w : Window) : Bool := paRegion w.targetPa = 1 && w.targetPa.testBit 37

/-- Where a byte of a window lies for a core (R188, R191, R198); none for the scratch of a core on another die. -/
def Window.loc (w : Window) (launch mod c : Nat) (va : Int) : Option Loc :=
  let o := (va - (w.base : Int)).toNat
  let page := o / 2 ^ 21
  if w.place = 2 || w.paged then
    let p : PageId :=
      if !w.paged then .anon launch w.index page
      else if w.nvme then .nvme (w.target / 2 ^ 27 % 256) (w.target % 2 ^ 27 + page)
      else .cxl (w.targetPa + page * 2 ^ 21)
    some (.page p (o % 2 ^ 21) (if w.place = 2 then none else some w.hdie) ((page + w.index) % 8) w.ro)
  else if w.place = 1 then
    some (.phys (mod * 2 ^ 50 + o / 2 ^ 12 % 8 * 2 ^ 37 + w.targetPa % 2 ^ 37 + o / 2 ^ 15 * 2 ^ 12 + o % 2 ^ 12))
  else if w.isSelf then some (.phys (scratchBase mod c + o))
  else if paRegion w.targetPa = 1 && paCore w.targetPa / 128 != dieOf c then none
  else some (.phys (w.targetPa + o))

/-- The permission an access needs (R112). -/
inductive Need where
  | read | write | both | code
deriving DecidableEq, Repr

/-- Whether a window gives a permission. -/
def Window.allows (w : Window) : Need → Bool
  | .read => w.r
  | .write => w.w
  | .both => w.r && w.w
  | .code => w.x

/-- A byte address as a report holds it: its low 48 bits. -/
def addr48 (va : Int) : Nat := (va % 2 ^ 48).toNat

/-- The lookup of a span of bytes lo to hi (R112): all in one window, with the permission; the report names the lowest
faulting byte (R339): of a span that begins in a window and leaves it, the first byte past that window (log 48). -/
def lookupSpan (ws : List Window) (launch mod c : Nat) (lo hi : Int) (need : Need) : Option Mark :=
  match findWindow ws lo with
  | none => some { cause := .window, addr := addr48 lo }
  | some w =>
    if !w.holds hi then some { cause := .window, addr := addr48 ((w.base : Int) + w.size) }
    else if (w.loc launch mod c lo).isNone then some { cause := .window, addr := addr48 lo }
    else if !w.allows need then some { cause := .perm, addr := addr48 lo }
    else none

/-- Where a byte lies under a window table. -/
def locate (ws : List Window) (launch mod c : Nat) (va : Int) : Option Loc :=
  (findWindow ws va).bind fun w => w.loc launch mod c va

/-! ### Loading a window table (R185-R187) -/

/-- An entry as its 128 bits say it (R186), with the index it stands at. -/
def Window.ofBits (i : Nat) (b : BitVec 128) : Window :=
  { index := i
    vbase := (b.extractLsb' 0 27).toNat
    target := (b.extractLsb' 48 35).toNat
    lsize := (b.extractLsb' 83 5).toNat
    r := b.getLsbD 89
    w := b.getLsbD 90
    x := b.getLsbD 91
    ro := b.getLsbD 92
    place := (b.extractLsb' 93 2).toNat
    paged := b.getLsbD 95
    nvme := b.getLsbD 96
    hdie := (b.extractLsb' 97 3).toNat }

/-- Two windows overlap. -/
def Window.overlaps (a b : Window) : Bool := a.base < b.base + b.size && b.base < a.base + a.size

/-- A span of physical addresses lies in one HBM die's frames, in one CXL range, or in one scratch (R187). -/
def spanOk (pa n : Nat) : Bool :=
  match paRegion pa with
  | 0 => pa / 2 ^ 40 % 2 ^ 8 = 0 && pa % 2 ^ 37 + n ≤ hbmFrames
  | 1 => n = 2 ^ 21 && pa / 2 ^ 21 % 2 ^ 16 = 0
  | 2 => pa % 2 ^ 48 + n ≤ cxlEnd
  | _ => false

/-- The rules of an entry that need no other entry (R187). -/
def Window.ruleOk (w : Window) (mod : Nat) : Bool :=
  let pa := w.targetPa
  let firstTouch := w.place = 2
  21 ≤ w.lsize && w.lsize ≤ 40 && w.vbase % 2 ^ (w.lsize - 21) = 0
    && !(w.ro && w.w) && w.place != 3 && (!w.x || w.index = 0)
    && (if firstTouch && !w.paged then true
        else if w.paged then (w.place = 0 || firstTouch) && (w.nvme || (paRegion pa = 2 && paMod pa = mod && pa % 2 ^ 48 < cxlEnd))
        else if w.place = 1 then
          24 ≤ w.lsize && paMod pa = mod && paRegion pa = 0 && pa / 2 ^ 37 % 2 ^ 11 = 0
            && pa % 2 ^ 37 + 2 ^ (w.lsize - 3) ≤ hbmFrames
        else if w.isSelf then w.lsize = 21 && paCore pa = 0 && paMod pa = mod && pa / 2 ^ 21 % 2 ^ 16 = 0
        else pa % w.size = 0 && spanOk pa w.size && (paMod pa = mod || paRegion pa != 1))

/-- The valid entries of a table, in ascending index, each against the valid ones below it, and the indices loaded invalid
(R187). -/
def loadTable (mod : Nat) : List (Nat × BitVec 128) → List Window → List Window × List Nat
  | [], acc => (acc.reverse, [])
  | (i, b) :: es, acc =>
    if !b.getLsbD 88 then loadTable mod es acc
    else
      let w := Window.ofBits i b
      if w.ruleOk mod && !(acc.any fun v => v.overlaps w) then loadTable mod es (w :: acc)
      else
        let (ws, bad) := loadTable mod es acc
        (ws, i :: bad)

/-- The copy of the window table at a local physical address of this module (R185). -/
def State.copyTable (s : State) (wtab : Nat) : List Window × List Nat :=
  loadTable s.mod ((List.range 256).map fun i =>
    (i, BitVec.ofNat 128 (memNat s.mem (s.mod * 2 ^ 50 + wtab * 2 ^ 12 + 16 * i) 16))) []

/-- What a context's window table and launch are: nothing for a context without a worker. -/
def Ctx.wins (t : Ctx) : List Window := match t.worker with | some w => w.wins | none => []

/-- The launch of a context's worker. -/
def Ctx.launch (t : Ctx) : Nat := match t.worker with | some w => w.launch | none => 0

/-- The virtual interface of a context's worker. -/
def Ctx.vi (t : Ctx) : Nat := match t.worker with | some w => w.vi | none => 0

/-- The lookup of a span for a context (R112). -/
def State.lookup (s : State) (c : Nat) (t : Ctx) (lo hi : Int) (need : Need) : Option Mark :=
  lookupSpan t.wins t.launch s.mod c lo hi need

/-- Where a byte lies for a context. -/
def State.locate (s : State) (c : Nat) (t : Ctx) (va : Int) : Option Loc := Machine.locate t.wins t.launch s.mod c va

/-! ## The frames of pages (R191, R196-R199) -/

/-- The die that a first-touch page is bound to (R198). -/
def State.boundDie (s : State) (p : PageId) (dir : Nat) : Option Nat := (s.die dir).binds.lookup p

/-- The die at whose L2 a page is accessed (R191): its window's, or the one a first-touch page is bound to. -/
def State.pageDie (s : State) (p : PageId) (home : Option Nat) (dir : Nat) : Option Nat :=
  match home with
  | some h => some h
  | none => s.boundDie p dir

/-- The physical address of frame i of die d (R183). -/
def State.frameAddr (s : State) (d i : Nat) : Nat := s.mod * 2 ^ 50 + d * 2 ^ 37 + i * 2 ^ 21

/-- The frame in which a page's home finds it in its table, in one of some states (R191). -/
def State.frameIn (s : State) (ok : FrameState → Bool) (p : PageId) (home : Option Nat) (dir : Nat) : Option Nat :=
  (s.pageDie p home dir).bind fun d =>
    ((s.die d).frames.find? fun e => e.2.page = p && ok e.2.state).map fun e => s.frameAddr d e.1

/-- The states of a frame that serves accesses (R199). -/
def FrameState.serves (f : FrameState) : Bool := f = .resident || f = .pinned

/-- The states of a frame in which what its home has accepted is performed (R199): a claim waits for it. -/
def FrameState.lands (f : FrameState) : Bool := f.serves || f = .claimed

/-- The frame that serves accesses to a page (R196). -/
def State.served (s : State) (p : PageId) (home : Option Nat) (dir : Nat) : Option Nat := s.frameIn FrameState.serves p home dir

/-- The physical byte of a location where an access arrives now: none for a page that its home refuses (R191, R196). -/
def State.resolve (s : State) : Loc → Option Nat
  | .phys pa => some pa
  | .page p off home dir _ => (s.served p home dir).map fun f => f + off

/-- The physical byte of a location where an access that its home has accepted is performed (R199). -/
def State.landing (s : State) : Loc → Option Nat
  | .phys pa => some pa
  | .page p off home dir _ => (s.frameIn FrameState.lands p home dir).map fun f => f + off

/-! ## NVMe backing slots (R401) -/

/-- The fields of a backing-slot entry. -/
def slotValid (b : BitVec 128) : Bool := b.getLsbD 60
def slotLba (b : BitVec 128) : Nat := (b.extractLsb' 0 60).toNat
def slotPort (b : BitVec 128) : Nat := (b.extractLsb' 61 1).toNat
def slotNs (b : BitVec 128) : Nat := (b.extractLsb' 64 32).toNat
def slotLbs (b : BitVec 128) : Nat := (b.extractLsb' 96 8).toNat

/-- Where chunk k of a backing slot starts in the NVMe bytes: none for an invalid slot. -/
def chunkOf (slots : List (Nat × BitVec 128)) (slot k : Nat) : Option Nat :=
  let b := tget 0 slots slot
  if slotValid b then
    some ((slotPort b * 2 ^ 32 + slotNs b) * 2 ^ 140 + slotLba b * 2 ^ slotLbs b + k * 2 ^ 21)
  else none

/-- Where chunk k of a backing slot of the module starts. -/
def State.chunkAddr (s : State) (slot k : Nat) : Option Nat := chunkOf s.slots slot k

/-! ## The points where accesses are performed -/

/-- The sector of an address (R192). -/
def sectorOf (pa : Nat) : Nat := pa / 32

/-- A line of a die's remote-data cache (R193). -/
def Die.line (d : Die) (n : Nat) : Option RdcLine := d.rdc.find? fun l => l.line = n

/-- Whether a line holds a byte: its sector is valid. -/
def RdcLine.has (l : RdcLine) (pa : Nat) : Bool := l.valid.getLsbD (pa / 32 % 4)

/-- The latest unacknowledged write-through of a die to a byte (R205): later ones stand later in the list. -/
def wtByte (l : List WriteThrough) (pa : Nat) : Option Byte :=
  l.foldl (fun acc w => match w.cells.reverse.lookup pa with | some b => some b | none => acc) none

/-- The byte of another module that its home here, the own Bivouac die, has accepted last and that module has not (R190, R204). -/
def acceptedByte (l : List Accepted) (pa : Nat) : Option Byte :=
  l.foldl (fun acc w => match w.cells.reverse.lookup pa with | some b => some b | none => acc) none

/-- The byte that its home as R190 has it gives: what the own Bivouac die has accepted of another module's byte, else the memory. -/
def State.homeByte (s : State) (pa : Nat) : Byte := (acceptedByte s.accepted pa).getD (memGet s.mem pa)

/-- The byte a load by an agent of a die takes at the die point (R205). -/
def State.dieByte (s : State) (die pa : Nat) : Byte :=
  if s.isLocal die pa then memGet s.mem pa
  else
    match wtByte (s.die die).wt pa with
    | some b => b
    | none =>
      match (s.die die).line (pa / 128) with
      | some l => if l.has pa then tget 0 l.data (pa % 128) else s.homeByte pa
      | none => s.homeByte pa

/-- A line with a sector installed: the home's bytes, the die's unacknowledged write-throughs merged over them (R193, R205). -/
def RdcLine.install (l : RdcLine) (home : Nat → Byte) (wt : List WriteThrough) (sec : Nat) : RdcLine :=
  { l with
    valid := l.valid ||| (1#4 <<< sec)
    data := (List.range 32).foldl (fun d j =>
      let o := sec * 32 + j
      let pa := l.line * 128 + o
      tset d o ((wtByte wt pa).getD (home pa))) l.data }

/-- The lines of a remote-data cache of 16 MiB (R193). -/
def rdcLines : Nat := 131072

/-- The lines that the load-blocks of a die's contexts hold: they are exempt from replacement (R195). -/
def State.heldLines (s : State) (die : Nat) : List Nat :=
  s.cores.flatMap fun p =>
    if dieOf p.1 = die then
      p.2.ctxs.toList.flatMap fun t => t.blocks.flatMap fun b => b.locs.filterMap fun l => (s.landing l).map fun pa => pa / 128
    else []

/-- The lines that stay when one more comes into a remote-data cache: all of them, but for one that is replaced where it is full (R193). -/
def State.makeRoom (s : State) (die pa : Nat) (rdc : List RdcLine) : List RdcLine :=
  if rdc.length < rdcLines then rdc
  else
    let held := s.heldLines die
    let free := rdc.filter fun l => !held.contains l.line
    match free[Config.victimLine s.clk (pa / 128) % free.length]? with
    | some v => rdc.filter fun l => l.line != v.line
    | none => rdc

/-- The effect of a load by an agent of a die on its remote-data cache: an absent sector is fetched and installed (R193). -/
def State.dieFill (s : State) (die pa : Nat) : State :=
  if s.isLocal die pa then s
  else
    s.updDie die fun d =>
      match d.line (pa / 128) with
      | some l =>
        if l.has pa then d
        else { d with rdc := d.rdc.map fun m => if m.line = pa / 128 then m.install s.homeByte d.wt (pa / 32 % 4) else m }
      | none =>
        let l : RdcLine := { line := pa / 128, valid := 0, dirty := 0, data := [] }
        { d with rdc := s.makeRoom die pa d.rdc ++ [l.install s.homeByte d.wt (pa / 32 % 4)] }

/-- A line with bytes of a store written and their words marked dirty (R193). -/
def RdcLine.store (l : RdcLine) (cells : List (Nat × Byte)) : RdcLine :=
  cells.foldl (fun l p =>
    if p.1 / 128 = l.line then
      { l with data := if l.has p.1 then tset l.data (p.1 % 128) p.2 else l.data
               dirty := l.dirty ||| (1#32 <<< (p.1 % 128 / 4)) }
    else l) l

/-- The number of the worker in a context. -/
def Ctx.uid (t : Ctx) : Nat := match t.worker with | some w => w.uid | none => 0

/-- A piece of a store accepted at the scope-1 to -3 point of its bytes (R204, R205): the home or the scratch port when they are
the die's own, else the remote-data cache, which sends the bytes home at once. -/
def State.diePut (s : State) (c x seq : Nat) (cells : List (Nat × Byte)) : State :=
  let die := dieOf c
  match cells with
  | [] => s
  | (pa, _) :: _ =>
    if s.isLocal die pa then { s with mem := memPut s.mem cells }
    else s.updDie die fun d =>
      { d with rdc := d.rdc.map fun l => l.store cells
               wt := d.wt ++ [{ core := c, ctx := x, uid := (s.ctx c x).uid, seq := seq, id := d.wtNext, cells := cells }]
               wtNext := d.wtNext + 1 }

/-- Drops the copies of the lines of some addresses from a die's remote-data cache (R193). -/
def Die.dropLines (d : Die) (pas : List Nat) : Die :=
  { d with rdc := d.rdc.filter fun l => !(pas.any fun pa => pa / 128 = l.line) }

/-- Drops the copies of the sectors of some addresses from a die's remote-data cache (R193, R205). -/
def Die.dropSectors (d : Die) (pas : List Nat) : Die :=
  { d with rdc := d.rdc.map fun l =>
      pas.foldl (fun l pa => if pa / 128 = l.line then { l with valid := l.valid &&& ~~~(1#4 <<< (pa / 32 % 4)) } else l) l }

/-- A line whose dirty mask is clear may be dropped (R193). -/
def RdcLine.clean (l : RdcLine) : Bool := l.dirty = 0

/-- The frames that hold some bytes are dirty (R199, R201). -/
def State.dirtyFrames (s : State) (pas : List Nat) : State :=
  let hit : Nat → Nat → Bool := fun d i =>
    pas.any fun pa => pa / 2 ^ 21 = (s.mod * 2 ^ 50 + d * 2 ^ 37 + i * 2 ^ 21) / 2 ^ 21
  { s with dies := s.dies.map fun d =>
      (d.1, { d.2 with frames := d.2.frames.map fun f => (f.1, if hit d.1 f.1 then { f.2 with dirty := true } else f.2) }) }

/-- An engine of a die writes bytes at their scope-5 points, and drops the die's copies of the sectors (R204, R205). -/
def State.enginePut (s : State) (die : Nat) (cells : List (Nat × Byte)) : State :=
  let pas : List Nat := cells.map (·.1)
  let s : State := { s with mem := memPut s.mem cells }
  (s.dirtyFrames pas).updDie die fun d => d.dropSectors pas

/-! ## Residency (R196, R198) -/

/-- Two locations are one byte. -/
def Loc.same : Loc → Loc → Bool
  | .phys a, .phys b => a = b
  | .page p o _ _ _, .page q r _ _ _ => p = q && o = r
  | _, _ => false

/-- A fill of a page is asked of its home's pager, unless one is already under way or queued (R196). -/
def State.askFill (s : State) (h : Nat) (p : PageId) (ro : Bool) : State :=
  let d := s.die h
  if d.fillQ.any (fun f => f.page = p) || d.frames.any (fun e => e.2.page = p && e.2.state = .filling) then s
  else s.updDie h fun d => { d with fillQ := d.fillQ ++ [{ page := p, ro := ro }] }

/-- The directory binds an unbound page to a die, and its fill is asked for there (R198). -/
def State.bindPage (s : State) (dir die : Nat) (p : PageId) (ro : Bool) : State :=
  (s.updDie dir fun d => { d with binds := d.binds ++ [(p, die)], fresh := d.fresh ++ [p] }).askFill die p ro

/-- An access of die `die` reaches the directory in the clk in which it has bound the page to a higher die: the lowest-numbered die wins (R198). -/
def State.outbids (s : State) (dir h die : Nat) (p : PageId) : Bool :=
  die < h && (s.die dir).fresh.contains p && (s.die h).fillQ.any fun f => f.page = p

/-- What a refused access starts (R196, R198): the page's fill, after binding an unbound first-touch page to the accessing die, the lowest of
those whose accesses come in one clk. -/
def State.startFill (s : State) (die : Nat) : Loc → State
  | .phys _ => s
  | .page p _ (some h) _ ro => s.askFill h p ro
  | .page p _ none dir ro =>
    match s.boundDie p dir with
    | some h =>
      if s.outbids dir h die p then
        let s := s.updDie dir fun d => { d with binds := d.binds.filter fun b => b.1 != p }
        (s.updDie h fun d => { d with fillQ := d.fillQ.filter fun f => f.page != p }).bindPage dir die p ro
      else s.askFill h p ro
    | none => s.bindPage dir die p ro

/-! ## Writes of engines (R196, R204) -/

/-- A byte merged with what an engine writes. -/
def OwedWrite.merge (w : OwedWrite) (old : Byte) : Byte := (old &&& ~~~w.mask) ||| (w.val &&& w.mask)

/-- Writes of an engine reach their bytes, each at its page's frame. -/
def State.landWrites (s : State) (ws : List OwedWrite) : State :=
  match ws with
  | [] => s
  | w :: _ => s.enginePut w.die (ws.filterMap fun w => (s.resolve w.loc).map fun pa => (pa, w.merge (memGet s.mem pa)))

/-- An engine writes bytes (R196): those whose page no frame holds, and those behind such a write to the same byte, wait for their page, whose
fill is started. -/
def State.engineWrites (s : State) (ws : List OwedWrite) : State :=
  let now : OwedWrite → Bool := fun w => (s.resolve w.loc).isSome && !(s.owedWrites.any fun o => o.loc.same w.loc)
  let later := ws.filter fun w => !now w
  let s1 := s.landWrites (ws.filter now)
  { later.foldl (fun (s : State) w => s.startFill w.die w.loc) s1 with owedWrites := s1.owedWrites ++ later }

/-- The waiting writes of engines whose pages have become resident reach them, in their order (R196). -/
def State.landOwed (s : State) : State :=
  if s.owedWrites.isEmpty then s
  else s.owedWrites.foldl (fun (s : State) w => s.engineWrites [w]) { s with owedWrites := [] }

/-! ## Errors (R202) -/

/-- Whether an uncorrectable error stands at a byte. -/
def State.isBad (s : State) (pa : Nat) : Bool := s.badEcc.contains pa

/-- The die that counts a byte's errors: its home, or die 0 for one homed on the Bivouac die (log 3). -/
def eccDie (pa : Nat) : Nat := if paRegion pa = 1 then paCore pa / 128 else if paRegion pa = 0 then paDie pa else 0

/-- Single-bit errors met by an access are corrected in place and counted in the die's error status. -/
def State.correct (s : State) (pas : List Nat) : State :=
  pas.foldl (fun s pa =>
    if s.softEcc.contains pa then
      ({ s with softEcc := s.softEcc.erase pa }).updDie (eccDie pa) fun d => { d with eccCount := d.eccCount + 1 }
    else s) s

end Sys2Proof.Machine
end

