-- ==== Sys2Proof/Machine/Flow.lean ====
section
/-!
DEFINITION. Fetch decisions: pending transfers (R26, R63), hardware loops (R64-R68), retirement (R139), the first bundle of an
iteration (R137) and the chunks of a worker (R138).
-/

namespace Sys2Proof.Machine

/-! ## One decision -/

/-- What fetch decisions read and change. -/
structure FlowSt where
  loops : Vector LoopLevel 4
  xfer : List Transfer
  changes : List LoopChange
deriving DecidableEq, Repr

/-- Where fetch goes next. -/
inductive NextPos where
  | at (i : BIndex)
  /-- The phase ends here: the point after the last bundle of an iteration, of the prologue or of the epilogue (R137, R139). -/
  | boundary
  /-- The redirect of an eret, with its t[0] (R346). -/
  | eret (skip : BitVec 1)
deriving DecidableEq, Repr

/-- A loop level. -/
def lvl (v : Vector LoopLevel 4) (l : Nat) : LoopLevel := vget v l {}

/-- Loop changes one decision nearer: those due are applied, in the order they were made (R65, R68). -/
def applyChanges (loops : Vector LoopLevel 4) : List LoopChange → Vector LoopLevel 4 × List LoopChange
  | [] => (loops, [])
  | c :: cs =>
    if c.left ≤ 1 then
      applyChanges (vset loops c.level.toNat { lvl loops c.level.toNat with armed := c.armed, c := c.c }) cs
    else
      let (l, r) := applyChanges loops cs
      (l, { c with left := c.left - 1 } :: r)

/-- The loop ends at bundle x, highest level first over a list of levels (R66): the next bundle, whether a back edge was taken,
and the levels. -/
def loopEnds (x : BIndex) : List Nat → Vector LoopLevel 4 → Option BIndex × Vector LoopLevel 4
  | [], v => (none, v)
  | l :: ls, v =>
    let e := lvl v l
    if e.armed && e.last = x then
      if 1 < e.c.toNat then (some e.first, vset v l { e with c := e.c - 1 })
      else loopEnds x ls (vset v l { e with c := 0, armed := false })
    else loopEnds x ls v

/-- The zero-trip step (R66): an armed level of count 0 whose body would be entered is disarmed and skipped, the highest first;
each pass disarms one, so four suffice. -/
def zeroTrip : Nat → BIndex → Vector LoopLevel 4 → BIndex × Vector LoopLevel 4
  | 0, i, v => (i, v)
  | n + 1, i, v =>
    match [3, 2, 1, 0].find? (fun l => (lvl v l).armed && (lvl v l).first = i && (lvl v l).c = 0) with
    | some l => zeroTrip n ((lvl v l).last + 1) (vset v l { lvl v l with armed := false })
    | none => (i, v)

/-- The transfer whose delay ends now, and the others one position nearer (R63). Two whose delays end together, an eret and a cu transfer of one
bundle, redirect one decision: the one of the lower slot does, and the other is dropped (log 64). -/
def takeTransfer : List Transfer → Option Transfer × List Transfer
  | [] => (none, [])
  | t :: ts =>
    let (o, r) := takeTransfer ts
    if t.left ≤ 1 then (some t, r) else (o, { t with left := t.left - 1 } :: r)

/-- The decision after bundle x (R66, R67, R139): fin is the last bundle of the phase, own says that x itself triggers a
transfer, and in a user handler no loop edge applies and no boundary exists (R344, R351). -/
def decideNext (fin : BIndex) (handler own : Bool) (x : BIndex) (f : FlowSt) : NextPos × FlowSt :=
  let (loops, changes) := applyChanges f.loops f.changes
  let (tr, rest) := takeTransfer f.xfer
  match tr with
  | some t =>
    match t.eret with
    | some b => (.eret b, { loops := loops, xfer := rest, changes := changes })
    | none =>
      let (i, loops) := if handler then (t.target, loops) else zeroTrip 4 t.target loops
      (.at i, { loops := loops, xfer := rest, changes := changes })
  | none =>
    if handler then (.at (x + 1), { loops := loops, xfer := rest, changes := changes })
    else
      let (back, loops) := loopEnds x [3, 2, 1, 0] loops
      match back with
      | some b =>
        let (i, loops) := zeroTrip 4 b loops
        (.at i, { loops := loops, xfer := rest, changes := changes })
      | none =>
        let (i, loops) := zeroTrip 4 (x + 1) loops
        if x = fin && i = fin + 1 && rest.isEmpty && !own then
          (.boundary, { loops := loops, xfer := rest, changes := changes })
        else (.at i, { loops := loops, xfer := rest, changes := changes })

/-! ## A context's phase -/

/-- The last bundle of the phase a worker is in (R137). -/
def Worker.fin (w : Worker) : BIndex :=
  match w.phase with
  | .prologue => w.rcd.kernel - 1
  | .epilogue => w.rcd.epi + BitVec.ofNat 47 w.rcd.elen - 1
  | _ => w.rcd.kend

/-- The last bundle of the phase of a context: none is reached by one without a worker. -/
def Ctx.fin (t : Ctx) : BIndex := match t.worker with | some w => w.fin | none => BitVec.allOnes 47

/-- The fetch state of a context. -/
def Ctx.flow (t : Ctx) : FlowSt := { loops := t.loops, xfer := t.xfer, changes := t.changes }

/-- Replaces the fetch state of a context. -/
def Ctx.setFlow (t : Ctx) (f : FlowSt) : Ctx := { t with loops := f.loops, xfer := f.xfer, changes := f.changes }

/-- The decision after bundle x for a context. -/
def Ctx.decide (t : Ctx) (own : Bool) (x : BIndex) (f : FlowSt) : NextPos × FlowSt :=
  decideNext t.fin t.handler.isSome own x f

/-! ## Iterations (R137) -/

/-- Disarms every level (R139). -/
def disarmAll (v : Vector LoopLevel 4) : Vector LoopLevel 4 := v.map fun l => { l with armed := false, c := 0 }

/-- Arms the temporal levels of a record at an iteration's start (R137). -/
def armTemporal (r : LoopRec) (v : Vector LoopLevel 4) : Vector LoopLevel 4 :=
  [0, 1, 2, 3].foldl (fun v l =>
    if r.kinds[l]? = some .temporal then
      vset v l { lvl v l with armed := true, c := BitVec.ofNat 32 (r.counts.getD l 0) }
    else v) v

/-- Iterations of a worker in all (R137). -/
def Worker.iters (w : Worker) : Nat := w.dieSize * w.coreSize * w.rcd.trip

/-- The number of the iteration a worker is in. -/
def Worker.iterNo (w : Worker) : Nat := ((w.dp - w.dieFirst) * w.coreSize + (w.cp - w.coreFirst)) * w.rcd.trip + w.it

/-- A worker placed at its n-th iteration. -/
def Worker.atIter (w : Worker) (n : Nat) : Worker :=
  { w with phase := .iteration
           it := n % w.rcd.trip
           cp := w.coreFirst + n / w.rcd.trip % w.coreSize
           dp := w.dieFirst + n / w.rcd.trip / w.coreSize }

/-- What starts a phase does to a context (R28, R137): its first bundle is chosen by the zero-trip step; true when that step
lands past the phase's end. -/
def Ctx.enter (t : Ctx) (w : Worker) (i : BIndex) : Ctx × Bool :=
  let loops := if w.phase = .iteration then armTemporal w.rcd t.loops else t.loops
  let (j, loops) := zeroTrip 4 i loops
  ({ t with worker := some w, pc := j, loops := loops, nul := false }, j = w.fin + 1 && j != i)

/-- The worker's end: past its last bundle. -/
def Ctx.done (t : Ctx) (w : Worker) : Ctx := { t with worker := some { w with phase := .done }, nul := false }

/-- The epilogue, or the end where there is none (R137). -/
def Ctx.toEpilogue (t : Ctx) (w : Worker) : Ctx :=
  if w.rcd.ev then
    let (t, e) := t.enter { w with phase := .epilogue } w.rcd.epi
    if e then t.done { w with phase := .epilogue } else t
  else t.done w

/-- A worker whose iterations have no stated number (R157): of a stage whose record has trip = 0. -/
def Worker.endless (w : Worker) : Bool := w.stage.isSome && w.rcd.trip = 0

/-- A retirement disarms every level (R139), and so does the end of a prologue (R64). -/
def Ctx.retire (t : Ctx) : Ctx := { t with loops := disarmAll t.loops, changes := [] }

/-- Starts iteration n (R137). An iteration that the zero-trip step takes past kend retires without issuing a bundle (R139);
every later one then does the same, its levels being armed alike, so the last is reached at once; where they have no stated number the
worker stands at its boundary (R157). -/
def Ctx.toIter : Nat → Ctx → Worker → Nat → Ctx
  | 0, t, w, _ => t.toEpilogue w
  | f + 1, t, w, n =>
    if !w.endless && w.iters ≤ n then t.toEpilogue w
    else
      let (t', e) := t.enter (w.atIter n) w.rcd.kernel
      if !e then t'
      else if w.endless then { t'.retire with worker := some { w.atIter n with phase := .waiting } }
      else t'.retire.toIter f w (if f = 1 then w.iters else n + 1)

/-- A worker's first phase (R137). -/
def Ctx.toStart (t : Ctx) (w : Worker) : Ctx :=
  if w.rcd.pv then
    let (t, e) := t.enter { w with phase := .prologue } w.rcd.pro
    if e then t.retire.toIter 3 w 0 else t
  else t.toIter 3 w 0

/-- A context whose worker was to start iteration n of its record has retired one without a bundle (R139). -/
def Ctx.skipped (t : Ctx) (n : Nat) : Bool :=
  match t.worker with
  | none => false
  | some w =>
    match w.phase with
    | .prologue => false
    | .iteration => w.iterNo != n
    | .waiting => true
    | _ => !w.endless && n < w.iters

/-! ## Splitting (R138) -/

/-- Floors and remainders of the largest-remainder split. -/
def splitBase (p q : Nat) (ws : List Nat) : List (Nat × Nat) :=
  ws.map fun w => if q = 0 then (0, 0) else (p * w / q, p * w % q)

/-- Whether worker i is among the k with the largest remainder, lower numbers first among equals. -/
def getsExtra (rs : List Nat) (k i : Nat) : Bool :=
  let r := rs.getD i 0
  let ahead := (List.range rs.length).countP fun j =>
    let q := rs.getD j 0
    r < q || (q = r && j < i)
  ahead < k

/-- The sizes the split gives (R138). -/
def splitSizes (p : Nat) (ws : List Nat) : List Nat :=
  let b := splitBase p ws.sum ws
  let rs := b.map (·.2)
  let left := p - (b.map (·.1)).sum
  (List.range b.length).map fun i => (b.getD i (0, 0)).1 + if getsExtra rs left i then 1 else 0

/-- First point and size of each chunk (R138), from a first point on. -/
def chunksFrom : Nat → List Nat → List (Nat × Nat)
  | _, [] => []
  | f, n :: ns => (f, n) :: chunksFrom (f + n) ns

/-- The chunks of P points over n workers of weight 1 (R138). -/
def chunks (p n : Nat) : List (Nat × Nat) := chunksFrom 0 (splitSizes p (List.replicate n 1))

end Sys2Proof.Machine
end

