-- ==== Sys2Proof/Machine/Bundle.lean ====
section
/-!
DEFINITION. Bundles: fetch (R30, R62, R189), moves and what triggers are made of (R21, R31, R33), the checks that precede a
bundle's data (R340 items 2 to 5), and the look-ahead nullifier (R28).
-/

namespace Sys2Proof.Machine

/-! ## Fetch -/

/-- The window 0 of a context's table (R189). -/
def codeWindow (ws : List Window) : Option Window := ws.find? fun w => w.index = 0

/-- What a bundle cache is to see from a launch's start on (R189): memory, with the frames that hold pages now. -/
def State.codeView (s : State) : CodeView :=
  { mem := s.mem
    frames := s.dies.flatMap fun d => (d.2.frames.filter fun f => f.2.state != .filling).map fun f => (d.1, f.2.page, s.frameAddr d.1 f.1)
    binds := s.dies.flatMap fun d => d.2.binds.map fun b => (d.1, b.1, b.2)
    nvme := s.nvmeMem
    slots := s.slots }

/-- Where a view of memory finds a byte of a page: in the frame that its home held, else in the CXL backing (R191, R201). -/
def CodeView.pa? (v : CodeView) : Loc → Option Nat
  | .phys pa => some pa
  | .page p off home dir _ =>
    let die := match home with
      | some h => some h
      | none => (v.binds.find? fun (b : Nat × PageId × Nat) => b.1 = dir && b.2.1 = p).map fun (b : Nat × PageId × Nat) => b.2.2
    match die.bind fun d => v.frames.find? fun (f : Nat × PageId × Nat) => f.1 = d && f.2.1 = p with
    | some f => some (f.2.2 + off)
    | none =>
      match p with
      | .cxl pa => some (pa + off)
      | _ => none

/-- A byte of the bundle cache's view of memory (R189): of a page that no frame held, it is a byte of its backing (R201), and a page
that has none reads as one not yet written. -/
def CodeView.byte (v : CodeView) (l : Loc) : Byte :=
  match v.pa? l, l with
  | some pa, _ => memGet v.mem pa
  | none, .page (.nvme slot k) off _ _ _ =>
    match chunkOf v.slots slot k with
    | some a => memGet v.nvme (a + off)
    | none => memZero
  | none, _ => memZero

/-- The locations of the 24 bytes of a bundle in window 0, or the trap of its fetch (R62, R189). -/
def State.bundleLocs (s : State) (c : Nat) (w : Worker) (i : BIndex) : Except Trap (List Loc) :=
  match codeWindow w.wins with
  | none => .error { cause := .window, addr := 24 * i.toNat % 2 ^ 48 }
  | some e =>
    let o := 24 * i.toNat
    if e.size < o + 24 then .error { cause := .window, addr := (e.base + Nat.max o e.size) % 2 ^ 48 }
    else if !e.x then .error { cause := .window, addr := (e.base + o) % 2 ^ 48 }
    else
      let ls := (List.range 24).filterMap fun (j : Nat) => e.loc w.launch s.mod c ((e.base + o + j : Nat) : Int)
      if ls.length < 24 then .error { cause := .window, addr := (e.base + o) % 2 ^ 48 } else .ok ls

/-- The bundle at an index of a worker's code window, decoded, or the trap of its fetch: WINDOW, then ECCU (R340 item 2). -/
def State.fetch (s : State) (c : Nat) (w : Worker) (i : BIndex) : Except Trap (List Slot) :=
  match s.bundleLocs c w i with
  | .error t => .error t
  | .ok ls =>
    let bad := (List.range 24).find? fun j =>
      match (ls[j]?).bind w.code.pa? with
      | some pa => s.isBad pa
      | none => false
    match bad with
    | some j =>
      let base := match codeWindow w.wins with | some e => e.base | none => 0
      .error { cause := .eccu, addr := (base + 24 * i.toNat + j) % 2 ^ 48 }
    | none => .ok (decodeBundle (BitVec.ofNat 192 (bytesNat (ls.map w.code.byte))))

/-- A bundle is fetched: single-bit errors in its bytes are corrected and counted (R202). -/
def State.fetched (s : State) (c : Nat) (w : Worker) (i : BIndex) : State :=
  match s.bundleLocs c w i with
  | .ok ls => s.correct (ls.filterMap w.code.pa?)
  | .error _ => s

/-! ## Moves and triggers -/

/-- Whether a waiting operation lets its bundle issue (R23): it does; it does not; it does not, its request having been sent;
or its request is still to be sent, in the first cycle in which nothing else blocks the bundle; or, for one that cannot be taken back, in
the first cycle in which everything else is satisfied (R143, R145, R212, R292); or it does not, and in each cycle in which nothing but such
requests blocks the bundle something is done towards it. -/
inductive Wait where
  | ready
  | block
  | sent
  | send (f : State → State)
  | sendLast (f : State → State)
  | work (f : State → State)

/-- What a trigger of a bundle sees: the core, the context's number, the context as it stands at the start of the cycle, and the
latches together with those its own bundle writes (R18, R19). -/
structure Env where
  c : Nat
  x : Nat
  t0 : Ctx
  lat : Latches
  /-- SAQ places taken by earlier slots of the bundle -/
  ldqf : BitVec 14

/-- A trigger: its unit, its destination code (the order of draws, R59), its weight (R171), how many results of latency above 1
it starts (R17), whether it takes a place in the SAQ, its lookups (R340 item 6), its BREAK (R345), its wait and its effect. -/
structure Trigger where
  unit : Unit10
  code : Nat
  weight : Env → State → Word → Nat := fun _ _ _ => 1
  results : Ctx → Nat := fun _ => 0
  saq : Bool := false
  check : Env → State → VWord → Option Trap := fun _ _ _ => none
  brk : Option (VWord → Trap) := none
  wait : Env → State → VWord → Wait := fun _ _ _ => .ready
  act : Env → State → VWord → State

/-- The queues a move pushes (R36). -/
inductive PushTo where
  | sd | vsd | fsend | fsendh
deriving DecidableEq, Repr

/-- What an active move does (R21). -/
inductive MoveAct where
  | dst (d : Dst)
  | push (q : PushTo)
  | trig (t : Trigger)

/-- A move in its slot. -/
structure Move where
  slot : Nat
  guard : Guard
  src : Src
  act : MoveAct

/-- A move alone, as a row of the table of operations gives it, in slot 0. -/
def soloMove (g : Guard) (s : Src) (a : MoveAct) : Move := { slot := 0, guard := g, src := s, act := a }

/-- The data slots of a source (R33). -/
def srcSlots : Src → Nat
  | .limm24 _ => 1
  | .limm48 _ => 2
  | _ => 0

/-! ## Checks before the data (R340 items 3 to 5) -/

/-- The g register at or above the allotment that a move names: source first, then destination (R9, R33). -/
def Move.regBound (m : Move) (n : Nat) : Option Nat :=
  let chk : Option Nat → Option Nat := fun o => o.bind fun i => if n ≤ i then some i else none
  match chk (srcG m.src) with
  | some i => some i
  | none =>
    match m.act with
    | .dst d => chk (dstG d)
    | _ => none

/-- The destination code of mx.mwr, which only the system context may name (R33, R258). -/
def mwrCode : Nat := 0x31C

/-- A move names mx.mwr. -/
def Move.isMwr (m : Move) : Bool :=
  match m.act with
  | .trig t => t.code = mwrCode
  | _ => false

/-- The checks of one decoded move (R9, R33). -/
def Move.check (m : Move) (n : Nat) (sys : Bool) : Option Trap :=
  match m.regBound n with
  | some i => some { cause := .regbound, slot := m.slot, info := i }
  | none => if m.isMwr && !sys then some { cause := .priv, slot := m.slot } else none

/-- What an active move claims in its bundle (R21, R38, R61): equal claims conflict. -/
inductive Claim where
  | unit (u : Unit10)
  | dst (d : Dst)
  | push (q : PushTo)
deriving DecidableEq, Repr

/-- The codes of call and callr, which also write lr (R61). -/
def isCall (code : Nat) : Bool := code = 0x183 || code = 0x184

/-- The claims of an active move (R21, R38). Two moves to vsd, to fsend or to fsendh name one destination; two moves to sd may stand in one
bundle, as the form that R217 gives amocas holds them. -/
def Move.claims (m : Move) : List Claim :=
  match m.act with
  | .dst d => [.dst d]
  | .push .sd => []
  | .push q => [.push q]
  | .trig t => if isCall t.code then [.unit t.unit, .dst .lr] else [.unit t.unit]

/-- A claim is of one of p1-p15, which a move to pk writes too (R38). -/
def Claim.isPred : Claim → Bool
  | .dst (.p i) => i != 0
  | _ => false

/-- Two claims conflict (R21, R38). -/
def Claim.conflicts (a b : Claim) : Bool :=
  a = b || (a = .dst .pk && b.isPred) || (b = .dst .pk && a.isPred)

/-- The first slot whose active move conflicts with an earlier one (R21, R38). -/
def bundleClash : List Move → List Claim → Option Nat
  | [], _ => none
  | m :: ms, seen =>
    if m.claims.any fun a => seen.any fun b => a.conflicts b then some m.slot else bundleClash ms (seen ++ m.claims)

/-- Results a context would have outstanding at the end of a bundle (R17): those not delivered in it, and those it starts. -/
def outstanding (t : Ctx) (ms : List Move) : Nat :=
  (t.snap.countP fun e => 1 < e.left) + (ms.map fun m => match m.act with | .trig g => g.results t | _ => 0).sum

/-- A trigger of im while a divide is busy, and the slot of it (R17, R53). -/
def imBusy (t : Ctx) (ms : List Move) : Option Nat :=
  if t.divBusy = 0 then none
  else (ms.find? fun m => match m.act with | .trig g => g.unit = .im | _ => false).map (·.slot)

/-! ## The nullifier (R28) -/

/-- A decoded slot that is a move. -/
def slotMove (s : Slot) : Bool := s.guard != 0b10000#5

/-- A destination code of a predicate or of pk (R28, R36). -/
def isPredCode (d : Nat) : Bool := (0x040 ≤ d && d < 0x050) || d = 0x078

/-- Some slot of a bundle is a move to a predicate or to pk (R28 condition 3). -/
def writesPred (ss : List Slot) : Bool := ss.any fun s => slotMove s && isPredCode s.dst

/-- A bundle that the nullifier removes (R28 conditions 1 and 2) under a context's predicates. -/
def allFalse (t : Ctx) (ss : List Slot) : Bool :=
  (ss.any fun s => slotMove s && s.guard != 0) && !(ss.any fun s => slotMove s && t.guard s.guard)

end Sys2Proof.Machine
end

