-- ==== Sys2Proof/Machine/Worker.lean ====
section
/-!
DEFINITION. What the end of a worker does (R140, R349), and what it needs: the event log (R398, R399), progress (R174), tokens
(R236), the cancellation of copies and calls (R245, R259), teams (R142, R143) and stage queues that close (R156).
-/

namespace Sys2Proof.Machine

/-! ## Virtual interfaces and events -/

/-- A virtual interface. -/
def State.vi (s : State) (v : Nat) : VI := tget {} s.vis v

/-- Changes a virtual interface. -/
def State.updVI (s : State) (v : Nat) (f : VI → VI) : State := { s with vis := tset s.vis v (f (s.vi v)) }

/-- An event to be logged (R399). -/
structure Event where
  kind : Nat
  code : Nat := 0
  queue : Nat := 0
  lseq : BitVec 32 := 0
  arg : Nat := 0
  pc : Nat := 0
deriving DecidableEq, Repr

/-- The 32 bytes of an event (R399). -/
def Event.bits (e : Event) (v : Nat) (n : BitVec 32) : Nat :=
  n.toNat + e.kind % 256 * 2 ^ 32 + e.code % 256 * 2 ^ 40 + e.queue % 16 * 2 ^ 48 + v % 64 * 2 ^ 52
    + e.lseq.toNat * 2 ^ 96 + e.arg % 2 ^ 64 * 2 ^ 128 + e.pc % 2 ^ 64 * 2 ^ 192

/-- Logs an event of a VI (R399): the entry is written unless ELSIZE is 0, and ESEQ advances. -/
def State.logEvent (s : State) (v : Nat) (e : Event) : State :=
  let k := s.vi v
  let n := k.eseq + 1
  let a := k.elbase.toNat / 2 ^ 12 * 2 ^ 12 + 32 * (n.toNat % 2 ^ k.elsize.toNat)
  let s := if k.elsize = 0 then s else { s with hostMem := memWrite s.hostMem a (natBytes 32 (e.bits v n)) }
  s.updVI v fun k => { k with eseq := n }

/-- CSEQ after the final events of some accepted packets (R398): it rises while the next number has logged its own. -/
def advanceCseq : Nat → BitVec 32 → List (BitVec 32) → BitVec 32 × List (BitVec 32)
  | 0, c, l => (c, l)
  | n + 1, c, l => if l.contains (c + 1) then advanceCseq n (c + 1) (l.erase (c + 1)) else (c, l)

/-- A packet's final event (R398): CSEQ, and the interrupt its irq bit asked for. -/
def State.finalEvent (s : State) (l : Launch) (e : Event) : State :=
  let s := s.logEvent l.vi { e with queue := l.queue, lseq := l.seq, arg := l.cookie.toNat }
  let s := s.updVI l.vi fun k =>
    let fs := k.finals ++ [l.seq]
    let (c, fs) := advanceCseq fs.length k.cseq fs
    { k with cseq := c, finals := fs }
  if l.irq then { s with irqs := s.irqs ++ [(l.vi, l.vec.toNat)] } else s

/-! ## Launches and progress -/

/-- A running launch by its number. -/
def State.launch? (s : State) (id : Nat) : Option Launch := s.launches.find? fun l => l.id = id

/-- Changes a running launch. -/
def State.updLaunch (s : State) (id : Nat) (f : Launch → Launch) : State :=
  { s with launches := s.launches.map fun l => if l.id = id then f l else l }

/-- A queue's watchdog. -/
def VI.dog (k : VI) (q : Nat) : Watchdog := tget {} k.wd q

/-- Changes a queue's watchdog. -/
def State.updDog (s : State) (v q : Nat) (f : Watchdog → Watchdog) : State :=
  s.updVI v fun k => { k with wd := tset k.wd q (f (k.dog q)) }

/-- The limits that are compared (R177): those that stood before this clk. -/
def Watchdog.lims (w : Watchdog) : Nat × Nat × Nat := w.was.getD (w.l1, w.l2, w.l3)

/-- A watchdog at the start or the restore of a worker of its queue (R176): L1 = 0 keeps it idle. -/
def Watchdog.start (w : Watchdog) : Watchdog := if w.state = .idle && w.lims.1 != 0 then { w with state := .run, count := 0 } else w

/-- Progress as a watchdog takes it (R176): RUN with count 0 from RUN, SUSP and PRE. -/
def Watchdog.progress (w : Watchdog) : Watchdog :=
  match w.state with
  | .run | .susp | .pre => { w with state := .run, count := 0 }
  | _ => w

/-- The state's code in WDSTAT (R177). -/
def WdState.code : WdState → Nat
  | .idle => 0
  | .run => 1
  | .susp => 2
  | .pre => 3
  | .kill => 4
  | .fence => 5

/-- WDSTAT (R177): the count in µs, rounded down, which saturates, and the state. -/
def Watchdog.stat (w : Watchdog) : Word := BitVec.ofNat 64 (Nat.min (w.count / 4000) (2 ^ 32 - 1) * 2 ^ 8 + w.state.code)

/-- A worker of a launch makes progress (R174). -/
def State.progress (s : State) (launch : Nat) : State :=
  match s.launch? launch with
  | some l => s.updDog l.vi l.queue Watchdog.progress
  | none => s

/-! ## Charges (R172) -/

/-- A charge of a launch's worker (R172): at once on the lead die, by message from another. -/
def State.chargeLaunch (s : State) (c launch n : Nat) : State :=
  match s.launch? launch with
  | none => s
  | some l =>
    let lead := ([0, 1, 2, 3, 4, 5, 6, 7].find? fun d => l.rcd.dies.getLsbD d).getD 0
    if n = 0 then s
    else if dieOf c = lead then s.updLaunch launch fun l => { l with charge := l.charge + n }
    else { s with energyMsgs := s.energyMsgs ++ [(launch, n)] }

/-- The current level of a launch (R172). -/
def Launch.level (l : Launch) : Nat :=
  if l.rcd.energy = 0 then l.rcd.prio else l.rcd.prio - 8 * (l.charge / (l.rcd.energy * 2 ^ 20))

/-! ## Workers by number -/

/-- Whether a context holds the worker of a number. -/
def Ctx.isWorker (t : Ctx) (uid : Nat) : Bool := match t.worker with | some w => w.uid = uid | none => false

/-- The core and context that hold a worker that has started. -/
def State.place? (s : State) (uid : Nat) : Option (Nat × Nat) :=
  s.cores.findSome? fun p => ([0, 1, 2, 3].find? fun x => (p.2.ctx x).isWorker uid && !(p.2.ctx x).starting).map fun x => (p.1, x)

/-- Bytes of an image slot (R353). -/
def slotBytes : Nat := 0xA0000

/-- The first byte of an image. -/
def State.imageBase (s : State) (i : Image) : Nat := s.mod * 2 ^ 50 + (s.vi i.vi).spool.1 * 4096 + slotBytes * i.slot

/-- The word of a token (R236). -/
def Token.word (t : Token) : Word :=
  BitVec.ofNat 64 (t.count * 2 ^ 56 + (if t.slow then 2 ^ 55 else 0) + (if t.nf then 2 ^ 54 else 0)
    + t.status * 2 ^ 48 + t.bytes)

/-- The word of a channel (R237). -/
def Channel.word (k : Channel) : Word := BitVec.ofNat 64 (k.head.toNat + if k.running then 2 ^ 48 else 0)

/-- The outstanding counters as an image's header holds them (R355). -/
def Counters.word (n : Counters) : Word :=
  BitVec.ofNat 64 (n.loads % 2 ^ 16 + n.stores % 2 ^ 16 * 2 ^ 16 + n.copies % 2 ^ 16 * 2 ^ 32 + n.tiles % 2 ^ 16 * 2 ^ 48)

/-- What of a saved worker the engines change, as an image holds it: its tokens, its channels, its counters and its copy fault (R236, R244, R354,
R355). flags are the bytes at 0x18 as they stand. -/
def liveParts (t : Ctx) (flags : Nat) : List (Nat × List Byte) :=
  let fault := if t.copyFault.isSome then 2 ^ 21 else 0
  [(0x480, t.tok.toList.flatMap fun k => natBytes 8 k.word.toNat), (0x500, t.chan.toList.flatMap fun k => natBytes 8 k.word.toNat),
   (0x48, natBytes 8 t.cnt.word.toNat), (0x60, natBytes 8 (t.copyFault.getD 0)),
   (0x18, natBytes 8 (flags % 2 ^ 21 + fault + flags / 2 ^ 22 * 2 ^ 22))]

/-- The worker of a number as its context or its image holds it. -/
def State.owner? (s : State) (uid : Nat) : Option Ctx :=
  match s.place? uid with
  | some (c, x) => some (s.ctx c x)
  | none => (s.images.find? fun i => i.uid = uid).bind (·.saved)

/-- Changes the state of a worker wherever it is: in its context, or saved in its image, whose words for what the engines change follow (R236,
R244, R357). -/
def State.updOwner (s : State) (uid : Nat) (f : Ctx → Ctx) : State :=
  match s.place? uid with
  | some (c, x) => s.updCtx c x f
  | none =>
    s.images.foldl (fun (s : State) i =>
      match i.saved with
      | some t =>
        if i.uid = uid then
          let words : List (Nat × List Byte) := liveParts (f t) (memNat s.mem (s.imageBase i + 0x18) 8)
          let s : State := { s with images := s.images.map fun j => if j.uid = uid then { j with saved := some (f t) } else j }
          { s with mem := words.foldl (fun m p => memWrite m (s.imageBase i + p.1) p.2) s.mem }
        else s
      | none => s) s

/-- The launch of a worker, in its context or saved. -/
def State.launchOf (s : State) (uid : Nat) : Option Nat :=
  (s.launches.find? fun l => l.workers.contains uid).map (·.id)

/-! ## Tokens (R236) -/

/-- A token as a command that signals it ends. -/
def Token.done (t : Token) (status bytes : Nat) (slow nf : Bool) : Token :=
  { count := t.count - 1, slow := t.slow || slow, nf := t.nf || nf, status := Nat.max t.status status
    bytes := Nat.min (t.bytes + bytes) (2 ^ 48 - 1) }

/-- A command or call of a context ends: its token, when it has one, and whether a token completed (R134, R236). -/
def Ctx.tokenEnd (t : Ctx) (tok : Option Nat) (status bytes : Nat) (slow nf : Bool) : Ctx :=
  match tok with
  | none => t
  | some i =>
    let k := (vget t.tok i {}).done status bytes slow nf
    { t with tok := vset t.tok i k, tokDone := t.tokDone || (t.hasBlocked && k.count = 0) }

/-- The end of a command or call that signals a token completes it: no other one is pending on it (R174, R236). -/
def State.completes (s : State) (uid : Nat) (tok : Option Nat) : Bool :=
  match tok, s.owner? uid with
  | some i, some t => (vget t.tok i {}).count ≤ 1
  | _, _ => false

/-- The end of a copy command of a core for its context: token and copies counter in the same cycle (R234), and the charge of the bytes it
has moved (R172). -/
def State.copyEnd (s : State) (c : Nat) (m : CopyCmd) (status : Nat) : State :=
  let done := s.completes m.uid m.tok
  let s := s.updOwner m.uid fun t =>
    let t := t.tokenEnd m.tok status m.written m.slow m.nf
    { t with cnt := { t.cnt with copies := t.cnt.copies - 1 } }
  (if done then s.progress m.launch else s).chargeLaunch c m.launch (m.written / 64)

/-- The token of a call: none with nt = 1 (R256). -/
def MatCall.tok (m : MatCall) : Option Nat := if m.t.getLsbD 11 then none else some (m.t.extractLsb' 8 3).toNat

/-- The end of a matrix call for its context: token and tile-operations counter (R262). -/
def State.callEnd (s : State) (m : MatCall) (status : Nat) : State :=
  let done := s.completes m.uid m.tok
  let s := s.updOwner m.uid fun t =>
    let t := t.tokenEnd m.tok status m.bytes m.slow m.nf
    { t with cnt := { t.cnt with tiles := t.cnt.tiles - 1 } }
  if done then s.progress m.launch else s

/-- A command has writes in flight: packets or contributions of a group, or a tile whose stamp it has set busy (R242, R245). -/
def CopyCmd.inFlight (m : CopyCmd) : Bool := 0 < m.owed || m.busy.isSome

/-- Cancels the copy commands that hit selects, on whatever core they are (R245): one with writes in flight makes no further one and ends
once those are performed; the others leave their queues, and their tokens take status 1. -/
def State.abortCopies (s : State) (hit : CopyCmd → Bool) : State :=
  let gone : List (Nat × CopyCmd) := s.cores.flatMap fun p => (p.2.cmds.filter fun m => hit m && !m.inFlight).map fun m => (p.1, m)
  let stop : CopyCmd → CopyCmd := fun m => if hit m then { m with phase := .aborted, todo := [], out := [] } else m
  let s : State := { s with cores := s.cores.map fun p =>
    (p.1, { p.2 with cmds := (p.2.cmds.filter fun m => !(hit m && !m.inFlight)).map stop }) }
  gone.foldl (fun s e => s.copyEnd e.1 e.2 1) s

/-- Cancels the copy commands of a worker that a mask selects, or all of them (R245). -/
def State.cancelCopies (s : State) (uid : Nat) (mask : BitVec 8) (all : Bool) : State :=
  s.abortCopies fun m => m.uid = uid && (all || match m.tok with | some i => mask.getLsbD i | none => false)

/-- Releases what a worker holds of the bank allocator, and its request (R264). -/
def Core.releaseBanks (k : Core) (uid : Nat) : Core :=
  { k with bankRel := k.bankRel ||| tget 0 k.holds uid
           holds := k.holds.filter fun h => h.1 != uid
           bankQ := k.bankQ.filter fun r => r.uid != uid
           bankNew := k.bankNew.filter fun r => r.uid != uid }

/-- The tiles and accumulators of a worker are freed, with its banks (R249, R264). -/
def Core.freeMatrix (k : Core) (uid : Nat) : Core :=
  let lo := uid * 16 * 32768
  let la := uid * 4 * 4096
  { k.releaseBanks uid with tileB := k.tileB.filter fun p => p.1 < lo || lo + 16 * 32768 ≤ p.1
                            accW := k.accW.filter fun p => p.1 < la || la + 4 * 4096 ≤ p.1 }

/-- Cancels the matrix calls that hit selects, on whatever core they are (R259): they end with status 1, but for one that has a tile's stamp
set, which finishes that tile first (R242); the last call of an ended worker frees what that worker held (R405). -/
def State.abortCalls (s : State) (hit : MatCall → Bool) : State :=
  let now : MatCall → Bool := fun m => hit m && m.busy.isNone
  let gone : List MatCall := s.cores.flatMap fun p => p.2.calls.filter now
  let stop : MatCall → MatCall := fun m => if hit m then { m with phase := .ended } else m
  let free : Core → MatCall → Core := fun k m =>
    if m.orphan && (s.place? m.uid).isNone && !(k.calls.any fun n => n.uid = m.uid) then k.freeMatrix m.uid else k
  let s : State := { s with cores := s.cores.map fun p =>
    (p.1, (p.2.calls.filter now).foldl free { p.2 with calls := (p.2.calls.filter fun m => !now m).map stop }) }
  gone.foldl (fun s m => s.callEnd m 1) s

/-- Cancels the matrix calls of a worker that a mask selects, or all of them (R259). -/
def State.cancelCalls (s : State) (uid : Nat) (mask : BitVec 8) (all : Bool) : State :=
  s.abortCalls fun m => m.uid = uid && (all || match m.tok with | some i => mask.getLsbD i | none => false)

/-! ## Teams (R142, R143) -/

/-- The generation advances when every member has arrived at it (R143). -/
def Team.settle (t : Team) : Team :=
  if !t.arrived.isEmpty && t.members.all fun m => t.arrived.contains m then { t with gen := t.gen + 1, arrived := [] } else t

/-- An arrival at a team's barrier. -/
def Team.arrive (t : Team) (uid : Nat) : Team := { t with arrived := t.arrived ++ [uid] }

/-- A departure (R142); a registered arrival goes with it (R349). -/
def Team.depart (t : Team) (uid : Nat) : Team :=
  { t with members := t.members.erase uid, arrived := t.arrived.erase uid }

/-- The generation as a die sees it: its own team's, or what it has been told of the module team's. -/
def Team.seen (t : Team) (die : Nat) : Nat := if t.die.isSome then t.gen else tget 0 t.views die

/-- A worker leaves the teams of its launch, which can complete a barrier at the end of the clk (R142, R143). -/
def Launch.depart (l : Launch) (uid : Nat) : Launch :=
  { l with teams := l.teams.map fun t => t.depart uid
           settle := l.settle.depart uid
           workers := l.workers.erase uid }

/-- Changes a launch's teams; where a die team's generation advances, the workers that wait on its barrier make progress (R174). -/
def State.updTeams (s : State) (id : Nat) (f : Launch → Launch) : State :=
  let gens : State → Option (List Nat) := fun s => (s.launch? id).map fun l => l.teams.map fun t => if t.die.isSome then t.gen else 0
  let s' := s.updLaunch id f
  if gens s = gens s' then s' else s'.progress id

/-- The end of a clk (R143): the generation of each team at which every member has arrived advances, which bundles see from the next on. -/
def State.settleTeams (s : State) : State :=
  (s.launches.map (·.id)).foldl (fun (s : State) id => s.updTeams id fun l => { l with teams := l.teams.map Team.settle }) s

/-- A round of routing is over (R324): every member has arrived and no proposal of its launch is in flight: every one
that is has been sent since the last round was over, a successor of a proposal held from an earlier round among them. -/
def Launch.roundOver (l : Launch) (ps : List Proposal) : Bool :=
  !l.settle.arrived.isEmpty && (l.settle.members.all fun m => l.settle.arrived.contains m)
    && !(ps.any fun p => p.launch = l.id)

/-- A round that is over completes: its dropped tokens are counted, and the heaps' sizes are those of its end (R324, R332). -/
def State.settleRound (s : State) (id : Nat) : State :=
  match s.launch? id with
  | none => s
  | some l =>
    if !l.roundOver s.proposals then s
    else
      let s := s.updLaunch id fun l =>
        { l with settle := { l.settle with gen := l.settle.gen + 1, arrived := [] }, settled := l.dropped, dropped := 0 }
      { s with larder := s.larder.map fun e => (e.1, { e.2 with settledSize := e.2.heap.length }) }

/-! ## Stage queues (R156) -/

/-- Whether a worker of a stage of a pipeline remains: in a context, or saved. -/
def State.stageAlive (s : State) (pipe stage : Nat) : Bool :=
  (s.cores.any fun p => [0, 1, 2, 3].any fun x => match (p.2.ctx x).worker with
    | some w => w.stage = some (pipe, stage)
    | none => false)
  || (s.images.any fun i => match i.saved.bind (·.worker) with
    | some w => w.stage = some (pipe, stage)
    | none => false)

/-- A queue once no worker of a stage is left: closed where the stage produces (R156); where it consumes, the entries that none of its workers
will pop are discarded, their slots being freed as by pops (R140; log 45). -/
def ChanQueue.leave (q : ChanQueue) (stage clk : Nat) : ChanQueue :=
  let q := if q.src = stage then { q with closed := true } else q
  if q.dst = stage then { q with entries := [], gone := q.gone ++ q.entries.map fun _ => clk } else q

/-- The queues of a stage none of whose workers is left. -/
def State.closeStage (s : State) (pipe stage : Nat) : State :=
  if s.stageAlive pipe stage then s
  else { s with pipes := s.pipes.map fun p =>
    if p.id = pipe then { p with queues := p.queues.map fun q => q.leave stage s.clk } else p }

/-! ## The end of a worker -/

/-- An amo request (R217). -/
def LoadReq.isAmo (r : LoadReq) : Bool := match r.op with | .amo .. => true | _ => false

/-- What of the ended worker of context x goes on: its queued and sent stores and amo operations (R140). -/
def Ctx.ghost (t : Ctx) (x : Nat) (killed : Bool) : Ctx :=
  { worker := t.worker, saq := t.saq, sdq := t.sdq, stFlight := t.stFlight, laq := t.laq.filter fun r => r.isAmo
    ldq := t.ldq.filter fun e => !e.landed && e.req.isAmo, seq := t.seq, pushes := t.pushes, claims := t.claims, cnt := t.cnt
    wtSeen := t.wtSeen, owns := t.owns, was := x, killed := killed }

/-- Nothing of a context's stores or amo operations remains to be done. -/
def Ctx.drained (t : Ctx) : Bool := t.saq.isEmpty && t.stFlight.isEmpty && t.laq.isEmpty && t.ldq.isEmpty

/-- What the kill of a worker does to its queues (R349): loads are discarded; a store held by a fault and those behind it are
dropped, the others drain. -/
def Ctx.killQueues (t : Ctx) : Ctx :=
  { t with laq := [], ldq := [], saq := if t.storeFault.isSome || t.drainFirst then [] else t.saq }

/-- The grid objects of a worker as it ends: unbound once their slab reads and fills are done, or at once by a kill (R306). -/
def Die.dropGrids (d : Die) (uid : Nat) (killed : Bool) : Die :=
  { d with grids :=
      if killed then d.grids.filter fun g => g.uid != uid
      else (d.grids.map fun g => if g.uid = uid then { g with closing := true } else g).filter fun g =>
        !(g.closing && g.slabs.isEmpty && g.fills.isEmpty) }

/-- A context after its worker's end (R140): its registers and tokens stand as they are until the next worker's first bundle (R8, R298), and
nothing else of the worker is left. -/
def Ctx.emptied (t : Ctx) : Ctx :=
  { g := t.g, p := t.p, v := t.v, k := t.k, lr := t.lr, pc := t.pc, ctl := t.ctl, lat := t.lat, port := t.port, nregs := t.nregs, tok := t.tok
    chan := t.chan.map fun k => { k with running := false, got := [] } }

/-- The context becomes empty: a worker's end, after which its queued work goes on (R140, R405). A kill releases its banks at once, and its
tiles when the last of its calls is gone (R264). -/
def State.vacate (s : State) (c x uid : Nat) (killed : Bool) : State :=
  let t := s.ctx c x
  let t := if killed then t.killQueues else t
  let s := s.updCore c fun k =>
    let k := if k.calls.any fun m => m.uid = uid then
        let k : Core := { k with calls := k.calls.map fun m => if m.uid = uid then { m with orphan := true } else m }
        if killed then k.releaseBanks uid else k
      else k.freeMatrix uid
    let g := t.ghost x killed
    let k := if g.drained then k else { k with ghosts := k.ghosts ++ [g] }
    k.setCtx x t.emptied
  s.updDie (dieOf c) fun d => d.dropGrids uid killed

/-- A worker ends (R140, R142, R156): its context becomes empty and it leaves its teams. -/
def State.endWorker (s : State) (c x : Nat) (killed : Bool) : State :=
  match (s.ctx c x).worker with
  | none => s
  | some w =>
    let s := if killed then (s.cancelCopies w.uid 0 true).cancelCalls w.uid 0 true else s
    let s := s.abandon (s.ctx c x).awaiting
    let s : State := { s with waiters := s.waiters.filter fun h => h.uid != w.uid }
    let s := s.vacate c x w.uid killed
    let s := (s.updTeams w.launch fun l => l.depart w.uid).settleRound w.launch
    let s := match w.stage with
      | some (p, k) => s.closeStage p k
      | none => s
    { s with images := s.images.filter fun i => i.uid != w.uid }

/-- Logs that a worker was killed (R348, R399): cause, trapping bundle and reported address. -/
def State.logKill (s : State) (w : Worker) (cause : Cause) (pc addr : Nat) : State :=
  match s.launch? w.launch with
  | some l => s.logEvent w.vi { kind := 6, code := cause.code, queue := l.queue, lseq := l.seq, arg := addr, pc := pc }
  | none => s.logEvent w.vi { kind := 6, code := cause.code, arg := addr, pc := pc }

/-- A queue's entry without a saved worker: an entry that held only that one goes. -/
def Launch.unsave (uid : Nat) (l : Launch) : Option Launch :=
  if l.resume = [uid] then none else some { l with resume := l.resume.erase uid }

/-- A saved worker is killed: its image is discarded and its slot freed (R349), with the context it was to be restored in; where its restore
has the stamp of a tensor's tile set, once that tile is finished (R242). -/
def State.endSaved (s : State) (uid : Nat) : State :=
  match s.images.find? fun i => i.uid = uid && i.saved.isSome with
  | none => s
  | some i =>
    let s := match i.saved with
      | some t => (match t.worker with | some w => s.logKill w .wdog t.pc.toNat 0 | none => s)
      | none => s
    let s := s.cancelCopies uid 0 true
    let s := match s.launchOf uid with
      | some l => (s.updTeams l fun k => k.depart uid).settleRound l
      | none => s
    let s : State := { s with dies := s.dies.map fun d => (d.1, d.2.dropGrids uid true) }
    let drop : Ctx → Ctx := fun t => if t.isWorker uid then t.emptied else t
    let busy := match i.loading with | some m => m.busy.isSome | none => false
    let s : State :=
      { s with images := s.images.filterMap fun j => if j.uid != uid then some j else if busy then some { j with saved := none } else none
               cores := s.cores.map fun p =>
                 (p.1, { (if i.begun && p.2.ctxs.any (·.isWorker uid) then p.2.freeMatrix uid else p.2) with ctxs := p.2.ctxs.map drop })
               launchQ := s.launchQ.map fun q => (q.1, q.2.filterMap (Launch.unsave uid)) }
    match i.saved.bind fun t => t.worker.bind (·.stage) with
    | some (p, k) => s.closeStage p k
    | none => s

/-- The launch of a killed worker completes as killed (R349, R399). -/
def State.markKilled (s : State) (launch code : Nat) : State :=
  s.updLaunch launch fun l => { l with killed := Nat.max l.killed code }

/-! ## Kills (R348-R350) -/

/-- Firmware ends a worker with abort effects (R349), its launch completing as killed. -/
def State.kill (s : State) (c x : Nat) (cause : Cause) (pc addr code : Nat) : State :=
  match (s.ctx c x).worker with
  | none => s
  | some w =>
    let s := ((s.logKill w cause pc addr).markKilled w.launch code).endWorker c x true
    s.updCore c fun k => { k with running := if k.running = some x then none else k.running }

/-- The context that a core runs, when it is another than x, is switched out for the system context (R25, R348). -/
def Core.displace (k : Core) (x : Nat) : Core :=
  match k.running with
  | some y => if y < 4 && y != x then k.setCtx y (k.ctx y).switchOut else k
  | none => k

/-- The WDOG of a worker in a context (R341, R350): a trap that goes to the system context, which ends the worker when it returns; a worker
that is in the system context takes it when that handler returns. n is what its entry leaves the core to pay. -/
def State.takeWdog (s : State) (c x n : Nat) : State :=
  let t := s.ctx c x
  if t.killReq.isSome && t.sys.isNone && t.worker.isSome then (s.updCore c fun k => k.displace x).takeTrap c x { cause := .wdog } n else s

/-- A bundle has asked for the close of a scope on another die, its last request: it issues once that is answered, and takes no fault that
arises meanwhile, so that no trapping bundle has closed a scope (R145). -/
def Ctx.closing (t : Ctx) : Bool := t.awaiting.any fun a => a.code = 0x34C

/-- That close has been answered, and so made: the bundle is about to commit. -/
def Ctx.closed (t : Ctx) : Bool := t.awaiting.any fun a => a.code = 0x34C && a.reply.isSome

/-- WDOG is delivered at once to a context that its core does not run, or whose bundle is blocked (R350); to one whose close of a scope is
made, after its bundle. -/
def State.wdogNow (s : State) (c x : Nat) : State :=
  if ((s.core c).running != some x || (s.ctx c x).hasBlocked) && !(s.ctx c x).closed then s.takeWdog c x 6 else s

/-- A kill is requested of the workers that hit selects (R350): the saved ones end at once, the others take WDOG, those that run at their
next bundle boundary. -/
def State.requestKill (s : State) (hit : Worker → Bool) (code : Nat) : State :=
  let mine : Ctx → Bool := fun t => match t.worker with | some w => hit w | none => false
  let saved := (s.images.filter fun i => match i.saved with | some t => mine t | none => false).map (·.uid)
  let s := saved.foldl State.endSaved s
  let s : State := { s with cores := s.cores.map fun p =>
    (p.1, { p.2 with ctxs := p.2.ctxs.map fun t => if mine t then { t with killReq := some code } else t }) }
  let at' : List (Nat × Nat) := s.cores.flatMap fun p => ([0, 1, 2, 3].filter fun x => mine (p.2.ctx x)).map fun x => (p.1, x)
  at'.foldl (fun (s : State) p => s.wdogNow p.1 p.2) s

end Sys2Proof.Machine
end

