-- ==== Sys2Proof/Machine/Load.lean ====
section
/-!
DEFINITION. What a core holds of a record's kernel while a worker runs it: its loop table (R64), its routines (R260, R261) and its window
table (R185-R187), with PART (R395), the freeze of a virtual interface (R360, R399), and the handles of a stage (R153).
-/

namespace Sys2Proof.Machine

/-! ## What the loader knows of a kernel (R64, R261) -/

/-- A level as its entry of the loop table says it: the reserved bits are ignored (R64). -/
def LoopLevel.ofBits (b : BitVec 128) : LoopLevel :=
  { first := b.extractLsb' 0 47, last := b.extractLsb' 64 47, valid := b.getLsbD 63 }

/-- The levels of a kernel, level 0 first, as a launch loads them: none is armed (R64). -/
def KernelInfo.loops (k : KernelInfo) : Vector LoopLevel 4 := Vector.ofFn fun i => LoopLevel.ofBits (k.ltab.extractLsb' (128 * i.val) 128)

/-- What the loader knows of a record's kernel (R64, R261; log 46). -/
def State.kernelOf (s : State) (r : LoopRec) : Option KernelInfo := s.kernels.find? fun k => k.wtab = r.wtab && k.kernel = r.kernel

/-! ## Routines (R260, R261) -/

/-- The key of a context's table entry: 0 to 63 are shared. -/
def routineKey (ctx idx : Nat) : Nat := if idx < 64 then idx else 64 + 192 * ctx + (idx - 64)

/-- An entry as it is loaded: a banks field of 0 or above 16 makes it invalid (R260). -/
def routineLoad (w : Word) : Word :=
  let n := (w.extractLsb' 23 5).toNat
  if n = 0 || 16 < n then w &&& ~~~1#64 else w

/-- Firmware loads a kernel's routines into a context's region and table entries; those not defined are invalid (R261). -/
def Core.loadRoutines (k : Core) (x : Nat) (i : Option KernelInfo) : Core :=
  let tab := k.rtab.filter fun e => !(64 + 192 * x ≤ e.1 && e.1 < 64 + 192 * x + 192)
  let new : List (Nat × Word) := match i with | some i => i.table.map fun e => (routineKey x e.1, routineLoad e.2) | none => []
  let words : List (Nat × Word) := match i with | some i => i.store.map fun e => (1024 + 768 * x + e.1 % 768, e.2) | none => []
  { k with rtab := new.foldl (fun t e => tset t e.1 e.2) tab, mstore := words.foldl (fun t e => tset t e.1 e.2) k.mstore }

/-! ## Freezing (R360) -/

/-- The channels of a context stop. -/
def Ctx.quiet (t : Ctx) : Ctx := { t with chan := t.chan.map fun k => { k with running := false } }

/-- The copy commands and channels of a virtual interface end as by cabt with t[8] = 1 (R245), those of its saved workers among them. -/
def State.cancelVICopies (s : State) (v : Nat) : State :=
  let s : State := { s with cores := s.cores.map fun p =>
    (p.1, { p.2 with ctxs := p.2.ctxs.map fun t => if t.vi = v then t.quiet else t }) }
  let saved := (s.images.filter fun i => i.vi = v && i.saved.isSome).map (·.uid)
  (saved.foldl (fun (s : State) u => s.updOwner u Ctx.quiet) s).abortCopies fun m => m.vi = v

/-- The matrix calls of a virtual interface end as by mabt with t[8] = 1 (R259), those of its saved workers among them. -/
def State.cancelVICalls (s : State) (v : Nat) : State :=
  let gone : List MatCall := (s.images.filter fun i => i.vi = v && i.saved.isSome).flatMap (·.calls)
  let s : State := { s with images := s.images.map fun i => if i.vi = v && i.saved.isSome then { i with calls := [] } else i }
  (gone.foldl (fun (s : State) m => s.callEnd m 1) s).abortCalls fun m => m.vi = v

/-- A pre-emption request on a virtual interface's workers is withdrawn (R360): the slots reserved are freed. -/
def State.withdraw (s : State) (v : Nat) : State :=
  let calm : Ctx → Ctx := fun t => if t.vi = v then { t with preempt := false, saving := false } else t
  { s with cores := s.cores.map fun p => (p.1, { p.2 with ctxs := p.2.ctxs.map calm })
           images := s.images.filter fun i => i.vi != v || i.saved.isSome || i.loading.isSome || i.fresh
           launches := s.launches.map fun l => if l.vi = v then { l with preempting := false } else l }

/-- A virtual interface freezes (R360): its contexts stop where they stand and a core that runs one is left without a running
context; copies and calls are cancelled and pre-emption requests withdrawn. -/
def State.freeze (s : State) (v : Nat) : State :=
  let cold : Ctx → Ctx := fun t => if t.worker.isSome && t.vi = v then { t with frozen := true } else t
  let s : State := { s with cores := s.cores.map fun p =>
    let k : Core := { p.2 with ctxs := p.2.ctxs.map cold }
    (p.1, match k.running with
      | some x => if (k.ctx x).frozen then { k with running := none } else k
      | none => k) }
  (((s.cancelVICopies v).cancelVICalls v).withdraw v).updVI v fun k => { k with frozen := true }

/-- A tenant violation (R399): the code goes into vcause and a kind-7 event, and the interface freezes; one that is frozen already
stays as it is. -/
def State.violate (s : State) (v code : Nat) : State :=
  if (s.vi v).frozen then s
  else ((s.updVI v fun k => { k with vcause := BitVec.ofNat 8 code }).logEvent v { kind := 7, code := code }).freeze v

/-! ## PART (R395, R399) -/

/-- The ranges of an interface's PART registers: first byte and length. -/
def VI.parts (k : VI) : List (Nat × Nat) :=
  k.part.map fun p => ((p.2.extractLsb' 21 35).toNat * 2 ^ 21, (p.2.extractLsb' 64 35).toNat * 2 ^ 21)

/-- A run of bytes lies in the union of some ranges. -/
def covered (rs : List (Nat × Nat)) : Nat → Nat → Nat → Bool
  | 0, lo, hi => hi ≤ lo
  | f + 1, lo, hi =>
    if hi ≤ lo then true
    else
      match rs.find? fun r => r.1 ≤ lo && lo < r.1 + r.2 with
      | some r => covered rs f (r.1 + r.2) hi
      | none => false

/-- The runs of HBM and CXL bytes that a window targets: a first-touch page is taken from the frames of its die, an NVMe page from its
slot, and neither is a target. -/
def Window.targets (w : Window) (mod : Nat) : List (Nat × Nat) :=
  let pa := w.targetPa
  if w.nvme && w.paged then []
  else if w.place = 2 && !w.paged then []
  else if paRegion pa = 1 then []
  else if w.place = 1 then (List.range 8).map fun d => (mod * 2 ^ 50 + d * 2 ^ 37 + pa % 2 ^ 37, w.size / 8)
  else [(pa, w.size)]

/-- A window of an interface leaves its PART ranges: interface 0 is never confined. -/
def State.outsidePart (s : State) (v : Nat) (w : Window) : Bool :=
  v != 0 && (w.targets s.mod).any fun t => !covered (s.vi v).parts (8 * s.rctl.nmod.toNat + 8) t.1 (t.1 + t.2)

/-! ## Loading a record -/

/-- The handles of a stage's worker (R153): its queues in ascending number. -/
def stageHandles (qs : List ChanQueue) (stage : Nat) : Vector (Option Handle) 4 :=
  let l := (List.range qs.length).filterMap fun i =>
    match qs[i]? with
    | some q => if q.src = stage then some { queue := i, output := true }
      else if q.dst = stage then some { queue := i, output := false } else none
    | none => none
  Vector.ofFn fun i => l[i.val]?

/-- The handles that a worker's stage binds (R153). -/
def State.handlesOf (s : State) (w : Worker) : Vector (Option Handle) 4 :=
  match w.stage with
  | some (p, k) => match s.pipes.find? fun q => q.id = p with | some q => stageHandles q.queues k | none => Vector.replicate 4 none
  | none => Vector.replicate 4 none

/-- A worker with the window table that its record names (R185). -/
def State.withTable (s : State) (w : Worker) : Worker := { w with wins := (s.copyTable w.rcd.wtab).1 }

/-- A window of a worker's table leaves the PART ranges of its interface, which is found at the copy: a violation (R395, R399). -/
def State.checkPart (s : State) (w : Worker) : State :=
  if w.wins.any fun v => s.outsidePart w.vi v then s.violate w.vi 3 else s

/-- The events of windows loaded invalid (R187). -/
def State.logWindows (s : State) (l : Launch) (bad : List Nat) : State :=
  bad.foldl (fun (s : State) i => s.logEvent l.vi { kind := 5, queue := l.queue, lseq := l.seq, arg := i }) s

/-- A context takes up the record of a worker of a launch (R64, R153, R160, R185-R187, R261): its window table, its kernel's loop table, its
stage's handles, its kernel's routines; windows loaded invalid are logged. -/
def State.takeUp (s : State) (c x : Nat) (w : Worker) (l : Launch) : State :=
  let i := s.kernelOf w.rcd
  let loops : Vector LoopLevel 4 := match i with | some i => i.loops | none => Vector.replicate 4 {}
  let s' := s.updCtx c x fun t => { t with worker := some (s.withTable w), loops := loops, handles := s.handlesOf w }
  (s'.updCore c fun k => k.loadRoutines x i).logWindows l (s.copyTable w.rcd.wtab).2

end Sys2Proof.Machine
end

