-- ==== Sys2Proof/Machine/Walk.lean ====
section
/-!
DEFINITION. What happens at an iteration boundary (R139, R157, R160, R329, R351), with the scopes (R144, R150) and the block walk
(R326-R330) it acts on.
-/

namespace Sys2Proof.Machine

/-! ## Bytes at virtual addresses, for engines -/

/-- The physical byte of a virtual address under a window table. -/
def State.vaPa (s : State) (ws : List Window) (launch c : Nat) (va : Int) : Option Nat :=
  (Machine.locate ws launch s.mod c va).bind s.resolve

/-- The n-byte number at a virtual address, read at its home by an engine; bytes that lie nowhere read as zero. -/
def State.vaNat (s : State) (ws : List Window) (launch c : Nat) (va n : Nat) : Nat :=
  bytesNat ((List.range n).map fun i =>
    match s.vaPa ws launch c ((va + i : Nat) : Int) with
    | some pa => memGet s.mem pa
    | none => memZero)

/-- An engine of a core's die writes the bits of a mask in the n bytes at a virtual address: bytes that lie in no window are skipped, those
of a page that is not resident wait for it (R196). -/
def State.vaMask (s : State) (ws : List Window) (launch c : Nat) (va n mask v : Nat) : State :=
  s.engineWrites ((List.range n).filterMap fun i =>
    (Machine.locate ws launch s.mod c ((va + i : Nat) : Int)).map fun l =>
      { die := dieOf c, loc := l, mask := BitVec.ofNat 8 (mask >>> (8 * i)), val := BitVec.ofNat 8 (v >>> (8 * i)) })

/-- An engine of a core's die writes the bytes of a number at a virtual address. -/
def State.vaPut (s : State) (ws : List Window) (launch c : Nat) (va n v : Nat) : State :=
  s.vaMask ws launch c va n (2 ^ (8 * n) - 1) v

/-! ## Finish scopes (R144, R150) -/

/-- The nil scope id that the device writes. -/
def nilScope : BitVec 16 := 0x0800

/-- A scope id's fields (R144). -/
def scopeNil (id : BitVec 16) : Bool := id.getLsbD 11
def scopeDie (id : BitVec 16) : Nat := (id.extractLsb' 8 3).toNat
def scopeEntry (id : BitVec 16) : Nat := (id.extractLsb' 0 8).toNat
def scopeGen (id : BitVec 16) : BitVec 4 := id.extractLsb' 12 4

/-- The entry an id names. -/
def State.scope (s : State) (id : BitVec 16) : Scope := tget {} (s.die (scopeDie id)).scopes (scopeEntry id)

/-- Changes the entry an id names. -/
def State.updScope (s : State) (id : BitVec 16) (f : Scope → Scope) : State :=
  s.updDie (scopeDie id) fun d => { d with scopes := tset d.scopes (scopeEntry id) (f (tget {} d.scopes (scopeEntry id))) }

/-- An id is live while its entry is valid with its generation (R144). -/
def State.scopeLive (s : State) (id : BitVec 16) : Bool :=
  !scopeNil id && (s.scope id).valid && (s.scope id).gen = scopeGen id

/-- A decrement applied at its scope's table (R150): the owner makes progress, wherever it stands (R174). Whether the count has reached 0 is asked at the end
of the clk, when all that reaches the entry in it has been applied (State.scopesEnd). -/
def State.applyDec (s : State) (id : BitVec 16) : State :=
  if !s.scopeLive id then s
  else
    let e := s.scope id
    let s := match s.launchOf e.uid with
      | some l => s.progress l
      | none => s
    s.updScope id fun e => { e with pending := e.pending - 1 }

/-- Something of a die counts out of a scope (R150): at once on its own die, by message elsewhere. -/
def State.countOut (s : State) (die : Nat) (id : BitVec 16) : State :=
  if scopeNil id then s
  else if scopeDie id = die then s.applyDec id
  else { s with scopeDecs := s.scopeDecs ++ [id] }

/-- A scope whose count has reached 0 completes (R150): its entry becomes invalid, and its live parent is decremented, by message when it is
on another die. -/
def State.scopeDone (s : State) (die entry : Nat) : State :=
  let e := tget ({} : Scope) (s.die die).scopes entry
  let s := s.updDie die fun d => { d with scopes := tset d.scopes entry { e with valid := false, isOpen := false } }
  s.countOut die e.parent

/-- The scopes whose counts are 0, by die and entry. -/
def State.emptyScopes (s : State) : List (Nat × Nat) :=
  s.dies.flatMap fun d => (d.2.scopes.filter fun e => e.2.valid && e.2.pending = 0).map fun e => (d.1, e.1)

/-- The zero test of a clk (R150): scopes at 0 complete, then parents that this takes to 0; parents form a chain of at most 2,048. -/
def State.scopesEnd : Nat → State → State
  | 0, s => s
  | n + 1, s =>
    match s.emptyScopes with
    | [] => s
    | l => (l.foldl (fun (s : State) e => s.scopeDone e.1 e.2) s).scopesEnd n

/-! ## Experts and block walks -/

/-- A Larder entry. -/
def State.expert (s : State) (e : Nat) : Expert := tget {} s.larder e

/-- The die and the frames of an entry's slot (R315). -/
def Expert.die (e : Expert) : Nat := e.res / 2 ^ 16
def Expert.coversFrame (e : Expert) (d i : Nat) : Bool := e.die = d && e.res % 2 ^ 16 ≤ i && i ≤ e.res % 2 ^ 16 + e.size

/-- The RESIDENT frames of a die that back a page under a slot whose entry is pinned become PINNED (R199, R318); the pins of a PINNED one that
have fallen to 0 free it at the clk's end. -/
def State.pinFrames (s : State) (d : Nat) : State :=
  s.updDie d fun k => { k with frames := k.frames.map fun f =>
    let n := (s.larder.map fun p => if p.2.state = 2 && p.2.coversFrame d f.1 then p.2.pins else 0).sum
    (f.1, match f.2.state with
      | .resident => if 0 < n then { f.2 with state := .pinned, pins := n } else f.2
      | .pinned => { f.2 with pins := n }
      | _ => f.2) }

/-- A PINNED frame whose pins have fallen to 0 is RESIDENT. -/
def Frame.unpin (f : Frame) : Frame := if f.state = .pinned && f.pins = 0 then { f with state := .resident } else f

/-- The pins that have fallen to 0 in a clk: the last of its events at a frame (R199). -/
def State.unpinFrames (s : State) : State :=
  { s with dies := s.dies.map fun d => (d.1, { d.2 with frames := d.2.frames.map fun f => (f.1, f.2.unpin) }) }

/-- Pins raised by n (R331): a 16-bit sum (R5). -/
def Expert.pinBy (e : Expert) (n : Nat) : Expert := { e with pins := (e.pins + n) % 2 ^ 16 }

/-- Changes a Larder entry, and with it the pins of the frames under its slot. -/
def State.updExpert (s : State) (e : Nat) (f : Expert → Expert) : State :=
  let s : State := { s with larder := tset s.larder e (f (s.expert e)) }
  s.pinFrames (s.expert e).die

/-- A walk by its number. -/
def State.walk? (s : State) (id : Nat) : Option Walk := s.walks.find? fun w => w.id = id

/-- Changes a walk. -/
def State.updWalk (s : State) (id : Nat) (f : Walk → Walk) : State :=
  { s with walks := s.walks.map fun w => if w.id = id then f w else w }

/-- The virtual address of a record of a walk (R325, R326). -/
def Walk.recVa (w : Walk) (i : Nat) : Nat := w.header + 64 + 32 * i

/-- Sets st and ferr of a record: byte 6 holds st in [1:0] and ferr in [2] (R326). -/
def State.setBlockSt (s : State) (w : Walk) (i st : Nat) (ferr : Bool) : State :=
  s.vaMask w.wins w.launch w.emitter (w.recVa i + 6) 1 7 (st + if ferr then 4 else 0)

/-- The expert of a record, as emitted (R326). -/
def Walk.expertAt (w : Walk) (i : Nat) : Nat := ((w.emitted.getD i 0).extractLsb' 0 13).toNat

/-- Raises done of a walk's header, bytes 4 and 5 (R325). -/
def State.bumpDone (s : State) (w : Walk) : State := s.vaPut w.wins w.launch w.emitter (w.header + 4) 2 (w.done + 1)

/-- A walk whose done has reached nrec counts out of its scope and is over (R327). -/
def State.walkDone (s : State) (id : Nat) : State :=
  match s.walk? id with
  | some w =>
    if w.done < w.nrec then s
    else
      let s := { s with walks := s.walks.filter fun v => v.id != id }
      s.countOut w.die w.scope
  | none => s

/-- A block of a walk retires (R329): st 3, done and pins. -/
def State.retireBlock (s : State) (id i : Nat) : State :=
  match s.walk? id with
  | none => s
  | some w =>
    let s := (s.setBlockSt w i 3 false).bumpDone w
    let s := s.updExpert (w.expertAt i) fun k => { k with pins := k.pins - 1 }
    s.updWalk id fun w => { w with done := w.done + 1, active := w.active - 1 }

/-- Whether a walk still holds blocks for a worker of a batch and a core: to dispatch, parked ones included, or on their way (R328, R329). -/
def Walk.owes (w : Walk) (batch c : Nat) : Bool := w.batch = batch && (w.order ++ w.parked ++ w.noNode ++ w.arriving).any fun b => b.core = c

/-- The walk of a worker still holds blocks of the worker's core, undispatched or parked (R328, R329). -/
def State.owed (s : State) (p : WalkPart) : Bool := match s.walk? p.walk with | some k => k.owes p.batch p.core | none => false

/-- A worker at a boundary waits for a dispatch: none has arrived and its walk owes it one (R329). -/
def State.awaits (s : State) (p : WalkPart) : Bool := p.next.isEmpty && s.owed p

/-! ## The boundary -/

/-- The queue of a handle bound as input is ended: closed and empty (R156). -/
def State.inputEnded (s : State) (w : Worker) (h : Option Handle) : Bool :=
  match h, w.stage with
  | some k, some (p, _) =>
    if k.output then true
    else match (s.pipes.find? fun q => q.id = p).bind fun q => q.queues[k.queue]? with
      | some q => q.closed && q.entries.isEmpty
      | none => true
  | _, _ => true

/-- Every input handle that a stage's worker has bound is ended (R157). -/
def State.inputsEnded (s : State) (c x : Nat) (w : Worker) : Bool := (s.ctx c x).handles.toList.all fun h => s.inputEnded w h

/-- A worker starts iteration n (R137), or its first phase: one that retires without a bundle is progress (R139, R174). -/
def State.toIter (s : State) (c x : Nat) (w : Worker) (n : Nat) : State :=
  let s := s.updCtx c x fun t => t.toIter 3 w n
  if (s.ctx c x).skipped n then s.progress w.launch else s
def State.toStart (s : State) (c x : Nat) (w : Worker) : State :=
  let s := s.updCtx c x fun t => t.toStart w
  if (s.ctx c x).skipped 0 then s.progress w.launch else s

/-- Starts the next dispatched block of a walk's worker, waits for one, or runs its epilogue when none is owed (R328, R329); an
iteration that retires without a bundle retires its block, and is progress (R174). -/
def State.nextBlock : Nat → State → Nat → Nat → Worker → State
  | 0, s, _, _, _ => s
  | f + 1, s, c, x, w =>
    match w.walk with
    | none => s
    | some p =>
      match p.next with
      | b :: rest =>
        let w' := { w with phase := .iteration, walk := some { p with block := some b, next := rest } }
        let (t, e) := (s.ctx c x).enter w' w.rcd.kernel
        if !e then s.setCtx c x t
        else
          let s := ((s.setCtx c x t.retire).retireBlock p.walk b).progress w.launch
          (s.walkDone p.walk).nextBlock f c x { w' with walk := some { p with block := none, next := rest } }
      | [] =>
        if s.owed p then s.updCtx c x fun t => { t with worker := some { w with phase := .waiting }, nul := false }
        else s.updCtx c x fun t => t.toEpilogue w

/-- The next phase of a worker past a boundary (R137, R157, R160, R329). -/
def State.nextPhase (s : State) (c x : Nat) (w : Worker) : State :=
  match w.walk with
  | some p =>
    match w.phase with
    | .epilogue => s.updCtx c x fun t => t.done w
    | .prologue => s.nextBlock (p.next.length + 1) c x w
    | _ =>
      let s := match p.block with
        | some b => (s.retireBlock p.walk b).walkDone p.walk
        | none => s
      s.nextBlock (p.next.length + 1) c x { w with walk := some { p with block := none } }
  | none =>
    match w.phase, w.stage with
    | .epilogue, _ => s.updCtx c x fun t => t.done w
    | .done, _ => s
    | .prologue, _ => s.toIter c x w 0
    | _, some _ =>
      if w.endless && s.inputsEnded c x w then s.updCtx c x fun t => t.toEpilogue w
      else s.toIter c x w (w.it + 1)
    | _, none => s.toIter c x w (w.iterNo + 1)

/-- A pending stage move takes effect at a boundary (R160): the worker takes up the receiver's record and starts it; a donor that has no
worker left has ended (R156). -/
def State.stageMove (s : State) (c x : Nat) (w : Worker) (p k : Nat) : State :=
  match s.pipes.find? fun q => q.id = p, s.launch? w.launch with
  | some q, some l =>
    let w' := s.withTable { w with rcd := q.recs.getD k w.rcd, stage := some (p, k), move := none, it := 0 }
    let s := ((s.takeUp c x w' l).toStart c x w').checkPart w'
    match w.stage with
    | some (_, d) => s.closeStage p d
    | none => s
  | _, _ => s

/-- A move still stands: neither its donor nor its receiver has ended or closed an output (R160). -/
def State.moveOk (s : State) (w : Worker) (p k : Nat) : Bool :=
  match s.pipes.find? fun q => q.id = p with
  | none => false
  | some q =>
    let ok : Nat → Bool := fun k => s.stageAlive p k && !(q.queues.any fun u => u.src = k && u.closed)
    ok k && match w.stage with | some (_, k) => ok k | none => false

/-- What follows an iteration boundary (R160, R351): a pending stage move or the next phase; a requested pre-emption stops the worker
there. -/
def State.passBoundary (s : State) (c x : Nat) (w : Worker) : State :=
  let s := match w.move, w.phase with
    | some (p, k), .iteration | some (p, k), .waiting =>
      if s.moveOk w p k then s.stageMove c x w p k else s.nextPhase c x { w with move := none }
    | _, _ => s.nextPhase c x w
  s.updCtx c x fun t =>
    let ended := match t.worker with | some w => w.phase = .done | none => true
    if t.preempt && !ended then { t with saving := true, preempt := false } else t

/-- An iteration boundary of a context (R139, R351), and the end of a prologue or an epilogue: levels are disarmed (R64), and the worker
makes progress when an iteration retires. -/
def State.atBoundary (s : State) (c x : Nat) : State :=
  match (s.ctx c x).worker with
  | none => s
  | some w =>
    let s := s.updCtx c x Ctx.retire
    (if w.phase = .iteration then s.progress w.launch else s).passBoundary c x w

/-- A worker that stands at a boundary waits there: of a block walk, for a dispatch (R329); of a stage whose iterations issue no bundle, for
its inputs' end (R157) or a move (R160). -/
def State.waitsThere (s : State) (c x : Nat) (w : Worker) : Bool :=
  match w.walk with
  | some p => s.awaits p
  | none => w.move.isNone && !s.inputsEnded c x w

end Sys2Proof.Machine
end

