-- ==== Sys2Proof/Machine/Issue.lean ====
section
/-!
DEFINITION. The issue of a bundle (R19-R23, R340): pops and their data (R86, R87, R155), lookups and pending faults, blocks,
the limiter (R179-R181), and the commit: pops, latches, triggers, registers, deliveries and the fetch decision.
-/

namespace Sys2Proof.Machine

/-! ## Pops -/

/-- How far the pops of a bundle have taken its queues, with SEED and the flags as they convert (R21, R79, R87). -/
structure PopSt where
  ldq : Nat := 0
  frecv : Nat := 0
  /-- entries taken by (pipeline, queue) -/
  q : List ((Nat × Nat) × Nat) := []
  seed : Word
  nfs : Bool := false
deriving DecidableEq, Repr

/-- What a move's source gives: its queue has too few entries; a trap; or a value. -/
inductive PopRes where
  | wait
  | trap (t : Trap)
  | val (v : VWord)
deriving DecidableEq, Repr

/-- The bytes of an LDQ entry as a number: what has been read, zeros elsewhere (R114). -/
def LdqEntry.data (e : LdqEntry) : Nat :=
  bytesNat ((List.range e.req.len).map fun i => (e.got.lookup i).getD 0)

/-- The grid handle of a step-checked load, for the trap word (R343). -/
def LdqEntry.gridInfo (e : LdqEntry) : Nat := match e.req.op with | .ldh _ h _ => h.toNat | _ => 0

/-- The check of an unmarked or marked entry, number i of the LDQ, at its pop (R87). -/
def LdqEntry.popTrap (e : LdqEntry) (vec : Bool) (i : Nat) : Option Trap :=
  match e.mark with
  | some m =>
    some { cause := m.cause, addr := m.addr, entry := some i, info := if m.cause = .stalehalo then e.gridInfo else 0 }
  | none => if e.req.vec != vec || (vec && vecSinkBad e.req.pair) then some { cause := .qkind } else none

/-- The queue that a handle pops, when it is bound as input (R153). -/
def State.inQueue (s : State) (t : Ctx) (h : Nat) : Option ((Nat × Nat) × ChanQueue) :=
  match vget t.handles h none, t.worker.bind (·.stage) with
  | some k, some (p, _) =>
    if k.output then none
    else ((s.pipes.find? fun q => q.id = p).bind fun q => q.queues[k.queue]?).map fun q => ((p, k.queue), q)
  | _, _ => none

/-- Entries of a queue already taken by earlier slots. -/
def PopSt.taken (p : PopSt) (k : Nat × Nat) : Nat := (p.q.lookup k).getD 0

/-- One more entry of a queue taken. -/
def PopSt.takeQ (p : PopSt) (k : Nat × Nat) : PopSt :=
  { p with q := (k, p.taken k + 1) :: p.q.filter fun e => e.1 != k }

/-- A pop of a stage queue (R155). A pop that finds its queue closed, and every entry of it taken by earlier slots of the bundle, finds it
ended (log 45). -/
def State.popStage (s : State) (t : Ctx) (p : PopSt) (h : Nat) (vec : Bool) : PopRes × PopSt :=
  match s.inQueue t h with
  | none => (.val 0, p)
  | some (k, q) =>
    match q.entries[p.taken k]? with
    | none => (if q.closed then .val 0 else .wait, p)
    | some e =>
      if !e.visible then (.wait, p)
      else if e.vec != vec || (vec && vecSinkBad e.pair) then (.trap { cause := .qkind }, p.takeQ k)
      else
        let r := if vec then popVector e.data.toNat e.len e.pair t.ctl.rm p.seed
          else popScalar (e.data.toNat % 2 ^ (8 * e.len)) e.pair t.ctl.rm p.seed
        (.val r.val, { p.takeQ k with seed := r.seed, nfs := p.nfs || r.nfs })

/-- A pop of the LDQ: only entries whose predecessors have landed are present (R116). -/
def popLdq (t : Ctx) (p : PopSt) (vec : Bool) : PopRes × PopSt :=
  if (t.ldq.take (p.ldq + 1)).length ≤ p.ldq || (t.ldq.take (p.ldq + 1)).any fun e => !e.landed then (.wait, p)
  else
    match t.ldq[p.ldq]? with
    | none => (.wait, p)
    | some e =>
      match e.popTrap vec p.ldq with
      | some tr => (.trap tr, { p with ldq := p.ldq + 1 })
      | none =>
        let r := if vec then popVector e.data e.req.len e.req.pair t.ctl.rm p.seed
          else popScalar e.data e.req.pair t.ctl.rm p.seed
        (.val r.val, { p with ldq := p.ldq + 1, seed := r.seed, nfs := p.nfs || r.nfs })

/-- What the source of an active move gives (R19, R21). -/
def State.readSrc (s : State) (t : Ctx) (p : PopSt) : Src → PopRes × PopSt
  | .ldq => popLdq t p false
  | .vldq => popLdq t p true
  | .frecv =>
    match t.recvF[p.frecv]? with
    | some w => (.val (w.zeroExtend 2048), { p with frecv := p.frecv + 1 })
    | none => (.wait, p)
  | .qp h => s.popStage t p h.toNat false
  | .qv h => s.popStage t p h.toNat true
  | src => (.val (t.source src), p)

/-- What the sources of the active moves give, in slot order. -/
def State.readAll (s : State) (t : Ctx) : PopSt → List Move → List (Move × PopRes) × PopSt
  | p, [] => ([], p)
  | p, m :: ms =>
    let (r, p) := s.readSrc t p m.src
    let (rs, p) := s.readAll t p ms
    ((m, r) :: rs, p)

/-! ## The examination of a bundle -/

/-- A move with the value of its source. -/
abbrev Valued := Move × VWord

/-- The latches with those a bundle writes (R18): the control word of a tile outside the mask is not written (R251). -/
def mergeLatches (tiles : BitVec 16) (l : Latches) (vs : List Valued) : Latches :=
  vs.foldl (fun l mv => match mv.1.act with
    | .dst (.latch (.tc i)) => if tiles.getLsbD i.toNat then l.put (.tc i) mv.2 else l
    | .dst (.latch a) => l.put a mv.2
    | _ => l) l

/-- LDQF as it stands at the end of a bundle (R85). -/
def ldqfEnd (t : Ctx) (lat : Latches) (vs : List Valued) : BitVec 14 :=
  vs.foldl (fun q mv => match mv.1.act with
    | .trig g => if g.code = 0x346 && mv.2.extractLsb' 0 6 = 2 then (t.ctl.write 2 lat.syO).ldqf else q
    | _ => q) t.ctl.ldqf

/-- What the triggers of a bundle see. -/
def envOf (c x : Nat) (t : Ctx) (vs : List Valued) : Env :=
  let lat := mergeLatches t.tiles t.lat vs
  { c := c, x := x, t0 := t, lat := lat, ldqf := ldqfEnd t lat vs }

/-- The triggers of a bundle, in slot order. -/
def triggersOf (vs : List Valued) : List (Nat × Trigger × VWord) :=
  vs.filterMap fun mv => match mv.1.act with | .trig g => some (mv.1.slot, g, mv.2) | _ => none

/-- A trap at a slot. -/
def Trap.at (t : Trap) (slot : Nat) : Trap := { t with slot := slot }

/-! ### Fabric messages (R372-R375) -/

/-- The fields of a message's header (R372). -/
def fabKind (h : Word) : Nat := (h.extractLsb' 60 4).toNat
def fabN (h : Word) : Nat := (h.extractLsb' 51 5).toNat
def fabAop (h : Word) : Nat := (h.extractLsb' 46 4).toNat

/-- The payload words that a header calls for (R373): an amocas has two operands. -/
def fabWords (h : Word) : Nat :=
  match fabKind h with
  | 0 => fabN h
  | 1 => 1
  | 2 => 1 + fabN h
  | 3 => if fabAop h = 7 then 3 else 2
  | _ => 0

/-- The bytes of a message's access, and the permission it needs (R375). -/
def fabSize (h : Word) : Nat := if fabKind h = 3 then (if h.getLsbD 50 then 8 else 4) else Nat.max 1 (8 * fabN h)
def fabNeed (h : Word) : Need := match fabKind h with | 1 => .read | 2 => .write | _ => .both

/-- The message that awaits words after a push (R374). -/
def openAfter (o : Option OpenMsg) (q : PushTo) (v : VWord) : Option OpenMsg :=
  match q with
  | .fsendh =>
    let h : Word := v.truncate 64
    if fabWords h = 0 then none else some { header := h, owed := fabWords h }
  | .fsend =>
    match o with
    | some m => if m.owed ≤ 1 then none else some { m with owed := m.owed - 1 }
    | none => none
  | _ => o

/-- The header whose address word a push to fsend is: the first word after it (R375). -/
def addrOf (o : Option OpenMsg) (q : PushTo) : Option Word :=
  match o, q with
  | some m, .fsend => if m.owed = fabWords m.header && fabKind m.header != 0 then some m.header else none
  | _, _ => none

/-- The lookup of a pushed address word (R375). -/
def sendTrap (env : Env) (s : State) (o : Option OpenMsg) (q : PushTo) (v : VWord) : Option Trap :=
  match addrOf o q with
  | none => none
  | some h =>
    let va := v.toNat % 2 ^ 48
    (s.lookup env.c env.t0 (va : Nat) ((va + fabSize h - 1 : Nat) : Int) (fabNeed h)).map fun m => { cause := m.cause, addr := m.addr }

/-- Where the bytes of a pushed address word's access lie. -/
def sendLocs (env : Env) (s : State) (o : Option OpenMsg) (q : PushTo) (v : VWord) : List Loc :=
  match addrOf o q with
  | none => []
  | some h => (List.range (fabSize h)).filterMap fun j => s.locate env.c env.t0 ((v.toNat % 2 ^ 48 + j : Nat) : Int)

/-- The data conditions and lookups of the slots, in slot order (R340 item 6); o is the message that awaits words. -/
def slotTrap (env : Env) (s : State) (o : Option OpenMsg) : List (Move × PopRes) → Option Trap
  | [] => none
  | (m, r) :: rs =>
    match r with
    | .trap t => some (t.at m.slot)
    | .wait => slotTrap env s o rs
    | .val v =>
      match m.act with
      | .trig g =>
        match g.check env s v with
        | some t => some (t.at m.slot)
        | none => slotTrap env s o rs
      | .push q =>
        match sendTrap env s o q v with
        | some t => some (t.at m.slot)
        | none => slotTrap env s (openAfter o q v) rs
      | .dst _ => slotTrap env s o rs

/-- The codes of sy.wait, fence, acq and rel (R121). -/
def isSyMem (code : Nat) : Bool := 0x341 ≤ code && code ≤ 0x344

/-- The pending fault that a bundle takes (R121, R244, R276; R340 item 6): stores, then copies, then MXNAN. A bundle that pops
the LDQ takes a store fault even when the entry is present, as R121's example has it (log 12). -/
def pendingTrap (t : Ctx) (active : List Move) (blocks : Bool) : Option Trap :=
  let codes := active.filterMap fun m => match m.act with | .trig g => some (g.unit, g.code) | _ => none
  let sy := codes.any fun k => isSyMem k.2
  let has : Unit10 → Bool := fun u => codes.any fun k => k.1 = u
  let pops := active.any fun m => m.src = .ldq || m.src = .vldq
  let stores := blocks || sy || pops || has .au || codes.any fun k => k.2 = 0x318 || (0x2C1 ≤ k.2 && k.2 ≤ 0x2C3)
  match t.storeFault, t.copyFault with
  | some m, _ => if stores then some { cause := m.cause, addr := m.addr, fault := true } else copy t.copyFault sy has
  | none, f => copy f sy has
where
  copy (f : Option Nat) (sy : Bool) (has : Unit10 → Bool) : Option Trap :=
    match f with
    | some a => if blocks || sy || has .ce then some { cause := .record, addr := a, fault := true } else nan sy has
    | none => nan sy has
  nan (sy : Bool) (has : Unit10 → Bool) : Option Trap :=
    if t.mxnanPend && (blocks || sy || has .mx || has .ce || has .au) then
      some { cause := .mxnan, info := (t.mxnan.extractLsb' 43 8).toNat }
    else none

/-- A write to g[SPREG] below SLIM (R15). -/
def stackTrap (t : Ctx) (vs : List Valued) : Option Trap :=
  vs.findSome? fun mv => match mv.1.act with
    | .dst (.g i) =>
      if i = t.ctl.spreg && mv.2.toNat % 2 ^ 64 < t.ctl.slim.toNat then some { cause := .stack, slot := mv.1.slot } else none
    | _ => none

/-- sy.trap (R345). -/
def breakTrap (vs : List Valued) : Option Trap :=
  (triggersOf vs).findSome? fun g => g.2.1.brk.map fun f => (f g.2.2).at g.1

/-- Room in the queues for the pushes and the SAQ places of a bundle (R23, R38, R108, R372). -/
def roomFor (t : Ctx) (active : List Move) : Bool :=
  let push : PushTo → Nat := fun q => active.countP fun m => match m.act with | .push k => k = q | _ => false
  let saq := active.countP fun m => match m.act with | .trig g => g.saq | _ => false
  (push .sd + push .vsd = 0 || t.sdq.length + push .sd + push .vsd ≤ 32)
    && (saq = 0 || t.saq.length + saq ≤ 32)
    && (push .fsend + push .fsendh = 0 || t.sendF.length + push .fsend + push .fsendh ≤ 128)

/-- What the examination of a bundle finds. -/
inductive Assess where
  | trap (t : Trap)
  /-- blocked under R23 -/
  | block
  /-- blocked, its requests now to be sent -/
  | send (fs : List (State → State))
  /-- blocked as it has been: something is done towards what it waits for -/
  | work (fs : List (State → State))
  /-- would issue -/
  | go (vs : List Valued) (p : PopSt)

/-- The waits of a bundle's triggers (R23): requests are sent once nothing else blocks it. -/
def waitsOf (env : Env) (s : State) (vs : List Valued) : List Wait := (triggersOf vs).map fun g => g.2.1.wait env s g.2.2

/-- Whether a wait is one that no request of its own explains. -/
def Wait.isBlock : Wait → Bool
  | .block => true
  | _ => false

/-- A request not yet sent. -/
def Wait.toSend : Wait → Option (State → State)
  | .send f => some f
  | _ => none

/-- What is done while a bundle waits. -/
def Wait.toWork : Wait → Option (State → State)
  | .work f => some f
  | _ => none

/-- A request that is sent once everything else is satisfied. -/
def Wait.toSendLast : Wait → Option (State → State)
  | .sendLast f => some f
  | _ => none

/-- A request sent and not yet answered. -/
def Wait.isSent : Wait → Bool
  | .sent => true
  | _ => false

/-- The requests of a bundle that nothing else blocks: those that can be taken back, then one that cannot. -/
def sends (ws : List Wait) : List (State → State) :=
  match ws.filterMap Wait.toSend with
  | [] => if ws.any fun w => w.isSent || w.toWork.isSome then [] else (ws.filterMap Wait.toSendLast).take 1
  | fs => fs

/-- Whether a wait lets the bundle issue. -/
def Wait.isReady : Wait → Bool
  | .ready => true
  | _ => false

/-- The examination of a decoded bundle from item 4 on (R340). A lookup in an earlier slot reads the latches as the bundle leaves them (R18); one
that a later slot's marked or mismatched pop was to write has no value there, and keeps the one it had (log 70). -/
def State.examine (s : State) (c x : Nat) (ms : List Move) : Assess :=
  let t := s.ctx c x
  let active := if t.asNever then [] else ms.filter fun m => t.guard m.guard
  match bundleClash active [] with
  | some sl => .trap { cause := .bundle, slot := sl }
  | none =>
    match imBusy t active with
    | some sl => .trap { cause := .unitbusy, slot := sl }
    | none =>
      if 24 < outstanding t active then .trap { cause := .unitbusy }
      else
        let (rs, p) := s.readAll t { seed := t.ctl.seed } active
        if rs.any fun r => r.2 = .wait then
          match pendingTrap t active true with
          | some tr => .trap tr
          | none => .block
        else
          let vs : List Valued := rs.filterMap fun r => match r.2 with | .val v => some (r.1, v) | _ => none
          let env := envOf c x t vs
          match slotTrap env s t.sendOpen rs with
          | some tr => .trap tr
          | none =>
            let room := roomFor t active
            let ws := waitsOf env s vs
            let free := room && !t.drainFirst && ws.all Wait.isReady
            match if t.closing then none else pendingTrap t active (!free) with
            | some tr => .trap tr
            | none =>
              match stackTrap t vs with
              | some tr => .trap tr
              | none =>
                match breakTrap vs with
                | some tr => .trap tr
                | none =>
                  if free then .go vs p
                  else if !room || t.drainFirst || ws.any Wait.isBlock then .block
                  else
                    match sends ws, ws.filterMap Wait.toWork with
                    | [], [] => .block
                    | [], fs => .work fs
                    | fs, _ => .send fs

/-- What an examination finds of a bundle that has asked for the close of a scope on another die: it takes no trap, and waits (R145; log 71). -/
def Assess.held (a : Assess) (closing : Bool) : Assess :=
  match a with
  | .trap _ => if closing then .block else a
  | _ => a

/-- The examination of a decoded bundle. -/
def State.assess (s : State) (c x : Nat) (ms : List Move) : Assess := (s.examine c x ms).held (s.ctx c x).closing

/-! ## Checks of the slots -/

/-- The moves of a decoded bundle in their slots, or the first failing check (R33, R340 item 3). -/
def slotMoves (moveOf : Instr → Option (Guard × Src × MoveAct)) (n : Nat) (sys : Bool) : Nat → List Slot → Except Trap (List Move)
  | _, [] => .ok []
  | k, sl :: sls =>
    match sl.res with
    | .illsrc => .error { cause := .illsrc, slot := k }
    | .illdst => .error { cause := .illdst, slot := k }
    | .ok i =>
      match moveOf i with
      | none => slotMoves moveOf n sys (k + 1) sls
      | some (g, src, a) =>
        let m : Move := { slot := k, guard := g, src := src, act := a }
        match m.check n sys with
        | some tr => .error tr
        | none =>
          match slotMoves moveOf n sys (k + 1 + srcSlots src) sls with
          | .ok ms => .ok (m :: ms)
          | .error tr => .error tr

/-! ## The commit -/

/-- A push to a queue of the context (R38, R118, R374). -/
def Ctx.push (t : Ctx) (q : PushTo) (v : VWord) (loc : List Loc) : Ctx :=
  match q with
  | .sd => { t with sdq := t.sdq ++ [{ num := t.pushes, vec := false, data := (v.truncate 64 : Word).zeroExtend 2048 }]
                    pushes := t.pushes + 1 }
  | .vsd => { t with sdq := t.sdq ++ [{ num := t.pushes, vec := true, data := v }], pushes := t.pushes + 1 }
  | .fsend => { t with sendF := t.sendF ++ [{ isHeader := false, word := v.truncate 64, loc := loc }], sendOpen := openAfter t.sendOpen q v }
  | .fsendh => { t with sendF := t.sendF ++ [{ isHeader := true, word := v.truncate 64, loc := loc }], sendOpen := openAfter t.sendOpen q v }

/-- The units whose triggers draw, in ascending destination code: fa, vu0, vu1 (R59). -/
def draws (g : Trigger) : Bool := g.unit = .fa || g.unit = .vu0 || g.unit = .vu1

/-- Triggers sorted by destination code: at most one a unit, so three at most draw. -/
def drawOrder (vs : List Valued) : List (Trigger × VWord) :=
  let l := ((triggersOf vs).map fun g => (g.2.1, g.2.2)).filter fun g => draws g.1
  (l.filter fun g => g.1.unit = .fa) ++ (l.filter fun g => g.1.unit = .vu0) ++ (l.filter fun g => g.1.unit = .vu1)

/-- cpyq, which reads a word as it stands at the end of its bundle (R237). -/
def Trigger.atEnd (g : Trigger) : Bool := g.code = 0x2C3

/-- The triggers that draw act first, in the order of R59; the other triggers and the pushes act in slot order (R38), then cpyq (R237). -/
def runActs (env : Env) (s : State) (vs : List Valued) : State :=
  let s := (drawOrder vs).foldl (fun s g => g.1.act env s g.2) s
  let s := vs.foldl (fun s mv => match mv.1.act with
    | .trig g => if draws g || g.atEnd then s else g.act env s mv.2
    | .push q => s.updCtx env.c env.x fun t => t.push q mv.2 (sendLocs env s t.sendOpen q mv.2)
    | .dst _ => s) s
  vs.foldl (fun s mv => match mv.1.act with
    | .trig g => if g.atEnd && !draws g then g.act env s mv.2 else s
    | _ => s) s

/-- The registers of a bundle are written at its end (R19); latches have been. -/
def writeRegs (t : Ctx) (vs : List Valued) : Ctx :=
  vs.foldl (fun t mv => match mv.1.act with
    | .dst (.latch _) => t
    | .dst d => t.write d mv.2
    | _ => t) t

/-- The pops of a bundle are made (R7, R21). -/
def State.takePops (s : State) (c x : Nat) (p : PopSt) : State :=
  let s := s.updCtx c x fun t =>
    { t with ldq := t.ldq.drop p.ldq, recvF := t.recvF.drop p.frecv, ctl := { t.ctl with seed := p.seed } }
  let s := { s with pipes := s.pipes.map fun q =>
    { q with queues := q.queues.zipIdx.map fun k =>
        let n := p.taken (q.id, k.2)
        { k.1 with entries := k.1.entries.drop n, gone := k.1.gone ++ List.replicate n s.clk } } }
  if p.q.isEmpty then s else s.progress (s.ctx c x).launch

/-- Weight units of a bundle (R171). -/
def weightOf (env : Env) (s : State) (vs : List Valued) : Nat :=
  ((triggersOf vs).map fun g => g.2.1.weight env s (g.2.2.truncate 64)).sum

/-- A core's charge window after a cycle of charge n (R179). -/
def Core.charge (k : Core) (n : Nat) : Core := { k with window := (n :: k.window).take 63 }

/-- The nullifier's view of the bundles that follow, and where fetch goes (R28, R66): from the bundle at pc, with the fetch state
after its own transfer and changes are registered for the later decisions. -/
structure Ahead where
  next : NextPos
  flow : FlowSt
  nul : Bool

/-- Bundles of a context's code window for the nullifier: a bundle that cannot be fetched is not examined (R28). -/
def State.peek (s : State) (c : Nat) (t : Ctx) (i : BIndex) : Option (List Slot) :=
  match t.worker with
  | none => none
  | some w => match s.fetch c w i with | .ok l => some l | .error _ => none

/-- A bundle is nullified, given those before it (R28). -/
def nullified (t : Ctx) (before : List (Option (List Slot))) (b : Option (List Slot)) : Bool :=
  match b with
  | none => false
  | some l => allFalse t l && before.all fun o => match o with | some k => !writesPred k | none => false

/-- The fetch decision after the bundle at pc (R28, R66): f is the fetch state at its start, own says whether it triggers a
transfer, and more is what it registers (R63, R65). The mark that is left for the position after the next is of the bundle that
follows there when no boundary does: whether B+1 triggers a transfer, and so has no boundary after it (R139), is known when it
issues, and a boundary takes the mark away. NULLEN is read at the start of B's cycle and of B+1's: a bundle is removed when both find
it 1 (log 42). -/
def State.ahead (s : State) (c : Nat) (t : Ctx) (own : Bool) (f : FlowSt) (more : FlowSt → FlowSt) : Ahead :=
  let (n1, f1) := t.decide own t.pc f
  let f1 := more f1
  match n1 with
  | .at p1 =>
    if t.ctl.nullen = 0 then { next := n1, flow := f1, nul := false }
    else
      let here : Option (List Slot) := if t.asNever then some [] else s.peek c t t.pc
      let b1 := s.peek c t p1
      let z1 := if t.resumed then nullified t [here] b1 else t.nul
      if !z1 then
        { next := n1, flow := f1
          nul := match (t.decide true p1 f1).1 with | .at p2 => nullified t [here, b1] (s.peek c t p2) | _ => false }
      else
        let (n2, f2) := t.decide false p1 f1
        match n2 with
        | .at p2 =>
          if !nullified t [here, b1] (s.peek c t p2) then { next := n2, flow := f2, nul := false }
          else
            let (n3, f3) := t.decide false p2 f2
            { next := n3, flow := f3, nul := false }
        | _ => { next := n2, flow := f2, nul := false }
  | _ => { next := n1, flow := f1, nul := false }

/-- The end point of a worker past its last bundle (R121, R132, R140): a pending store fault is taken there; else it ends, and the
core is left without a running context. -/
def State.finish (s : State) (c x : Nat) : State :=
  let t := s.ctx c x
  match t.worker with
  | none => s
  | some w =>
    if w.phase != .done then s
    else
      match t.storeFault with
      | some m => s.takeTrap c x { cause := m.cause, addr := m.addr, fault := true }
      | none =>
        if t.drainFirst then s
        else (s.endWorker c x false).updCore c fun k => { k with running := if k.running = some x then none else k.running }

/-- The fetch decision applied to a context that holds a worker (R28, R66, R139, R346). A worker past its last bundle ends at once, but
after the trap of a single step where one is due (R358). -/
def State.moveOn (s : State) (c x : Nat) (t0 : Ctx) : State :=
  let t := s.ctx c x
  let newX := t.xfer.drop t0.xfer.length
  let newC := t.changes.drop t0.changes.length
  let own := !newX.isEmpty
  let more : FlowSt → FlowSt := fun f => { f with xfer := f.xfer ++ newX, changes := f.changes ++ newC }
  let a := s.ahead c { t0 with handler := t.handler } own t0.flow more
  let t := (t.setFlow a.flow)
  match a.next with
  | .at i => s.setCtx c x { t with pc := i, nul := a.nul }
  | .eret b => s.setCtx c x (t.deliverDue.leaveUser b)
  | .boundary =>
    let s := (s.setCtx c x { t with nul := false }).atBoundary c x
    if t.stepDue then s else s.finish c x

/-- The commit of a bundle (R19-R21): pops, latches, triggers and pushes, registers, the issue cycle's counts, then the fetch decision.
The cycle's charge enters the core's window. -/
def State.commit (s : State) (c x : Nat) (vs : List Valued) (p : PopSt) : State :=
  let t0 := s.ctx c x
  let env := envOf c x t0 vs
  let w := weightOf env s vs
  let s1 := s.takePops c x p
  let s1 := s1.updCtx c x fun t => { t with lat := env.lat }
  let s2 := runActs env s1 vs
  let s3 := s2.updCtx c x fun t =>
    let t := writeRegs t vs
    { t with snap := countDown t.snap, divBusy := t.divBusy - 1
             ctl := { t.ctl with nfs := if p.nfs then t.ctl.nfs ||| 1 else t.ctl.nfs }
             awaiting := [], blocked := 0, tokDone := false, hasBlocked := false
             resumed := false, asNever := false
             stepDue := t.ctl.step.getLsbD 0 }
  let s4 := s3.updCore c fun k => { k.charge w with lastWorker := t0.worker.map (·.uid) }
  let s5 := s4.chargeLaunch c t0.launch w
  if t0.worker.isSome then s5.moveOn c x t0 else s5

/-! ## A cycle -/

/-- A blocked cycle of a context (R23, R24). -/
def Ctx.block (t : Ctx) : Ctx := { t with blocked := t.blocked + 1, hasBlocked := true }

/-- A limiter cycle of a context (R179, R181). -/
def Ctx.limited (t : Ctx) : Ctx :=
  { t with ctl := { t.ctl with limcnt := if t.ctl.limcnt = BitVec.allOnes 32 then t.ctl.limcnt else t.ctl.limcnt + 1 } }

/-- CLIM as the limiter takes it in this clk: as it stood before it (R180). -/
def Core.clim (k : Core) : Bool × Nat := k.climWas.getD (k.climEn, k.climLim)

/-- Whether the current limiter holds a bundle of weight w (R179). -/
def Core.limits (k : Core) (w : Nat) : Bool := k.clim.1 && k.clim.2 < k.window.sum + w && 0 < k.window.sum

/-- CLIM set: it acts from the next clk on. -/
def Core.putClim (k : Core) (en : Bool) (lim : Nat) : Core := { k with climEn := en, climLim := lim, climWas := some k.clim }

/-- The issue of a bundle whose slots have passed their checks, in one core cycle: a trap, a blocked cycle, a limiter cycle, or
the commit. -/
def State.issueMoves (s : State) (c x : Nat) (ms : List Move) : State :=
  match s.assess c x ms with
  | .trap tr => (s.takeTrap c x tr).updCore c fun k => k.charge 0
  | .block => (s.updCtx c x Ctx.block).updCore c fun k => k.charge 0
  | .send fs | .work fs => ((fs.foldl (fun s f => f s) s).updCtx c x Ctx.block).updCore c fun k => k.charge 0
  | .go vs p =>
    if (s.core c).limits (weightOf (envOf c x (s.ctx c x) vs) s vs) then
      (s.updCtx c x Ctx.limited).updCore c fun k => k.charge 0
    else s.commit c x vs p

/-- A cycle in which a core issues nothing (R179). -/
def State.idleCycle (s : State) (c : Nat) : State := s.updCore c fun k => k.charge 0

/-- The core leaves a context that cannot run (R131): it is frozen, stopped, saved or handled by firmware. -/
def State.standDown (s : State) (c : Nat) : State := s.updCore c fun k => { k.charge 0 with running := none }

/-- A context at the start of a cycle in which it runs: the results due are delivered (R19). -/
def Ctx.begin (t : Ctx) : Ctx := { t.deliverDue with yielded := false }

/-- The state at the start of a cycle in which context x runs. -/
def State.beginBundle (s : State) (c x : Nat) : State := s.updCtx c x Ctx.begin

/-- A worker of a stage that stands at its boundary retires iterations without a bundle, which is progress (R139, R157, R174). -/
def State.idles (s : State) (w : Worker) : State := if w.walk.isNone then s.progress w.launch else s

/-- One cycle of a core whose running context's next bundle is given (R21-R25, R132, R340, R341): the cycles of a trap entry or a
switch, the events at the boundary before the bundle (SSTEP, then a kill), and then the bundle, of never-moves where an eret has the
trapping bundle skipped (R346). -/
def State.cycle (s : State) (c : Nat) (bundle : State → Nat → Except Trap (List Move)) : State :=
  let k := s.core c
  if k.fenced then s.idleCycle c
  else if 0 < k.stall then (s.updCore c fun k => { k with stall := k.stall - 1 }).idleCycle c
  else
    match k.running with
    | none => s.idleCycle c
    | some 4 =>
      match bundle s 4 with
      | .error _ => s.idleCycle c
      | .ok ms => s.issueMoves c 4 ms
    | some x =>
      let s := s.beginBundle c x
      let t := s.ctx c x
      match t.worker with
      | none => s.standDown c
      | some w =>
        if t.stepDue then (s.updCtx c x fun t => { t with stepDue := false }).takeTrap c x { cause := .sstep } |>.idleCycle c
        else if t.killReq.isSome && !t.closed then (s.takeWdog c x 5).idleCycle c
        else if !t.runnable then s.standDown c
        else if w.phase = .done then
          (if t.drainFirst && t.storeFault.isNone then s.updCtx c x Ctx.block else s.finish c x).idleCycle c
        else if w.phase = .waiting then
          if s.waitsThere c x w then ((s.updCtx c x Ctx.block).idles w).idleCycle c
          else
            match w.walk with
            | some p => (s.nextBlock (p.next.length + 1) c x w).idleCycle c
            | none => (s.passBoundary c x w).idleCycle c
        else if k.lastWorker != some w.uid && k.paid != some w.uid then
          (s.updCore c fun k => { k with stall := 5, paid := some w.uid }).idleCycle c
        else
          match if t.asNever then .ok [] else bundle s x with
          | .error tr => (if t.closing then s.updCtx c x Ctx.block else s.takeTrap c x tr).idleCycle c
          | .ok ms => s.issueMoves c x ms

/-- The issue of the bundle that holds one move alone, in a cycle of the core in the focus. -/
def State.issueSolo (s : State) (m : Move) : Host.Outcome State Fault Refusal :=
  .next (s.cycle s.focus.c fun s x =>
    match m.check (s.ctx s.focus.c x).nregs (x = 4) with
    | some tr => .error tr
    | none => .ok [m])

/-- The issue of a bundle of never-moves, whatever their other bits hold (R32). -/
def State.issueNone (s : State) (_a : BitVec 9) (_b : BitVec 10) : Host.Outcome State Fault Refusal :=
  .next (s.cycle s.focus.c fun _ _ => .ok [])

end Sys2Proof.Machine
end

