-- ==== Sys2Proof/Machine/Scalar.lean ====
section
/-!
DEFINITION. Plain moves (R11), and the integer units ia0, ia1 (R47-R50) and im (R51-R53).
-/

namespace Sys2Proof.Machine

/-! ## Plain moves, pops and long immediates -/

/-- MOVE: a source copied to a register or a latch (R11). -/
def execMove (g : Guard) (src : Src) (d : Dst) (s : State) : Host.Outcome State Fault Refusal :=
  s.issueSolo (soloMove g src (.dst d))

/-- NEVER_MOVE: the bundle of never-moves takes one issue cycle and has no other effect (R32). -/
def execNeverMove (a : BitVec 9) (b : BitVec 10) (s : State) : Host.Outcome State Fault Refusal :=
  s.issueNone a b

/-- LIMM24: a move of a 24-bit immediate, sign-extended (R33-R35). -/
def execLimm24 (g : Guard) (x : BitVec 24) (d : Dst) (s : State) : Host.Outcome State Fault Refusal :=
  s.issueSolo (soloMove g (.limm24 x) (.dst d))

/-- LIMM48: a move of a 48-bit immediate, sign-extended (R33-R35). -/
def execLimm48 (g : Guard) (x : BitVec 48) (d : Dst) (s : State) : Host.Outcome State Fault Refusal :=
  s.issueSolo (soloMove g (.limm48 x) (.dst d))

/-- LDQ: the LDQ head in the scalar view (R86). -/
def execLdq (g : Guard) (d : Dst) (s : State) : Host.Outcome State Fault Refusal :=
  s.issueSolo (soloMove g .ldq (.dst d))

/-- VLDQ: the LDQ head in the vector view (R86). -/
def execVldq (g : Guard) (d : Dst) (s : State) : Host.Outcome State Fault Refusal :=
  s.issueSolo (soloMove g .vldq (.dst d))

/-- FRECV: one word of the fabric receive FIFO (R376). -/
def execFrecv (g : Guard) (d : Dst) (s : State) : Host.Outcome State Fault Refusal :=
  s.issueSolo (soloMove g .frecv (.dst d))

/-- QP: a stage-queue handle's input in the scalar view (R155). -/
def execQp (g : Guard) (h : BitVec 2) (d : Dst) (s : State) : Host.Outcome State Fault Refusal :=
  s.issueSolo (soloMove g (.qp h) (.dst d))

/-- QV: a stage-queue handle's input in the vector view (R155). -/
def execQv (g : Guard) (h : BitVec 2) (d : Dst) (s : State) : Host.Outcome State Fault Refusal :=
  s.issueSolo (soloMove g (.qv h) (.dst d))

/-- SD: one scalar store-data entry (R118). -/
def execSd (g : Guard) (src : Src) (s : State) : Host.Outcome State Fault Refusal :=
  s.issueSolo (soloMove g src (.push .sd))

/-- VSD: one vector store-data entry (R118). -/
def execVsd (g : Guard) (src : Src) (s : State) : Host.Outcome State Fault Refusal :=
  s.issueSolo (soloMove g src (.push .vsd))

/-- FSEND: a payload word to the fabric send FIFO (R374). -/
def execFsend (g : Guard) (src : Src) (s : State) : Host.Outcome State Fault Refusal :=
  s.issueSolo (soloMove g src (.push .fsend))

/-- FSENDH: a header word to the fabric send FIFO (R372). -/
def execFsendh (g : Guard) (src : Src) (s : State) : Host.Outcome State Fault Refusal :=
  s.issueSolo (soloMove g src (.push .fsendh))

/-! ## Results -/

/-- Starts a fixed-latency operation: its result is delivered at the end of issue cycle t + lat - 1 (R16, R19). -/
def State.result (s : State) (env : Env) (r : ResPort) (v : VWord) (lat : Nat) (flags : BitVec 2) : State :=
  s.updCtx env.c env.x fun t => { t with snap := t.snap ++ [{ port := r, val := v, left := lat, flags := flags }] }

/-! ## ia (R47-R49) -/

/-- The sign extension of the low w bits. -/
def sextLow (x : Word) (w : Nat) : Word := (x.truncate w : BitVec w).signExtend 64

/-- A truth value as 0 or 1 (R54). -/
def boolWord (b : Bool) : Word := if b then 1 else 0

/-- Leading zero bits, 64 for 0. -/
def clzWord (b : Word) : Word := if b = 0 then 64 else BitVec.ofNat 64 (63 - Nat.log2 b.toNat)

/-- The least set bit at or above i, of n bits. -/
def ctzFrom : Nat → Nat → Word → Nat
  | 0, i, _ => i
  | n + 1, i, b => if b.getLsbD i then i else ctzFrom n (i + 1) b

/-- Trailing zero bits, 64 for 0. -/
def ctzWord (b : Word) : Word := BitVec.ofNat 64 (ctzFrom 64 0 b)

/-- The number of 1 bits. -/
def popcWord (b : Word) : Word := BitVec.ofNat 64 ((List.range 64).countP fun i => b.getLsbD i)

/-- A shift or rotate amount: b[5:0] (R48). -/
def shAmt (b : Word) : Nat := b.toNat % 64

/-- bext (R49). -/
def iaBext (a b : Word) : Word :=
  let lo := b.toNat % 64
  let w := b.toNat / 64 % 64 + 1
  BitVec.ofNat 64 ((a.toNat >>> lo) % 2 ^ w)

/-- An ia trigger: a is the unit's .o latch, b the trigger value; latency 1, no flag (R47). -/
def iaTrig (u : BitVec 1) (off : Nat) (f : Word → Word → Word) : Trigger :=
  { unit := if u = 0 then .ia0 else .ia1
    code := 0x080 + 0x40 * u.toNat + off
    act := fun env s v => s.result env (.ia u) ((f env.lat.iaO[u.toNat] (v.truncate 64)).zeroExtend 2048) 1 0 }

/-- ADD as a trigger: Integer add, wrapped to 64 bits (R48). -/
def trigAdd (u : BitVec 1) : Trigger := iaTrig u 1 (fun a b => a + b)

/-- ADD: the bundle that holds this move alone issues (R48). -/
def execAdd (g : Guard) (src : Src) (u : BitVec 1) (s : State) : Host.Outcome State Fault Refusal :=
  s.issueSolo (soloMove g src (.trig (trigAdd u)))

/-- SUB as a trigger: Integer subtract, wrapped (R48). -/
def trigSub (u : BitVec 1) : Trigger := iaTrig u 2 (fun a b => a - b)

/-- SUB: the bundle that holds this move alone issues (R48). -/
def execSub (g : Guard) (src : Src) (u : BitVec 1) (s : State) : Host.Outcome State Fault Refusal :=
  s.issueSolo (soloMove g src (.trig (trigSub u)))

/-- ADD32 as a trigger: 32-bit add, sign-extended (R48). -/
def trigAdd32 (u : BitVec 1) : Trigger := iaTrig u 3 (fun a b => sextLow (a + b) 32)

/-- ADD32: the bundle that holds this move alone issues (R48). -/
def execAdd32 (g : Guard) (src : Src) (u : BitVec 1) (s : State) : Host.Outcome State Fault Refusal :=
  s.issueSolo (soloMove g src (.trig (trigAdd32 u)))

/-- SUB32 as a trigger: 32-bit subtract, sign-extended (R48). -/
def trigSub32 (u : BitVec 1) : Trigger := iaTrig u 4 (fun a b => sextLow (a - b) 32)

/-- SUB32: the bundle that holds this move alone issues (R48). -/
def execSub32 (g : Guard) (src : Src) (u : BitVec 1) (s : State) : Host.Outcome State Fault Refusal :=
  s.issueSolo (soloMove g src (.trig (trigSub32 u)))

/-- AND as a trigger: Bitwise AND (R48). -/
def trigAnd (u : BitVec 1) : Trigger := iaTrig u 5 (fun a b => a &&& b)

/-- AND: the bundle that holds this move alone issues (R48). -/
def execAnd (g : Guard) (src : Src) (u : BitVec 1) (s : State) : Host.Outcome State Fault Refusal :=
  s.issueSolo (soloMove g src (.trig (trigAnd u)))

/-- OR as a trigger: Bitwise OR (R48). -/
def trigOr (u : BitVec 1) : Trigger := iaTrig u 6 (fun a b => a ||| b)

/-- OR: the bundle that holds this move alone issues (R48). -/
def execOr (g : Guard) (src : Src) (u : BitVec 1) (s : State) : Host.Outcome State Fault Refusal :=
  s.issueSolo (soloMove g src (.trig (trigOr u)))

/-- XOR as a trigger: Bitwise XOR (R48). -/
def trigXor (u : BitVec 1) : Trigger := iaTrig u 7 (fun a b => a ^^^ b)

/-- XOR: the bundle that holds this move alone issues (R48). -/
def execXor (g : Guard) (src : Src) (u : BitVec 1) (s : State) : Host.Outcome State Fault Refusal :=
  s.issueSolo (soloMove g src (.trig (trigXor u)))

/-- ANDN as a trigger: a AND NOT b (R48). -/
def trigAndn (u : BitVec 1) : Trigger := iaTrig u 8 (fun a b => a &&& ~~~b)

/-- ANDN: the bundle that holds this move alone issues (R48). -/
def execAndn (g : Guard) (src : Src) (u : BitVec 1) (s : State) : Host.Outcome State Fault Refusal :=
  s.issueSolo (soloMove g src (.trig (trigAndn u)))

/-- SHL as a trigger: Logical shift left (R48). -/
def trigShl (u : BitVec 1) : Trigger := iaTrig u 9 (fun a b => a <<< shAmt b)

/-- SHL: the bundle that holds this move alone issues (R48). -/
def execShl (g : Guard) (src : Src) (u : BitVec 1) (s : State) : Host.Outcome State Fault Refusal :=
  s.issueSolo (soloMove g src (.trig (trigShl u)))

/-- SHR as a trigger: Logical shift right (R48). -/
def trigShr (u : BitVec 1) : Trigger := iaTrig u 10 (fun a b => a >>> shAmt b)

/-- SHR: the bundle that holds this move alone issues (R48). -/
def execShr (g : Guard) (src : Src) (u : BitVec 1) (s : State) : Host.Outcome State Fault Refusal :=
  s.issueSolo (soloMove g src (.trig (trigShr u)))

/-- SAR as a trigger: Arithmetic shift right (R48). -/
def trigSar (u : BitVec 1) : Trigger := iaTrig u 11 (fun a b => a.sshiftRight (shAmt b))

/-- SAR: the bundle that holds this move alone issues (R48). -/
def execSar (g : Guard) (src : Src) (u : BitVec 1) (s : State) : Host.Outcome State Fault Refusal :=
  s.issueSolo (soloMove g src (.trig (trigSar u)))

/-- ROL as a trigger: Rotate left (R48). -/
def trigRol (u : BitVec 1) : Trigger := iaTrig u 12 (fun a b => a.rotateLeft (shAmt b))

/-- ROL: the bundle that holds this move alone issues (R48). -/
def execRol (g : Guard) (src : Src) (u : BitVec 1) (s : State) : Host.Outcome State Fault Refusal :=
  s.issueSolo (soloMove g src (.trig (trigRol u)))

/-- MIN as a trigger: Signed minimum (R48). -/
def trigMin (u : BitVec 1) : Trigger := iaTrig u 13 (fun a b => if b.slt a then b else a)

/-- MIN: the bundle that holds this move alone issues (R48). -/
def execMin (g : Guard) (src : Src) (u : BitVec 1) (s : State) : Host.Outcome State Fault Refusal :=
  s.issueSolo (soloMove g src (.trig (trigMin u)))

/-- MAX as a trigger: Signed maximum (R48). -/
def trigMax (u : BitVec 1) : Trigger := iaTrig u 14 (fun a b => if a.slt b then b else a)

/-- MAX: the bundle that holds this move alone issues (R48). -/
def execMax (g : Guard) (src : Src) (u : BitVec 1) (s : State) : Host.Outcome State Fault Refusal :=
  s.issueSolo (soloMove g src (.trig (trigMax u)))

/-- MINU as a trigger: Unsigned minimum (R48). -/
def trigMinu (u : BitVec 1) : Trigger := iaTrig u 15 (fun a b => if b.ult a then b else a)

/-- MINU: the bundle that holds this move alone issues (R48). -/
def execMinu (g : Guard) (src : Src) (u : BitVec 1) (s : State) : Host.Outcome State Fault Refusal :=
  s.issueSolo (soloMove g src (.trig (trigMinu u)))

/-- MAXU as a trigger: Unsigned maximum (R48). -/
def trigMaxu (u : BitVec 1) : Trigger := iaTrig u 16 (fun a b => if a.ult b then b else a)

/-- MAXU: the bundle that holds this move alone issues (R48). -/
def execMaxu (g : Guard) (src : Src) (u : BitVec 1) (s : State) : Host.Outcome State Fault Refusal :=
  s.issueSolo (soloMove g src (.trig (trigMaxu u)))

/-- SEQ as a trigger: 1 if equal (R48). -/
def trigSeq (u : BitVec 1) : Trigger := iaTrig u 17 (fun a b => boolWord (a == b))

/-- SEQ: the bundle that holds this move alone issues (R48). -/
def execSeq (g : Guard) (src : Src) (u : BitVec 1) (s : State) : Host.Outcome State Fault Refusal :=
  s.issueSolo (soloMove g src (.trig (trigSeq u)))

/-- SNE as a trigger: 1 if not equal (R48). -/
def trigSne (u : BitVec 1) : Trigger := iaTrig u 18 (fun a b => boolWord (a != b))

/-- SNE: the bundle that holds this move alone issues (R48). -/
def execSne (g : Guard) (src : Src) (u : BitVec 1) (s : State) : Host.Outcome State Fault Refusal :=
  s.issueSolo (soloMove g src (.trig (trigSne u)))

/-- SLT as a trigger: 1 if signed less than (R48). -/
def trigSlt (u : BitVec 1) : Trigger := iaTrig u 19 (fun a b => boolWord (a.slt b))

/-- SLT: the bundle that holds this move alone issues (R48). -/
def execSlt (g : Guard) (src : Src) (u : BitVec 1) (s : State) : Host.Outcome State Fault Refusal :=
  s.issueSolo (soloMove g src (.trig (trigSlt u)))

/-- SLTU as a trigger: 1 if unsigned less than (R48). -/
def trigSltu (u : BitVec 1) : Trigger := iaTrig u 20 (fun a b => boolWord (a.ult b))

/-- SLTU: the bundle that holds this move alone issues (R48). -/
def execSltu (g : Guard) (src : Src) (u : BitVec 1) (s : State) : Host.Outcome State Fault Refusal :=
  s.issueSolo (soloMove g src (.trig (trigSltu u)))

/-- SLE as a trigger: 1 if signed less or equal (R48). -/
def trigSle (u : BitVec 1) : Trigger := iaTrig u 21 (fun a b => boolWord (a.sle b))

/-- SLE: the bundle that holds this move alone issues (R48). -/
def execSle (g : Guard) (src : Src) (u : BitVec 1) (s : State) : Host.Outcome State Fault Refusal :=
  s.issueSolo (soloMove g src (.trig (trigSle u)))

/-- SLEU as a trigger: 1 if unsigned less or equal (R48). -/
def trigSleu (u : BitVec 1) : Trigger := iaTrig u 22 (fun a b => boolWord (a.ule b))

/-- SLEU: the bundle that holds this move alone issues (R48). -/
def execSleu (g : Guard) (src : Src) (u : BitVec 1) (s : State) : Host.Outcome State Fault Refusal :=
  s.issueSolo (soloMove g src (.trig (trigSleu u)))

/-- SEXT8 as a trigger: Sign-extends bits 7:0 (R48). -/
def trigSext8 (u : BitVec 1) : Trigger := iaTrig u 23 (fun _ b => sextLow b 8)

/-- SEXT8: the bundle that holds this move alone issues (R48). -/
def execSext8 (g : Guard) (src : Src) (u : BitVec 1) (s : State) : Host.Outcome State Fault Refusal :=
  s.issueSolo (soloMove g src (.trig (trigSext8 u)))

/-- SEXT16 as a trigger: Sign-extends bits 15:0 (R48). -/
def trigSext16 (u : BitVec 1) : Trigger := iaTrig u 24 (fun _ b => sextLow b 16)

/-- SEXT16: the bundle that holds this move alone issues (R48). -/
def execSext16 (g : Guard) (src : Src) (u : BitVec 1) (s : State) : Host.Outcome State Fault Refusal :=
  s.issueSolo (soloMove g src (.trig (trigSext16 u)))

/-- SEXT32 as a trigger: Sign-extends bits 31:0 (R48). -/
def trigSext32 (u : BitVec 1) : Trigger := iaTrig u 25 (fun _ b => sextLow b 32)

/-- SEXT32: the bundle that holds this move alone issues (R48). -/
def execSext32 (g : Guard) (src : Src) (u : BitVec 1) (s : State) : Host.Outcome State Fault Refusal :=
  s.issueSolo (soloMove g src (.trig (trigSext32 u)))

/-- ZEXT32 as a trigger: Zero-extends bits 31:0 (R48). -/
def trigZext32 (u : BitVec 1) : Trigger := iaTrig u 26 (fun _ b => (b.truncate 32 : BitVec 32).zeroExtend 64)

/-- ZEXT32: the bundle that holds this move alone issues (R48). -/
def execZext32 (g : Guard) (src : Src) (u : BitVec 1) (s : State) : Host.Outcome State Fault Refusal :=
  s.issueSolo (soloMove g src (.trig (trigZext32 u)))

/-- CLZ as a trigger: Counts leading zeros (R48). -/
def trigClz (u : BitVec 1) : Trigger := iaTrig u 27 (fun _ b => clzWord b)

/-- CLZ: the bundle that holds this move alone issues (R48). -/
def execClz (g : Guard) (src : Src) (u : BitVec 1) (s : State) : Host.Outcome State Fault Refusal :=
  s.issueSolo (soloMove g src (.trig (trigClz u)))

/-- CTZ as a trigger: Counts trailing zeros (R48). -/
def trigCtz (u : BitVec 1) : Trigger := iaTrig u 28 (fun _ b => ctzWord b)

/-- CTZ: the bundle that holds this move alone issues (R48). -/
def execCtz (g : Guard) (src : Src) (u : BitVec 1) (s : State) : Host.Outcome State Fault Refusal :=
  s.issueSolo (soloMove g src (.trig (trigCtz u)))

/-- POPC as a trigger: Counts one bits (R48). -/
def trigPopc (u : BitVec 1) : Trigger := iaTrig u 29 (fun _ b => popcWord b)

/-- POPC: the bundle that holds this move alone issues (R48). -/
def execPopc (g : Guard) (src : Src) (u : BitVec 1) (s : State) : Host.Outcome State Fault Refusal :=
  s.issueSolo (soloMove g src (.trig (trigPopc u)))

/-- SH1ADD as a trigger: (a << 1) + b (R48). -/
def trigSh1add (u : BitVec 1) : Trigger := iaTrig u 30 (fun a b => (a <<< 1) + b)

/-- SH1ADD: the bundle that holds this move alone issues (R48). -/
def execSh1add (g : Guard) (src : Src) (u : BitVec 1) (s : State) : Host.Outcome State Fault Refusal :=
  s.issueSolo (soloMove g src (.trig (trigSh1add u)))

/-- SH2ADD as a trigger: (a << 2) + b (R48). -/
def trigSh2add (u : BitVec 1) : Trigger := iaTrig u 31 (fun a b => (a <<< 2) + b)

/-- SH2ADD: the bundle that holds this move alone issues (R48). -/
def execSh2add (g : Guard) (src : Src) (u : BitVec 1) (s : State) : Host.Outcome State Fault Refusal :=
  s.issueSolo (soloMove g src (.trig (trigSh2add u)))

/-- SH3ADD as a trigger: (a << 3) + b (R48). -/
def trigSh3add (u : BitVec 1) : Trigger := iaTrig u 32 (fun a b => (a <<< 3) + b)

/-- SH3ADD: the bundle that holds this move alone issues (R48). -/
def execSh3add (g : Guard) (src : Src) (u : BitVec 1) (s : State) : Host.Outcome State Fault Refusal :=
  s.issueSolo (soloMove g src (.trig (trigSh3add u)))

/-- PASS as a trigger: Returns b (R48). -/
def trigPass (u : BitVec 1) : Trigger := iaTrig u 33 (fun _ b => b)

/-- PASS: the bundle that holds this move alone issues (R48). -/
def execPass (g : Guard) (src : Src) (u : BitVec 1) (s : State) : Host.Outcome State Fault Refusal :=
  s.issueSolo (soloMove g src (.trig (trigPass u)))

/-- BEXT as a trigger: Extracts a bit field of a (R49). -/
def trigBext (u : BitVec 1) : Trigger := iaTrig u 34 iaBext

/-- BEXT: the bundle that holds this move alone issues (R49). -/
def execBext (g : Guard) (src : Src) (u : BitVec 1) (s : State) : Host.Outcome State Fault Refusal :=
  s.issueSolo (soloMove g src (.trig (trigBext u)))

/-! ## im (R51-R53) -/

/-- An im multiply: a is im.o, latency 3, weight 4 (R51, R171). -/
def imTrig (off : Nat) (f : Word → Word → Word) : Trigger :=
  { unit := .im, code := 0x100 + off, weight := fun _ _ _ => 4, results := fun _ => 1
    act := fun env s v => s.result env .im ((f env.lat.imO (v.truncate 64)).zeroExtend 2048) 3 0 }

/-- A divide-family operation: latency 18, im busy for 18 issue cycles from its own (R52, R53), weight 12. -/
def divTrig (off : Nat) (f : Word → Word → Word) : Trigger :=
  { unit := .im, code := 0x100 + off, weight := fun _ _ _ => 12, results := fun _ => 1
    act := fun env s v =>
      (s.result env .im ((f env.lat.imO (v.truncate 64)).zeroExtend 2048) 18 0).updCtx env.c env.x fun t =>
        { t with divBusy := 18 } }

/-- The signed quotient toward zero and its remainder (R52). -/
def divSigned (a b : Word) : Word × Word :=
  let x := a.toInt
  let y := b.toInt
  if y = 0 then (BitVec.ofInt 64 (-1), a)
  else (BitVec.ofInt 64 (x.tdiv y), BitVec.ofInt 64 (x - y * x.tdiv y))

/-- The unsigned quotient and its remainder (R52). -/
def divUnsigned (a b : Word) : Word × Word :=
  let x := a.toNat
  let y := b.toNat
  if y = 0 then (BitVec.ofNat 64 (2 ^ 64 - 1), a)
  else (BitVec.ofNat 64 (x / y), BitVec.ofNat 64 (x - y * (x / y)))

/-- MUL as a trigger: Low 64 bits of the product (R51). -/
def trigMul : Trigger := imTrig 1 (fun a b => a * b)

/-- MUL: the bundle that holds this move alone issues (R51). -/
def execMul (g : Guard) (src : Src) (s : State) : Host.Outcome State Fault Refusal :=
  s.issueSolo (soloMove g src (.trig trigMul))

/-- MULH as a trigger: High 64 bits of the signed product (R51). -/
def trigMulh : Trigger := imTrig 2 (fun a b => BitVec.ofInt 64 (a.toInt * b.toInt / 2 ^ 64))

/-- MULH: the bundle that holds this move alone issues (R51). -/
def execMulh (g : Guard) (src : Src) (s : State) : Host.Outcome State Fault Refusal :=
  s.issueSolo (soloMove g src (.trig trigMulh))

/-- MULHU as a trigger: High 64 bits of the unsigned product (R51). -/
def trigMulhu : Trigger := imTrig 3 (fun a b => BitVec.ofNat 64 (a.toNat * b.toNat / 2 ^ 64))

/-- MULHU: the bundle that holds this move alone issues (R51). -/
def execMulhu (g : Guard) (src : Src) (s : State) : Host.Outcome State Fault Refusal :=
  s.issueSolo (soloMove g src (.trig trigMulhu))

/-- MUL32 as a trigger: Exact product of signed 32-bit values (R51). -/
def trigMul32 : Trigger := imTrig 4 (fun a b => sextLow a 32 * sextLow b 32)

/-- MUL32: the bundle that holds this move alone issues (R51). -/
def execMul32 (g : Guard) (src : Src) (s : State) : Host.Outcome State Fault Refusal :=
  s.issueSolo (soloMove g src (.trig trigMul32))

/-- DIV as a trigger: Signed division toward zero; im is busy for 18 cycles (R52). -/
def trigDiv : Trigger := divTrig 5 (fun a b => (divSigned a b).1)

/-- DIV: the bundle that holds this move alone issues (R52). -/
def execDiv (g : Guard) (src : Src) (s : State) : Host.Outcome State Fault Refusal :=
  s.issueSolo (soloMove g src (.trig trigDiv))

/-- DIVU as a trigger: Unsigned division (R52). -/
def trigDivu : Trigger := divTrig 6 (fun a b => (divUnsigned a b).1)

/-- DIVU: the bundle that holds this move alone issues (R52). -/
def execDivu (g : Guard) (src : Src) (s : State) : Host.Outcome State Fault Refusal :=
  s.issueSolo (soloMove g src (.trig trigDivu))

/-- REM as a trigger: Signed remainder (R52). -/
def trigRem : Trigger := divTrig 7 (fun a b => (divSigned a b).2)

/-- REM: the bundle that holds this move alone issues (R52). -/
def execRem (g : Guard) (src : Src) (s : State) : Host.Outcome State Fault Refusal :=
  s.issueSolo (soloMove g src (.trig trigRem))

/-- REMU as a trigger: Unsigned remainder (R52). -/
def trigRemu : Trigger := divTrig 8 (fun a b => (divUnsigned a b).2)

/-- REMU: the bundle that holds this move alone issues (R52). -/
def execRemu (g : Guard) (src : Src) (s : State) : Host.Outcome State Fault Refusal :=
  s.issueSolo (soloMove g src (.trig trigRemu))

end Sys2Proof.Machine
end

