-- ==== Sys2Proof/Machine/Float.lean ====
section
/-!
DEFINITION. The scalar floating-point unit fa (R54-R59).
-/

namespace Sys2Proof.Machine

/-! ## The values of R55-R58 -/

/-- The exact fused x * y + z (R55, R56). -/
def XR.fma (x y z : XR) : XR := (x.mul y).add z

/-- The magnitude of a finite value. -/
def XR.mag : XR → Mag
  | .fin _ m e => .dy m e
  | _ => .dy 0 0

/-- The square root (R56): of a value below -0 it is NaN, of -0 it is -0. -/
def XR.sqrt : XR → RV
  | .nan => .nan
  | .inf s => if s then .nan else .inf false
  | .fin s m e => if m = 0 then .fin s (.dy 0 0) else if s then .nan else .fin false (.root m 1 e)

/-- The reciprocal (R56): of a zero it is an infinity, of an infinity a zero, with its sign. -/
def XR.rcp : XR → RV
  | .nan => .nan
  | .inf s => .fin s (.dy 0 0)
  | .fin s m e => if m = 0 then .inf s else .fin s (.quo 1 m (-e))

/-- a orders below b with -0 below +0 (R57). -/
def XR.below (a b : XR) : Bool := a.lt b || (a.isZero && b.isZero && a.sign && !b.sign)

/-- The code of the lesser of two values by R57: a single NaN gives the other operand, two give the canonical NaN. -/
def pickMin (f : Fp) (x t : Nat) : Nat :=
  let a := f.decode x
  let b := f.decode t
  if a.isNaN && b.isNaN then f.nanCode
  else if a.isNaN then t
  else if b.isNaN then x
  else if b.below a then t else x

/-- The code of the greater of two values by R57. -/
def pickMax (f : Fp) (x t : Nat) : Nat :=
  let a := f.decode x
  let b := f.decode t
  if a.isNaN && b.isNaN then f.nanCode
  else if a.isNaN then t
  else if b.isNaN then x
  else if a.below b then t else x

/-! ## Triggers -/

/-- The low 32 bits of an operand, as FP32 (R54). -/
def lo32 (w : Word) : Nat := w.toNat % 2 ^ 32

/-- An operand as an FP32 value. -/
def val32 (w : Word) : XR := f32.decode (lo32 w)

/-- An operand as an FP64 value. -/
def val64 (w : Word) : XR := f64.decode w.toNat

/-- A rounded result delivered to fa.r: SEED advances at the end of the bundle, NFS is set at delivery (R56, R59). -/
def State.faRound (s : State) (env : Env) (lat : Nat) (ext : Nat → Word) (go : RMode → Word → Rounded) : State :=
  let r := go env.t0.ctl.rm (s.ctx env.c env.x).ctl.seed
  let s := s.updCtx env.c env.x fun t => { t with ctl := { t.ctl with seed := r.seed } }
  s.result env .fa ((ext r.bits).zeroExtend 2048) lat (if r.nfs then 1 else 0)

/-- An fa trigger that rounds an exact result: x from fa.o, y from fa.p, t the trigger value (R54). -/
def faTrig (off lat weight : Nat) (ext : Nat → Word) (f : Word → Word → Word → RMode → Word → Rounded) : Trigger :=
  { unit := .fa, code := 0x140 + off, weight := fun _ _ _ => weight, results := fun _ => 1
    act := fun env s v => s.faRound env lat ext (f env.lat.faO env.lat.faP (v.truncate 64)) }

/-- An FP32 arithmetic trigger (R55). -/
def fa32 (off : Nat) (f : XR → XR → XR → XR) : Trigger :=
  faTrig off 4 4 (BitVec.ofNat 64) fun x y t m seed => f32.round m seed (f (val32 x) (val32 y) (val32 t)).toRV

/-- An FP64 arithmetic trigger (R55). -/
def fa64 (off : Nat) (f : XR → XR → XR → XR) : Trigger :=
  faTrig off 6 8 (BitVec.ofNat 64) fun x y t m seed => f64.round m seed (f (val64 x) (val64 y) (val64 t)).toRV

/-- An fa trigger whose result is a code or a truth value, drawing nothing (R57): a NaN or an infinity delivered by fmin or fmax
sets NFS, a compare never does (R56). -/
def faPick (off : Nat) (cmp : Bool) (f : Word → Word → Nat) : Trigger :=
  faTrig off 4 4 (BitVec.ofNat 64) fun x _ t _ seed =>
    let b := f x t
    { bits := b, nfs := !cmp && !(f32.decode b).isFin, inexact := false, seed := seed }

/-- fcvti (R58). -/
def fcvtiOp (t : Word) (mode : RMode) (seed : Word) : Rounded := roundToInt 32 true mode seed (val32 t).toRV

/-- FADD as a trigger: FP32 add (R55). -/
def trigFadd : Trigger := fa32 2 (fun x _ t => x.add t)

/-- FADD: the bundle that holds this move alone issues (R55). -/
def execFadd (g : Guard) (src : Src) (s : State) : Host.Outcome State Fault Refusal :=
  s.issueSolo (soloMove g src (.trig trigFadd))

/-- FSUB as a trigger: FP32 subtract (R55). -/
def trigFsub : Trigger := fa32 3 (fun x _ t => x.sub t)

/-- FSUB: the bundle that holds this move alone issues (R55). -/
def execFsub (g : Guard) (src : Src) (s : State) : Host.Outcome State Fault Refusal :=
  s.issueSolo (soloMove g src (.trig trigFsub))

/-- FMUL as a trigger: FP32 multiply (R55). -/
def trigFmul : Trigger := fa32 4 (fun x _ t => x.mul t)

/-- FMUL: the bundle that holds this move alone issues (R55). -/
def execFmul (g : Guard) (src : Src) (s : State) : Host.Outcome State Fault Refusal :=
  s.issueSolo (soloMove g src (.trig trigFmul))

/-- FFMA as a trigger: FP32 fused multiply-add (R55). -/
def trigFfma : Trigger := fa32 5 (fun x y t => x.fma y t)

/-- FFMA: the bundle that holds this move alone issues (R55). -/
def execFfma (g : Guard) (src : Src) (s : State) : Host.Outcome State Fault Refusal :=
  s.issueSolo (soloMove g src (.trig trigFfma))

/-- FMIN as a trigger: FP32 minimum (R57). -/
def trigFmin : Trigger := faPick 6 false (fun x t => pickMin f32 (lo32 x) (lo32 t))

/-- FMIN: the bundle that holds this move alone issues (R57). -/
def execFmin (g : Guard) (src : Src) (s : State) : Host.Outcome State Fault Refusal :=
  s.issueSolo (soloMove g src (.trig trigFmin))

/-- FMAX as a trigger: FP32 maximum (R57). -/
def trigFmax : Trigger := faPick 7 false (fun x t => pickMax f32 (lo32 x) (lo32 t))

/-- FMAX: the bundle that holds this move alone issues (R57). -/
def execFmax (g : Guard) (src : Src) (s : State) : Host.Outcome State Fault Refusal :=
  s.issueSolo (soloMove g src (.trig trigFmax))

/-- FEQ as a trigger: Quiet FP32 equality compare (R57). -/
def trigFeq : Trigger := faPick 8 true (fun x t => if (val32 x).eq (val32 t) then 1 else 0)

/-- FEQ: the bundle that holds this move alone issues (R57). -/
def execFeq (g : Guard) (src : Src) (s : State) : Host.Outcome State Fault Refusal :=
  s.issueSolo (soloMove g src (.trig trigFeq))

/-- FLT as a trigger: Quiet FP32 less-than compare (R57). -/
def trigFlt : Trigger := faPick 9 true (fun x t => if (val32 x).lt (val32 t) then 1 else 0)

/-- FLT: the bundle that holds this move alone issues (R57). -/
def execFlt (g : Guard) (src : Src) (s : State) : Host.Outcome State Fault Refusal :=
  s.issueSolo (soloMove g src (.trig trigFlt))

/-- FLE as a trigger: Quiet FP32 less-or-equal compare (R57). -/
def trigFle : Trigger := faPick 10 true (fun x t => if (val32 x).le (val32 t) then 1 else 0)

/-- FLE: the bundle that holds this move alone issues (R57). -/
def execFle (g : Guard) (src : Src) (s : State) : Host.Outcome State Fault Refusal :=
  s.issueSolo (soloMove g src (.trig trigFle))

/-- FUN as a trigger: 1 if either operand is NaN (R55). -/
def trigFun : Trigger := faPick 11 true (fun x t => if (val32 x).isNaN || (val32 t).isNaN then 1 else 0)

/-- FUN: the bundle that holds this move alone issues (R55). -/
def execFun (g : Guard) (src : Src) (s : State) : Host.Outcome State Fault Refusal :=
  s.issueSolo (soloMove g src (.trig trigFun))

/-- FSQRT as a trigger: FP32 square root (R55). -/
def trigFsqrt : Trigger := faTrig 12 12 8 (BitVec.ofNat 64) fun _ _ t m seed => f32.round m seed (val32 t).sqrt

/-- FSQRT: the bundle that holds this move alone issues (R55). -/
def execFsqrt (g : Guard) (src : Src) (s : State) : Host.Outcome State Fault Refusal :=
  s.issueSolo (soloMove g src (.trig trigFsqrt))

/-- FRCP as a trigger: FP32 reciprocal (R55). -/
def trigFrcp : Trigger := faTrig 13 12 8 (BitVec.ofNat 64) fun _ _ t m seed => f32.round m seed (val32 t).rcp

/-- FRCP: the bundle that holds this move alone issues (R55). -/
def execFrcp (g : Guard) (src : Src) (s : State) : Host.Outcome State Fault Refusal :=
  s.issueSolo (soloMove g src (.trig trigFrcp))

/-- FCVTI as a trigger: Converts FP32 to int32 with saturation (R58). -/
def trigFcvti : Trigger := faTrig 14 4 4 (fun b => (BitVec.ofNat 32 b).signExtend 64) fun _ _ t m seed => fcvtiOp t m seed

/-- FCVTI: the bundle that holds this move alone issues (R58). -/
def execFcvti (g : Guard) (src : Src) (s : State) : Host.Outcome State Fault Refusal :=
  s.issueSolo (soloMove g src (.trig trigFcvti))

/-- ICVTF as a trigger: Converts int64 to FP32 (R55). -/
def trigIcvtf : Trigger := faTrig 15 4 4 (BitVec.ofNat 64) fun _ _ t m seed => f32.round m seed (XR.ofInt t.toInt).toRV

/-- ICVTF: the bundle that holds this move alone issues (R55). -/
def execIcvtf (g : Guard) (src : Src) (s : State) : Host.Outcome State Fault Refusal :=
  s.issueSolo (soloMove g src (.trig trigIcvtf))

/-- DADD as a trigger: FP64 add (R55). -/
def trigDadd : Trigger := fa64 16 (fun x _ t => x.add t)

/-- DADD: the bundle that holds this move alone issues (R55). -/
def execDadd (g : Guard) (src : Src) (s : State) : Host.Outcome State Fault Refusal :=
  s.issueSolo (soloMove g src (.trig trigDadd))

/-- DSUB as a trigger: FP64 subtract (R55). -/
def trigDsub : Trigger := fa64 17 (fun x _ t => x.sub t)

/-- DSUB: the bundle that holds this move alone issues (R55). -/
def execDsub (g : Guard) (src : Src) (s : State) : Host.Outcome State Fault Refusal :=
  s.issueSolo (soloMove g src (.trig trigDsub))

/-- DMUL as a trigger: FP64 multiply (R55). -/
def trigDmul : Trigger := fa64 18 (fun x _ t => x.mul t)

/-- DMUL: the bundle that holds this move alone issues (R55). -/
def execDmul (g : Guard) (src : Src) (s : State) : Host.Outcome State Fault Refusal :=
  s.issueSolo (soloMove g src (.trig trigDmul))

/-- DFMA as a trigger: FP64 fused multiply-add (R55). -/
def trigDfma : Trigger := fa64 19 (fun x y t => x.fma y t)

/-- DFMA: the bundle that holds this move alone issues (R55). -/
def execDfma (g : Guard) (src : Src) (s : State) : Host.Outcome State Fault Refusal :=
  s.issueSolo (soloMove g src (.trig trigDfma))

/-- FCVTD as a trigger: Converts FP32 to FP64 exactly (R58). -/
def trigFcvtd : Trigger := faTrig 20 6 8 (BitVec.ofNat 64) fun _ _ t m seed => f64.round m seed (val32 t).toRV

/-- FCVTD: the bundle that holds this move alone issues (R58). -/
def execFcvtd (g : Guard) (src : Src) (s : State) : Host.Outcome State Fault Refusal :=
  s.issueSolo (soloMove g src (.trig trigFcvtd))

/-- DCVTF as a trigger: Converts FP64 to FP32 (R58). -/
def trigDcvtf : Trigger := faTrig 21 6 8 (BitVec.ofNat 64) fun _ _ t m seed => f32.round m seed (val64 t).toRV

/-- DCVTF: the bundle that holds this move alone issues (R58). -/
def execDcvtf (g : Guard) (src : Src) (s : State) : Host.Outcome State Fault Refusal :=
  s.issueSolo (soloMove g src (.trig trigDcvtf))

end Sys2Proof.Machine
end

