-- ==== Sys2Proof/Machine/Control.lean ====
section
/-!
DEFINITION. The control unit cu (R60-R68), and the control-register, trap and yield triggers of the sy unit (R14, R133, R345, R346).
-/

namespace Sys2Proof.Machine

/-! ## Transfers (R60-R63) -/

/-- A transfer triggered by a bundle: two delay bundles follow (R26, R63). -/
def State.transfer (s : State) (env : Env) (target : BIndex) (skip : Option (BitVec 1)) : State :=
  s.updCtx env.c env.x fun t => { t with xfer := t.xfer ++ [{ target := target, left := 2, eret := skip }] }

/-- The low 47 bits of a value as a bundle index (R60). -/
def toIndex (w : Word) : BIndex := w.truncate 47

/-- The position that follows x in fetch order, and the context as it is there, for the reckoning of a return index (R61): no iteration
retires while the call's own transfer is pending, and a pending eret goes to the trapping bundle with what its handler holds (R346). -/
def Ctx.follow (t : Ctx) (x : BIndex) : BIndex × Ctx :=
  match t.decide true x t.flow with
  | (.at i, f) => (i, t.setFlow f)
  | (.boundary, f) => (x + 1, t.setFlow f)
  | (.eret b, f) => let t := (t.setFlow f).leaveUser b; (t.pc, t)

/-- The index of the third bundle that follows B in fetch order, B's own transfer left out (R61). -/
def Ctx.returnIndex (t : Ctx) : BIndex :=
  let (p1, t) := t.follow t.pc
  let (p2, t) := t.follow p1
  (t.follow p2).1

/-- lr written by call and callr with the return index (R61). -/
def State.linkReturn (s : State) (env : Env) : State :=
  s.updCtx env.c env.x fun t => { t with lr := env.t0.returnIndex.zeroExtend 64 }

/-- A cu trigger. -/
def cuTrig (off : Nat) (act : Env → State → Word → State) : Trigger :=
  { unit := .cu, code := 0x180 + off, act := fun env s v => act env s (v.truncate 64) }

/-! ## Loops (R65, R68) -/

/-- A change of a loop level: it acts on the fetch decisions from the second bundle that follows on; nothing for a level that
has no entry (R65, R68), nor while a user handler is active (R344). -/
def State.loopChange (s : State) (env : Env) (level : BitVec 2) (armed : Bool) (n : BitVec 32) : State :=
  if env.t0.handler.isSome || !(lvl env.t0.loops level.toNat).valid then s
  else s.updCtx env.c env.x fun t => { t with changes := t.changes ++ [{ level := level, armed := armed, c := n, left := 2 }] }

/-- lbrk (R68). -/
def State.loopBreak (s : State) (env : Env) (v : Word) : State :=
  let level : BitVec 2 := v.truncate 2
  let s := s.loopChange env level false 0
  if v.getLsbD 2 && (lvl env.t0.loops level.toNat).valid && env.t0.handler.isNone then
    s.transfer env ((lvl env.t0.loops level.toNat).last + 1) none
  else s

/-! ## The sy unit's own (R14, R133, R345, R346) -/

/-- A sy trigger that never waits. -/
def syTrig (off : Nat) (act : Env → State → Word → State) : Trigger :=
  { unit := .sy, code := 0x340 + off, act := fun env s v => act env s (v.truncate 64) }

/-- The six bits of a control register's index (R14). -/
def ctlIdx (v : Word) : Nat := v.toNat % 64

/-- eret: a transfer while a user handler of the context is active, nothing otherwise (R346). -/
def State.eretAct (s : State) (env : Env) (v : Word) : State :=
  if env.t0.handler.isSome then s.transfer env 0 (some (v.truncate 1)) else s

/-- BR as a trigger: Absolute branch after two delay bundles (R60). -/
def trigBr : Trigger := cuTrig 1 fun env s v => s.transfer env (toIndex v) none

/-- BR: the bundle that holds this move alone issues (R60). -/
def execBr (g : Guard) (src : Src) (s : State) : Host.Outcome State Fault Refusal :=
  s.issueSolo (soloMove g src (.trig trigBr))

/-- BRR as a trigger: Relative branch (R60). -/
def trigBrr : Trigger := cuTrig 2 fun env s v => s.transfer env (env.t0.pc + toIndex v) none

/-- BRR: the bundle that holds this move alone issues (R60). -/
def execBrr (g : Guard) (src : Src) (s : State) : Host.Outcome State Fault Refusal :=
  s.issueSolo (soloMove g src (.trig trigBrr))

/-- CALL as a trigger: Absolute call that writes lr (R61). -/
def trigCall : Trigger := cuTrig 3 fun env s v => (s.transfer env (toIndex v) none).linkReturn env

/-- CALL: the bundle that holds this move alone issues (R61). -/
def execCall (g : Guard) (src : Src) (s : State) : Host.Outcome State Fault Refusal :=
  s.issueSolo (soloMove g src (.trig trigCall))

/-- CALLR as a trigger: Relative call that writes lr (R61). -/
def trigCallr : Trigger := cuTrig 4 fun env s v => (s.transfer env (env.t0.pc + toIndex v) none).linkReturn env

/-- CALLR: the bundle that holds this move alone issues (R61). -/
def execCallr (g : Guard) (src : Src) (s : State) : Host.Outcome State Fault Refusal :=
  s.issueSolo (soloMove g src (.trig trigCallr))

/-- RET as a trigger: Transfer to lr (R60). -/
def trigRet : Trigger := cuTrig 5 fun env s _ => s.transfer env (toIndex env.t0.lr) none

/-- RET: the bundle that holds this move alone issues (R60). -/
def execRet (g : Guard) (src : Src) (s : State) : Host.Outcome State Fault Refusal :=
  s.issueSolo (soloMove g src (.trig trigRet))

/-- LOOP as a trigger: Arms a hardware loop level with a count (R65). -/
def trigLoop : Trigger := cuTrig 6 fun env s v => s.loopChange env (v.truncate 2) true (env.lat.cuO.truncate 32)

/-- LOOP: the bundle that holds this move alone issues (R65). -/
def execLoop (g : Guard) (src : Src) (s : State) : Host.Outcome State Fault Refusal :=
  s.issueSolo (soloMove g src (.trig trigLoop))

/-- LBRK as a trigger: Disarms a loop level, optionally transferring past its end (R68). -/
def trigLbrk : Trigger := cuTrig 7 fun env s v => s.loopBreak env v

/-- LBRK: the bundle that holds this move alone issues (R68). -/
def execLbrk (g : Guard) (src : Src) (s : State) : Host.Outcome State Fault Refusal :=
  s.issueSolo (soloMove g src (.trig trigLbrk))

/-- CTLR as a trigger: Reads a control register into sy.r (R14). -/
def trigCtlr : Trigger := syTrig 5 fun env s v => s.result env .sy ((env.t0.ctlRead env.c env.x (ctlIdx v)).zeroExtend 2048) 1 0

/-- CTLR: the bundle that holds this move alone issues (R14). -/
def execCtlr (g : Guard) (src : Src) (s : State) : Host.Outcome State Fault Refusal :=
  s.issueSolo (soloMove g src (.trig trigCtlr))

/-- CTLW as a trigger: Writes a control register from sy.o at the end of the bundle (R14). -/
def trigCtlw : Trigger := syTrig 6 fun env s v => s.updCtx env.c env.x fun t => { t with ctl := t.ctl.write (ctlIdx v) env.lat.syO }

/-- CTLW: the bundle that holds this move alone issues (R14). -/
def execCtlw (g : Guard) (src : Src) (s : State) : Host.Outcome State Fault Refusal :=
  s.issueSolo (soloMove g src (.trig trigCtlw))

/-- TRAP as a trigger: Raises BREAK with a code (R345). -/
def trigTrap : Trigger := { syTrig 7 (fun _ s _ => s) with brk := some fun v => { cause := .brk, info := v.toNat % 512 } }

/-- TRAP: the bundle that holds this move alone issues (R345). -/
def execTrap (g : Guard) (src : Src) (s : State) : Host.Outcome State Fault Refusal :=
  s.issueSolo (soloMove g src (.trig trigTrap))

/-- ERET as a trigger: Returns from a user handler to the trapping bundle, re-executing it or skipping it (R346). -/
def trigEret : Trigger := syTrig 8 fun env s v => s.eretAct env v

/-- ERET: the bundle that holds this move alone issues (R346). -/
def execEret (g : Guard) (src : Src) (s : State) : Host.Outcome State Fault Refusal :=
  s.issueSolo (soloMove g src (.trig trigEret))

/-- YIELD as a trigger: Switches to another ready context after commit (R133). -/
def trigYield : Trigger := syTrig 9 fun env s _ => s.updCtx env.c env.x fun t => { t with yielded := true }

/-- YIELD: the bundle that holds this move alone issues (R133). -/
def execYield (g : Guard) (src : Src) (s : State) : Host.Outcome State Fault Refusal :=
  s.issueSolo (soloMove g src (.trig trigYield))

end Sys2Proof.Machine
end

