-- ==== Sys2Proof/Machine/Lanes.lean ====
section
/-!
DEFINITION. What the operations of a vector unit compute (05): lanes and masks (R88-R91), arithmetic (R93-R95), compares (R96),
logic and lane moves (R97-R99), conversion (R100), reductions and scan (R101, R102), transcendentals (R103), blocks (R104, R105)
and ranking (R106, R107).
-/

namespace Sys2Proof.Machine

/-- The operands of a vector operation (R88). -/
structure VArgs where
  a : VWord
  b : VWord
  k : KWord
  t : VWord
  /-- VFMT and RM at the start of the bundle -/
  fmt : FmtCode
  rm : RMode
  seed : Word
deriving DecidableEq, Repr

/-- What a vector operation delivers: the ports it names, whether NFS and SCLAMP are due, and SEED after its draws (R91). -/
structure VRes where
  v : Option VWord := none
  m : Option KWord := none
  s : Option Word := none
  nfs : Bool := false
  sclamp : Bool := false
  seed : Word
deriving DecidableEq, Repr

/-! ## Lanes -/

/-- Under VFMT sc8 the lanes are treated as n8 (R89). -/
def opFmt (c : FmtCode) : FmtCode := if c = fmtSc8 then 0x0D#7 else c

/-- Whether lane i, of lb bits, is active under a mask (R90). -/
def laneActive (k : KWord) (lb i : Nat) : Bool := k.getLsbD (i * (lb / 8))

/-- The element code of lane i. -/
def elemAt (v : VWord) (c : FmtCode) (i : Nat) : Nat := laneAt v (laneBits c) i % 2 ^ fmtWidth c

/-- The value of lane i. -/
def valAt (v : VWord) (c : FmtCode) (i : Nat) : XR := fmtDecode c (elemAt v c i)

/-- The integer value of lane i of an integer-class format. -/
def intAt (v : VWord) (c : FmtCode) (i : Nat) : Int :=
  match fmtInfo c with
  | some (.int w s) => intOf w s (elemAt v c i)
  | _ => 0

/-- Lanes computed in ascending order, drawing as they go (R91): f gives a lane's bits, whether NFS is due, and SEED. -/
def runLanes (f : Nat → Word → Nat × Bool × Word) : List Nat → Word → List Nat × Bool × Word
  | [], s => ([], false, s)
  | i :: is, s =>
    let (b, n, s1) := f i s
    let (bs, n', s2) := runLanes f is s1
    (b :: bs, n || n', s2)

/-- An operation on active lanes; the others keep lane i of a (R90). f gives the element code. -/
def VArgs.lanes (x : VArgs) (f : Nat → Word → Nat × Bool × Word) : VRes :=
  let c := opFmt x.fmt
  let lb := laneBits c
  let (bs, n, s) := runLanes (fun i s =>
    if laneActive x.k lb i then
      let (b, n, s) := f i s
      (laneFill c b, n, s)
    else (laneAt x.a lb i, false, s)) (List.range (2048 / lb)) x.seed
  { v := some (ofLanes lb bs), nfs := n, seed := s }

/-- A rounding as a lane's outcome. -/
def Rounded.lane (r : Rounded) : Nat × Bool × Word := (r.bits, r.nfs, r.seed)

/-! ## Arithmetic (R93-R95) -/

/-- An integer result wrapped or saturated to the element width (R94). -/
def fitInt (c : FmtCode) (rm : RMode) (n : Int) : Nat :=
  match fmtInfo c with
  | some (.int w s) =>
    if rm = 2#2 then intCode w (if n < intMin w s then intMin w s else if intMax w s < n then intMax w s else n) else intCode w n
  | _ => 0

/-- Elementwise arithmetic: the FP class rounds an exact result (R93), the integer class wraps or saturates (R94). -/
def vArith (fp : XR → XR → XR → XR) (int : Int → Int → Int → Int) (x : VArgs) : VRes :=
  let c := opFmt x.fmt
  x.lanes fun i s =>
    if fmtIsFp c then (roundFmt c x.rm s (fp (valAt x.a c i) (valAt x.b c i) (valAt x.t c i)).toRV).lane
    else (fitInt c x.rm (int (intAt x.a c i) (intAt x.b c i) (intAt x.t c i)), false, s)

/-- The floating format of a code. -/
def fpOf (c : FmtCode) : Fp := match fmtInfo c with | some (.fp f) => f | _ => f32

/-- vmin and vmax (R95). -/
def vPick (fp : Fp → Nat → Nat → Nat) (less : Int → Int → Bool) (x : VArgs) : VRes :=
  let c := opFmt x.fmt
  x.lanes fun i s =>
    if fmtIsFp c then
      let b := fp (fpOf c) (elemAt x.a c i) (elemAt x.t c i)
      (b, !((fpOf c).decode b).isFin, s)
    else ((if less (intAt x.t c i) (intAt x.a c i) then elemAt x.t c i else elemAt x.a c i), false, s)

/-- vabs and vneg, on t (R95). -/
def vUnary (fp : XR → XR) (int : Int → Int) (x : VArgs) : VRes :=
  let c := opFmt x.fmt
  x.lanes fun i s =>
    if fmtIsFp c then (roundFmt c x.rm s (fp (valAt x.t c i)).toRV).lane
    else (fitInt c x.rm (int (intAt x.t c i)), false, s)

/-! ## Compares and select (R96, R97) -/

/-- The mask whose lanes i with p i have all their bits set. -/
def laneMask (lb : Nat) (p : Nat → Bool) : KWord :=
  BitVec.ofNat 256 (packBits (lb / 8) ((List.range (2048 / lb)).map fun i => if p i then 2 ^ (lb / 8) - 1 else 0))

/-- Lanes of a test set their mask bits and are counted. -/
def VArgs.test (x : VArgs) (p : Nat → Bool) : VRes :=
  let lb := laneBits (opFmt x.fmt)
  let q : Nat → Bool := fun i => laneActive x.k lb i && p i
  { m := some (laneMask lb q), s := some (BitVec.ofNat 64 ((List.range (2048 / lb)).countP q)), seed := x.seed }

/-- A compare of a and t (R96). -/
def vCompare (fp : XR → XR → Bool) (int : Int → Int → Bool) (x : VArgs) : VRes :=
  let c := opFmt x.fmt
  x.test fun i =>
    if fmtIsFp c then fp (valAt x.a c i) (valAt x.t c i) else int (intAt x.a c i) (intAt x.t c i)

/-- vsel: every lane, bit for bit (R97). -/
def vSelect (x : VArgs) : VRes :=
  let lb := laneBits x.fmt
  { v := some (ofLanes lb ((List.range (2048 / lb)).map fun i => laneAt (if laneActive x.k lb i then x.a else x.t) lb i))
    seed := x.seed }

/-! ## Logic, shifts, lane moves (R98, R99) -/

/-- An operation on whole lanes: active ones receive f, an element narrower than 8 bits being written back under R73 (R89, R98); the
others keep a. -/
def VArgs.raw (x : VArgs) (f : Nat → Nat) : VRes := x.lanes fun i s => (f i % 2 ^ fmtWidth (opFmt x.fmt), false, s)

/-- vand, vor and vxor combine the full lane bits, and what is narrower than 8 bits is filled again (R98). -/
def vLogic (f : Nat → Nat → Nat) (x : VArgs) : VRes :=
  let lb := laneBits x.fmt
  x.raw fun i => f (laneAt x.a lb i) (laneAt x.t lb i)

/-- Shifts of the element's pattern of width w, by t mod w (R98). -/
def vShift (f : Nat → Nat → Nat → Nat) (x : VArgs) : VRes :=
  let c := opFmt x.fmt
  let w := fmtWidth c
  x.lanes fun i s => (f w (elemAt x.a c i) (elemAt x.t c i % w) % 2 ^ w, false, s)

/-- The arithmetic right shift of a w-bit pattern. -/
def sarBits (w b d : Nat) : Nat := intCode w (intOf w true b / (2 ^ d : Nat))

/-- vbcast (R99). -/
def vBcast (x : VArgs) : VRes :=
  let c := opFmt x.fmt
  x.lanes fun _ s => (x.t.toNat % 2 ^ fmtWidth c, false, s)

/-- An element as a 64-bit scalar: an iN is sign-extended, every other zero-extended (R99). -/
def scalarOf (c : FmtCode) (b : Nat) : Word :=
  match fmtInfo c with
  | some (.int w true) => BitVec.ofInt 64 (intOf w true b)
  | _ => BitVec.ofNat 64 b

/-- vextr (R99). -/
def vExtract (x : VArgs) : VRes :=
  let c := opFmt x.fmt
  let j := x.t.toNat % 256
  { s := some (if j < laneCount c then scalarOf c (elemAt x.a c j) else 0), seed := x.seed }

/-- vperm (R99): a packed element is filled as it is written (R89). -/
def vPermute (x : VArgs) : VRes :=
  let lb := laneBits x.fmt
  x.raw fun i =>
    let j := laneAt x.t lb i % 256
    if j < 2048 / lb then laneAt x.a lb j else 0

/-- vidx (R99). -/
def vIndex (x : VArgs) : VRes :=
  let c := opFmt x.fmt
  let b : Int := (x.t.truncate 32 : BitVec 32).toInt
  let d : Int := (x.t.extractLsb' 32 32 : BitVec 32).toInt
  x.lanes fun i s =>
    let n := b + (i : Int) * d
    if fmtIsFp c then (roundFmt c x.rm s (XR.ofInt n).toRV).lane else (intCode (fmtWidth c) n, false, s)

/-! ## Conversion (R100) -/

/-- vcvt: D = b[6:0], segment q = b[9:8]. -/
def vConvert (x : VArgs) : VRes :=
  let d : FmtCode := x.b.truncate 7
  let q := (x.b.extractLsb' 8 2).toNat
  if !pairValid x.fmt d || d = fmtF64 then { v := some x.a, s := some 1, seed := x.seed }
  else
    let ls := laneCount x.fmt
    let ld := laneCount d
    let lb := laneBits d
    let (bs, n, s) := runLanes (fun i s =>
      let j : Int := if ld ≤ ls then (q * ld + i : Nat) else (i : Int) - (q * ls : Nat)
      if laneActive x.k lb i && 0 ≤ j && j < ls then
        if x.fmt = d then (laneAt x.t lb j.toNat, false, s)
        else
          let r := conv (elemAt x.t x.fmt j.toNat) x.fmt d x.rm s
          (laneFill d r.bits, r.nfs, r.seed)
      else (laneAt x.a lb i, false, s)) (List.range ld) x.seed
    { v := some (ofLanes lb bs), s := some 0, nfs := n, seed := s }

/-! ## Reductions and scan (R101, R102) -/

/-- The active lanes, in ascending order. -/
def VArgs.active (x : VArgs) : List Nat :=
  (List.range (laneCount x.fmt)).filter fun i => laneActive x.k (laneBits x.fmt) i

/-- One level of the fixed tree: neighbouring pairs summed in f32, drawing in ascending order (R101). -/
def treeLevel (rm : RMode) : List XR → Word → List XR × Word
  | x :: y :: r, s =>
    let z := f32.round rm s (x.add y).toRV
    let (l, s') := treeLevel rm r z.seed
    (f32.decode z.bits :: l, s')
  | l, s => (l, s)

/-- The fixed tree: L is at most 2^8. -/
def treeSum (rm : RMode) : Nat → List XR → Word → XR × Word
  | 0, l, s => (l.headD (.fin false 0 0), s)
  | n + 1, l, s =>
    match l with
    | _ :: _ :: _ =>
      let (l', s') := treeLevel rm l s
      treeSum rm n l' s'
    | _ => (l.headD (.fin false 0 0), s)

/-- The f32 code of a value exact in f32. -/
def f32Code (x : XR) : Nat := (f32.round 0#2 0 x.toRV).bits

/-- vredadd (R101). -/
def vReduceAdd (x : VArgs) : VRes :=
  let c := opFmt x.fmt
  if x.active.isEmpty then { s := some 0, seed := x.seed }
  else if fmtIsFp c then
    let xs := (List.range (laneCount c)).map fun i =>
      if laneActive x.k (laneBits c) i then valAt x.t c i else .fin false 0 0
    let (r, s) := treeSum x.rm 8 xs x.seed
    { s := some (BitVec.ofNat 64 (f32Code r)), nfs := !r.isFin, seed := s }
  else { s := some (BitVec.ofInt 64 ((x.active.map fun i => intAt x.t c i).sum)), seed := x.seed }

/-- vredmax and vredmin: the extreme active element, in the lane format (R101). -/
def vReduce (fp : Fp → Nat → Nat → Nat) (less : Int → Int → Bool) (x : VArgs) : VRes :=
  let c := opFmt x.fmt
  let pick : Nat → Nat → Nat := fun p q =>
    if fmtIsFp c then fp (fpOf c) p q
    else match fmtInfo c with
      | some (.int w g) => if less (intOf w g q) (intOf w g p) then q else p
      | _ => p
  match x.active.map fun i => elemAt x.t c i with
  | [] => { s := some 0, seed := x.seed }
  | b :: bs =>
    let r := bs.foldl pick b
    let r := if fmtIsFp c && ((fpOf c).decode r).isNaN then (fpOf c).nanCode else r
    { s := some (scalarOf c r), seed := x.seed }

/-- The running sum of vscan in the FP class (R102). -/
def scanFp (x : VArgs) (c : FmtCode) : List Nat → Option XR → Word → List Nat × Bool × Option XR × Word
  | [], a, s => ([], false, a, s)
  | i :: is, a, s =>
    if laneActive x.k (laneBits c) i then
      let v := valAt x.t c i
      let (u, s) := match a with
        | none => (v, s)
        | some w =>
          let z := f32.round x.rm s (w.add v).toRV
          (f32.decode z.bits, z.seed)
      let r := roundFmt c x.rm s u.toRV
      let (bs, n, a', s') := scanFp x c is (some u) r.seed
      (laneFill c r.bits :: bs, r.nfs || n, a', s')
    else
      let (bs, n, a', s') := scanFp x c is a s
      (laneAt x.a (laneBits c) i :: bs, n, a', s')

/-- The running sum of vscan in the integer class (R102). -/
def scanInt (x : VArgs) (c : FmtCode) : List Nat → Int → List Nat × Int
  | [], a => ([], a)
  | i :: is, a =>
    if laneActive x.k (laneBits c) i then
      let u := a + intAt x.t c i
      let (bs, r) := scanInt x c is u
      (laneFill c (fitInt c x.rm u) :: bs, r)
    else
      let (bs, r) := scanInt x c is a
      (laneAt x.a (laneBits c) i :: bs, r)

/-- vscan (R102). -/
def vScan (x : VArgs) : VRes :=
  let c := opFmt x.fmt
  let is := List.range (laneCount c)
  if fmtIsFp c then
    let (bs, n, a, s) := scanFp x c is none x.seed
    { v := some (ofLanes (laneBits c) bs), nfs := n, seed := s
      s := some (match a with | some u => BitVec.ofNat 64 (f32Code u) | none => 0) }
  else
    let (bs, r) := scanInt x c is 0
    { v := some (ofLanes (laneBits c) bs), s := some (BitVec.ofInt 64 r), seed := x.seed }

/-! ## Transcendentals (R103) -/

/-- 2^x. Beyond 2^16 in magnitude the power stands beyond every format's range, and a value of the same side and inexactness
stands for it. -/
def exp2RV : XR → RV
  | .nan => .nan
  | .inf s => if s then .fin false (.dy 0 0) else .inf false
  | .fin s m e =>
    let whole := 0 ≤ e || m % 2 ^ (-e).toNat = 0
    let n : Nat := shiftNat m e
    if whole then .fin false (.dy 1 ((if s then -1 else 1) * (Nat.min n (2 ^ 16) : Int)))
    else if 2 ^ 16 < n then .fin false (.dy (2 ^ 40 + 1) ((if s then -1 else 1) * 2 ^ 16))
    else .fin false (.irr .exp2 s m e)

/-- log2 x. -/
def log2RV : XR → RV
  | .nan => .nan
  | .inf s => if s then .nan else .inf false
  | .fin s m e =>
    if m = 0 then .inf true
    else if s then .nan
    else
      let l : Int := (Nat.log2 m : Int) + e
      if m = 2 ^ Nat.log2 m then .fin (l < 0) (.dy l.natAbs 0) else .fin (l < 0) (.irr .log2 false m e)

/-- 1 / sqrt x. -/
def rsqrtRV : XR → RV
  | .nan => .nan
  | .inf s => if s then .nan else .fin false (.dy 0 0)
  | .fin s m e => if m = 0 then .inf s else if s then .nan else .fin false (.root 1 m (-e))

/-- tanh x: from 64 on a value just below 1 stands for it, and below 2^(-60) one just below the operand. -/
def tanhRV : XR → RV
  | .nan => .nan
  | .inf s => .fin s (.dy 1 0)
  | .fin s m e =>
    if m = 0 then .fin s (.dy 0 0)
    else
      let l : Int := (Nat.log2 m : Int) + e
      if 6 ≤ l then .fin s (.dy (2 ^ 200 - 1) (-200))
      else if l < -60 then .fin s (.dy (m * 2 ^ 150 - 1) (e - 150))
      else .fin s (.irr .tanh false m e)

/-- A transcendental of each active lane, rounded once (R103). -/
def vTrans (f : XR → RV) (x : VArgs) : VRes :=
  let c := opFmt x.fmt
  x.lanes fun i s => (roundFmt c x.rm s (f (valAt x.t c i))).lane

/-! ## Blocks (R104, R105) -/

/-- The blocks of vquant from block j on: element codes of every lane, scales, and what they report. -/
def quantBlocks (x : VArgs) (e : FmtCode) (bs : Nat) : Nat → Nat → Word → List Nat × List Nat × Bool × Bool × Word
  | 0, _, s => ([], [], false, false, s)
  | n + 1, j, s =>
    let is := (List.range bs).map fun i => j * bs + i
    let is := is.filter fun i => i < laneCount x.fmt
    let on := is.filter fun i => laneActive x.k (laneBits x.fmt) i
    let b := encodeBlock (on.map fun i => valAt x.t x.fmt i) e x.rm s
    let codes := is.map fun i => ((on.zip b.codes).lookup i).getD 0
    let (cs, es, cl, nf, s') := quantBlocks x e bs n (j + 1) b.seed
    (codes ++ cs, b.scale :: es, b.sclamp || cl, b.nfs || nf, s')

/-- vquant (R104). -/
def vQuant (x : VArgs) : VRes :=
  let e : FmtCode := x.b.truncate 7
  if !(fmtIsFp x.fmt && fmtBlockElem e) then { v := some 0, m := some 0, s := some 0, seed := x.seed }
  else
    let bs := blockSize (x.b.extractLsb' 7 2)
    let nb := (laneCount x.fmt + bs - 1) / bs
    let (cs, es, cl, nf, s) := quantBlocks x e bs nb 0 x.seed
    { v := some (ofLanes (fmtWidth e) cs), m := some (BitVec.ofNat 256 (packBits 8 es)), s := some (BitVec.ofNat 64 nb)
      nfs := nf, sclamp := cl, seed := s }

/-- vdeq (R105). -/
def vDequant (x : VArgs) : VRes :=
  let e : FmtCode := x.b.truncate 7
  if !fmtBlockElem e || x.fmt = fmtSc8 then { v := some 0, s := some 1, seed := x.seed }
  else
    let bs := blockSize (x.b.extractLsb' 7 2)
    let w := fmtWidth e
    let r := { x with a := 0 }.lanes fun i s =>
      let v := scaleBy (fmtDecode e ((x.t.toNat >>> (i * w)) % 2 ^ w)) (laneAt x.a 8 (i / bs))
      (roundFmt x.fmt x.rm s v.toRV).lane
    { r with s := some 0 }

/-! ## Detection and ranking (R106, R107) -/

/-- vnf (R106). -/
def vNonFinite (x : VArgs) : VRes :=
  let c := opFmt x.fmt
  let r := x.test fun i => fmtIsFp c && !(valAt x.t c i).isFin
  { r with nfs := r.s != some 0 }

/-- Inserts a lane after every lane that ranks before it. -/
def rankInsert (p : XR × Nat) : List (XR × Nat) → List (XR × Nat)
  | [] => [p]
  | q :: r => if q.1.lt p.1 then p :: q :: r else q :: rankInsert p r

/-- vtopk (R107). -/
def vTopk (x : VArgs) : VRes :=
  let c := opFmt x.fmt
  let k := Nat.min (x.b.toNat % 512) (laneCount c)
  let cand : List (XR × Nat) := (x.active.map fun i => (valAt x.t c i, i)).filter fun p => !p.1.isNaN
  let sel := ((cand.foldl (fun l p => rankInsert p l) []).take k).map (·.2)
  { v := some (ofLanes 8 (sel ++ List.replicate (256 - sel.length) 0xFF))
    m := some (laneMask (laneBits c) fun i => sel.contains i)
    s := some (BitVec.ofNat 64 sel.length), seed := x.seed }

/-! ## Triggers -/

/-- The operands of a trigger of unit u (R88). -/
def vArgsOf (env : Env) (s : State) (u : BitVec 1) (v : VWord) : VArgs :=
  { a := env.lat.vuO[u.toNat], b := env.lat.vuP[u.toNat], k := env.lat.vuK[u.toNat], t := v
    fmt := env.t0.ctl.vfmt, rm := env.t0.ctl.rm, seed := (s.ctx env.c env.x).ctl.seed }

/-- A vector operation starts: SEED advances, and each port it names receives its result after the latency, with its flags
(R91). -/
def State.vecAct (s : State) (env : Env) (u : BitVec 1) (lat : Nat) (r : VRes) : State :=
  let fl : BitVec 2 := (if r.nfs then 1 else 0) ||| (if r.sclamp then 2 else 0)
  let s := s.updCtx env.c env.x fun t => { t with ctl := { t.ctl with seed := r.seed } }
  let s := match r.v with | some w => s.result env (.vuV u) w lat fl | none => s
  let s := match r.m with | some w => s.result env (.vuM u) (w.zeroExtend 2048) lat fl | none => s
  match r.s with
  | some w => s.result env (.vuS u) (w.zeroExtend 2048) lat fl
  | none => s

/-- A vector trigger: its latency and its weight by the class of VFMT (R16, R171), and how many ports it writes. -/
def vuTrig (u : BitVec 1) (off : Nat) (li lf wi wf ports : Nat) (f : VArgs → VRes) : Trigger :=
  { unit := if u = 0 then .vu0 else .vu1
    code := 0x1C0 + 0x40 * u.toNat + off
    weight := fun env _ _ => if fmtIsFp env.t0.ctl.vfmt then wf else wi
    results := fun _ => ports
    act := fun env s v => s.vecAct env u (if fmtIsFp env.t0.ctl.vfmt then lf else li) (f (vArgsOf env s u v)) }

end Sys2Proof.Machine
end

