-- ==== Sys2Proof/Machine/Vector.lean ====
section
/-!
DEFINITION. The rows of the vector units vu0 and vu1 (R92).
-/

namespace Sys2Proof.Machine

/-- VU0_VADD as a trigger: Lane-wise add on vu0 (R93). -/
def trigVu0Vadd : Trigger := vuTrig 0 3 2 4 16 32 1 (vArith (fun a _ t => a.add t) (fun a _ t => a + t))

/-- VU0_VADD: the bundle that holds this move alone issues (R93). -/
def execVu0Vadd (g : Guard) (src : Src) (s : State) : Host.Outcome State Fault Refusal :=
  s.issueSolo (soloMove g src (.trig trigVu0Vadd))

/-- VU0_VSUB as a trigger: Lane-wise subtract on vu0 (R93). -/
def trigVu0Vsub : Trigger := vuTrig 0 4 2 4 16 32 1 (vArith (fun a _ t => a.sub t) (fun a _ t => a - t))

/-- VU0_VSUB: the bundle that holds this move alone issues (R93). -/
def execVu0Vsub (g : Guard) (src : Src) (s : State) : Host.Outcome State Fault Refusal :=
  s.issueSolo (soloMove g src (.trig trigVu0Vsub))

/-- VU0_VMUL as a trigger: Lane-wise multiply on vu0 (R93). -/
def trigVu0Vmul : Trigger := vuTrig 0 5 2 4 16 32 1 (vArith (fun a _ t => a.mul t) (fun a _ t => a * t))

/-- VU0_VMUL: the bundle that holds this move alone issues (R93). -/
def execVu0Vmul (g : Guard) (src : Src) (s : State) : Host.Outcome State Fault Refusal :=
  s.issueSolo (soloMove g src (.trig trigVu0Vmul))

/-- VU0_VFMA as a trigger: Lane-wise fused multiply-add on vu0 (R93). -/
def trigVu0Vfma : Trigger := vuTrig 0 6 2 4 16 32 1 (vArith XR.fma (fun a b t => a * b + t))

/-- VU0_VFMA: the bundle that holds this move alone issues (R93). -/
def execVu0Vfma (g : Guard) (src : Src) (s : State) : Host.Outcome State Fault Refusal :=
  s.issueSolo (soloMove g src (.trig trigVu0Vfma))

/-- VU0_VMIN as a trigger: Lane-wise minimum on vu0 (R95). -/
def trigVu0Vmin : Trigger := vuTrig 0 7 2 4 16 32 1 (vPick pickMin fun t a => t < a)

/-- VU0_VMIN: the bundle that holds this move alone issues (R95). -/
def execVu0Vmin (g : Guard) (src : Src) (s : State) : Host.Outcome State Fault Refusal :=
  s.issueSolo (soloMove g src (.trig trigVu0Vmin))

/-- VU0_VMAX as a trigger: Lane-wise maximum on vu0 (R95). -/
def trigVu0Vmax : Trigger := vuTrig 0 8 2 4 16 32 1 (vPick pickMax fun t a => a < t)

/-- VU0_VMAX: the bundle that holds this move alone issues (R95). -/
def execVu0Vmax (g : Guard) (src : Src) (s : State) : Host.Outcome State Fault Refusal :=
  s.issueSolo (soloMove g src (.trig trigVu0Vmax))

/-- VU0_VABS as a trigger: Lane-wise absolute value on vu0 (R95). -/
def trigVu0Vabs : Trigger := vuTrig 0 9 2 4 16 32 1 (vUnary XR.abs fun n => (n.natAbs : Int))

/-- VU0_VABS: the bundle that holds this move alone issues (R95). -/
def execVu0Vabs (g : Guard) (src : Src) (s : State) : Host.Outcome State Fault Refusal :=
  s.issueSolo (soloMove g src (.trig trigVu0Vabs))

/-- VU0_VNEG as a trigger: Lane-wise negation on vu0 (R95). -/
def trigVu0Vneg : Trigger := vuTrig 0 10 2 4 16 32 1 (vUnary XR.neg fun n => -n)

/-- VU0_VNEG: the bundle that holds this move alone issues (R95). -/
def execVu0Vneg (g : Guard) (src : Src) (s : State) : Host.Outcome State Fault Refusal :=
  s.issueSolo (soloMove g src (.trig trigVu0Vneg))

/-- VU0_VCEQ as a trigger: Lane-wise equality compare on vu0 (R96). -/
def trigVu0Vceq : Trigger := vuTrig 0 11 2 2 16 16 2 (vCompare XR.eq fun a t => a = t)

/-- VU0_VCEQ: the bundle that holds this move alone issues (R96). -/
def execVu0Vceq (g : Guard) (src : Src) (s : State) : Host.Outcome State Fault Refusal :=
  s.issueSolo (soloMove g src (.trig trigVu0Vceq))

/-- VU0_VCLT as a trigger: Lane-wise less-than compare on vu0 (R96). -/
def trigVu0Vclt : Trigger := vuTrig 0 12 2 2 16 16 2 (vCompare XR.lt fun a t => a < t)

/-- VU0_VCLT: the bundle that holds this move alone issues (R96). -/
def execVu0Vclt (g : Guard) (src : Src) (s : State) : Host.Outcome State Fault Refusal :=
  s.issueSolo (soloMove g src (.trig trigVu0Vclt))

/-- VU0_VCLE as a trigger: Lane-wise less-or-equal compare on vu0 (R96). -/
def trigVu0Vcle : Trigger := vuTrig 0 13 2 2 16 16 2 (vCompare XR.le fun a t => a ≤ t)

/-- VU0_VCLE: the bundle that holds this move alone issues (R96). -/
def execVu0Vcle (g : Guard) (src : Src) (s : State) : Host.Outcome State Fault Refusal :=
  s.issueSolo (soloMove g src (.trig trigVu0Vcle))

/-- VU0_VCUN as a trigger: Lane-wise unordered compare on vu0 (R96). -/
def trigVu0Vcun : Trigger := vuTrig 0 14 2 2 16 16 2 (vCompare (fun a t => a.isNaN || t.isNaN) fun _ _ => false)

/-- VU0_VCUN: the bundle that holds this move alone issues (R96). -/
def execVu0Vcun (g : Guard) (src : Src) (s : State) : Host.Outcome State Fault Refusal :=
  s.issueSolo (soloMove g src (.trig trigVu0Vcun))

/-- VU0_VSEL as a trigger: Lane select by mask on vu0 (R97). -/
def trigVu0Vsel : Trigger := vuTrig 0 15 2 2 16 16 1 vSelect

/-- VU0_VSEL: the bundle that holds this move alone issues (R97). -/
def execVu0Vsel (g : Guard) (src : Src) (s : State) : Host.Outcome State Fault Refusal :=
  s.issueSolo (soloMove g src (.trig trigVu0Vsel))

/-- VU0_VAND as a trigger: Lane-wise AND on vu0 (R98). -/
def trigVu0Vand : Trigger := vuTrig 0 16 2 2 16 16 1 (vLogic fun a t => a &&& t)

/-- VU0_VAND: the bundle that holds this move alone issues (R98). -/
def execVu0Vand (g : Guard) (src : Src) (s : State) : Host.Outcome State Fault Refusal :=
  s.issueSolo (soloMove g src (.trig trigVu0Vand))

/-- VU0_VOR as a trigger: Lane-wise OR on vu0 (R98). -/
def trigVu0Vor : Trigger := vuTrig 0 17 2 2 16 16 1 (vLogic fun a t => a ||| t)

/-- VU0_VOR: the bundle that holds this move alone issues (R98). -/
def execVu0Vor (g : Guard) (src : Src) (s : State) : Host.Outcome State Fault Refusal :=
  s.issueSolo (soloMove g src (.trig trigVu0Vor))

/-- VU0_VXOR as a trigger: Lane-wise XOR on vu0 (R98). -/
def trigVu0Vxor : Trigger := vuTrig 0 18 2 2 16 16 1 (vLogic fun a t => a ^^^ t)

/-- VU0_VXOR: the bundle that holds this move alone issues (R98). -/
def execVu0Vxor (g : Guard) (src : Src) (s : State) : Host.Outcome State Fault Refusal :=
  s.issueSolo (soloMove g src (.trig trigVu0Vxor))

/-- VU0_VSHL as a trigger: Lane-wise shift left on vu0 (R98). -/
def trigVu0Vshl : Trigger := vuTrig 0 19 2 2 16 16 1 (vShift fun _ b d => b <<< d)

/-- VU0_VSHL: the bundle that holds this move alone issues (R98). -/
def execVu0Vshl (g : Guard) (src : Src) (s : State) : Host.Outcome State Fault Refusal :=
  s.issueSolo (soloMove g src (.trig trigVu0Vshl))

/-- VU0_VSHR as a trigger: Lane-wise logical shift right on vu0 (R98). -/
def trigVu0Vshr : Trigger := vuTrig 0 20 2 2 16 16 1 (vShift fun _ b d => b >>> d)

/-- VU0_VSHR: the bundle that holds this move alone issues (R98). -/
def execVu0Vshr (g : Guard) (src : Src) (s : State) : Host.Outcome State Fault Refusal :=
  s.issueSolo (soloMove g src (.trig trigVu0Vshr))

/-- VU0_VSAR as a trigger: Lane-wise arithmetic shift right on vu0 (R98). -/
def trigVu0Vsar : Trigger := vuTrig 0 21 2 2 16 16 1 (vShift sarBits)

/-- VU0_VSAR: the bundle that holds this move alone issues (R98). -/
def execVu0Vsar (g : Guard) (src : Src) (s : State) : Host.Outcome State Fault Refusal :=
  s.issueSolo (soloMove g src (.trig trigVu0Vsar))

/-- VU0_VCVT as a trigger: Converts lanes from VFMT to a sink format, by segment, on vu0 (R100). -/
def trigVu0Vcvt : Trigger := vuTrig 0 22 4 4 32 32 2 vConvert

/-- VU0_VCVT: the bundle that holds this move alone issues (R100). -/
def execVu0Vcvt (g : Guard) (src : Src) (s : State) : Host.Outcome State Fault Refusal :=
  s.issueSolo (soloMove g src (.trig trigVu0Vcvt))

/-- VU0_VBCAST as a trigger: Broadcasts a scalar into the active lanes of vu0 (R99). -/
def trigVu0Vbcast : Trigger := vuTrig 0 23 2 2 16 16 1 vBcast

/-- VU0_VBCAST: the bundle that holds this move alone issues (R99). -/
def execVu0Vbcast (g : Guard) (src : Src) (s : State) : Host.Outcome State Fault Refusal :=
  s.issueSolo (soloMove g src (.trig trigVu0Vbcast))

/-- VU0_VEXTR as a trigger: Extracts one lane to the scalar port of vu0 (R99). -/
def trigVu0Vextr : Trigger := vuTrig 0 24 2 2 16 16 1 vExtract

/-- VU0_VEXTR: the bundle that holds this move alone issues (R99). -/
def execVu0Vextr (g : Guard) (src : Src) (s : State) : Host.Outcome State Fault Refusal :=
  s.issueSolo (soloMove g src (.trig trigVu0Vextr))

/-- VU0_VPERM as a trigger: Permutes lanes by index on vu0 (R99). -/
def trigVu0Vperm : Trigger := vuTrig 0 25 2 2 16 16 1 vPermute

/-- VU0_VPERM: the bundle that holds this move alone issues (R99). -/
def execVu0Vperm (g : Guard) (src : Src) (s : State) : Host.Outcome State Fault Refusal :=
  s.issueSolo (soloMove g src (.trig trigVu0Vperm))

/-- VU0_VREDADD as a trigger: Tree-sum reduction on vu0 (R101). -/
def trigVu0Vredadd : Trigger := vuTrig 0 26 4 4 32 32 1 vReduceAdd

/-- VU0_VREDADD: the bundle that holds this move alone issues (R101). -/
def execVu0Vredadd (g : Guard) (src : Src) (s : State) : Host.Outcome State Fault Refusal :=
  s.issueSolo (soloMove g src (.trig trigVu0Vredadd))

/-- VU0_VREDMAX as a trigger: Maximum reduction on vu0 (R101). -/
def trigVu0Vredmax : Trigger := vuTrig 0 27 4 4 32 32 1 (vReduce pickMax fun q p => p < q)

/-- VU0_VREDMAX: the bundle that holds this move alone issues (R101). -/
def execVu0Vredmax (g : Guard) (src : Src) (s : State) : Host.Outcome State Fault Refusal :=
  s.issueSolo (soloMove g src (.trig trigVu0Vredmax))

/-- VU0_VREDMIN as a trigger: Minimum reduction on vu0 (R101). -/
def trigVu0Vredmin : Trigger := vuTrig 0 28 4 4 32 32 1 (vReduce pickMin fun q p => q < p)

/-- VU0_VREDMIN: the bundle that holds this move alone issues (R101). -/
def execVu0Vredmin (g : Guard) (src : Src) (s : State) : Host.Outcome State Fault Refusal :=
  s.issueSolo (soloMove g src (.trig trigVu0Vredmin))

/-- VU0_VEXP2 as a trigger: Lane-wise 2^x on vu0 (R103). -/
def trigVu0Vexp2 : Trigger := vuTrig 0 29 8 8 40 40 1 (vTrans exp2RV)

/-- VU0_VEXP2: the bundle that holds this move alone issues (R103). -/
def execVu0Vexp2 (g : Guard) (src : Src) (s : State) : Host.Outcome State Fault Refusal :=
  s.issueSolo (soloMove g src (.trig trigVu0Vexp2))

/-- VU0_VLOG2 as a trigger: Lane-wise log2 on vu0 (R103). -/
def trigVu0Vlog2 : Trigger := vuTrig 0 30 8 8 40 40 1 (vTrans log2RV)

/-- VU0_VLOG2: the bundle that holds this move alone issues (R103). -/
def execVu0Vlog2 (g : Guard) (src : Src) (s : State) : Host.Outcome State Fault Refusal :=
  s.issueSolo (soloMove g src (.trig trigVu0Vlog2))

/-- VU0_VRCP as a trigger: Lane-wise reciprocal on vu0 (R103). -/
def trigVu0Vrcp : Trigger := vuTrig 0 31 8 8 40 40 1 (vTrans XR.rcp)

/-- VU0_VRCP: the bundle that holds this move alone issues (R103). -/
def execVu0Vrcp (g : Guard) (src : Src) (s : State) : Host.Outcome State Fault Refusal :=
  s.issueSolo (soloMove g src (.trig trigVu0Vrcp))

/-- VU0_VRSQRT as a trigger: Lane-wise reciprocal square root on vu0 (R103). -/
def trigVu0Vrsqrt : Trigger := vuTrig 0 32 8 8 40 40 1 (vTrans rsqrtRV)

/-- VU0_VRSQRT: the bundle that holds this move alone issues (R103). -/
def execVu0Vrsqrt (g : Guard) (src : Src) (s : State) : Host.Outcome State Fault Refusal :=
  s.issueSolo (soloMove g src (.trig trigVu0Vrsqrt))

/-- VU0_VTANH as a trigger: Lane-wise tanh on vu0 (R103). -/
def trigVu0Vtanh : Trigger := vuTrig 0 33 8 8 40 40 1 (vTrans tanhRV)

/-- VU0_VTANH: the bundle that holds this move alone issues (R103). -/
def execVu0Vtanh (g : Guard) (src : Src) (s : State) : Host.Outcome State Fault Refusal :=
  s.issueSolo (soloMove g src (.trig trigVu0Vtanh))

/-- VU0_VQUANT as a trigger: Block-quantises the lanes on vu0 (R104). -/
def trigVu0Vquant : Trigger := vuTrig 0 34 6 6 36 36 3 vQuant

/-- VU0_VQUANT: the bundle that holds this move alone issues (R104). -/
def execVu0Vquant (g : Guard) (src : Src) (s : State) : Host.Outcome State Fault Refusal :=
  s.issueSolo (soloMove g src (.trig trigVu0Vquant))

/-- VU0_VDEQ as a trigger: Dequantises block-scaled elements on vu0 (R105). -/
def trigVu0Vdeq : Trigger := vuTrig 0 35 4 4 32 32 2 vDequant

/-- VU0_VDEQ: the bundle that holds this move alone issues (R105). -/
def execVu0Vdeq (g : Guard) (src : Src) (s : State) : Host.Outcome State Fault Refusal :=
  s.issueSolo (soloMove g src (.trig trigVu0Vdeq))

/-- VU0_VNF as a trigger: Detects non-finite lanes on vu0 (R106). -/
def trigVu0Vnf : Trigger := vuTrig 0 36 4 4 32 32 2 vNonFinite

/-- VU0_VNF: the bundle that holds this move alone issues (R106). -/
def execVu0Vnf (g : Guard) (src : Src) (s : State) : Host.Outcome State Fault Refusal :=
  s.issueSolo (soloMove g src (.trig trigVu0Vnf))

/-- VU0_VSCAN as a trigger: Inclusive prefix sum on vu0 (R102). -/
def trigVu0Vscan : Trigger := vuTrig 0 37 4 4 32 32 2 vScan

/-- VU0_VSCAN: the bundle that holds this move alone issues (R102). -/
def execVu0Vscan (g : Guard) (src : Src) (s : State) : Host.Outcome State Fault Refusal :=
  s.issueSolo (soloMove g src (.trig trigVu0Vscan))

/-- VU0_VTOPK as a trigger: Selects the k largest lanes on vu0 (R107). -/
def trigVu0Vtopk : Trigger := vuTrig 0 38 4 4 32 32 3 vTopk

/-- VU0_VTOPK: the bundle that holds this move alone issues (R107). -/
def execVu0Vtopk (g : Guard) (src : Src) (s : State) : Host.Outcome State Fault Refusal :=
  s.issueSolo (soloMove g src (.trig trigVu0Vtopk))

/-- VU0_VIDX as a trigger: Writes an index sequence into the lanes of vu0 (R99). -/
def trigVu0Vidx : Trigger := vuTrig 0 39 2 2 16 16 1 vIndex

/-- VU0_VIDX: the bundle that holds this move alone issues (R99). -/
def execVu0Vidx (g : Guard) (src : Src) (s : State) : Host.Outcome State Fault Refusal :=
  s.issueSolo (soloMove g src (.trig trigVu0Vidx))

/-- VU1_VADD as a trigger: Lane-wise add on vu1 (R93). -/
def trigVu1Vadd : Trigger := vuTrig 1 3 2 4 16 32 1 (vArith (fun a _ t => a.add t) (fun a _ t => a + t))

/-- VU1_VADD: the bundle that holds this move alone issues (R93). -/
def execVu1Vadd (g : Guard) (src : Src) (s : State) : Host.Outcome State Fault Refusal :=
  s.issueSolo (soloMove g src (.trig trigVu1Vadd))

/-- VU1_VSUB as a trigger: Lane-wise subtract on vu1 (R93). -/
def trigVu1Vsub : Trigger := vuTrig 1 4 2 4 16 32 1 (vArith (fun a _ t => a.sub t) (fun a _ t => a - t))

/-- VU1_VSUB: the bundle that holds this move alone issues (R93). -/
def execVu1Vsub (g : Guard) (src : Src) (s : State) : Host.Outcome State Fault Refusal :=
  s.issueSolo (soloMove g src (.trig trigVu1Vsub))

/-- VU1_VMUL as a trigger: Lane-wise multiply on vu1 (R93). -/
def trigVu1Vmul : Trigger := vuTrig 1 5 2 4 16 32 1 (vArith (fun a _ t => a.mul t) (fun a _ t => a * t))

/-- VU1_VMUL: the bundle that holds this move alone issues (R93). -/
def execVu1Vmul (g : Guard) (src : Src) (s : State) : Host.Outcome State Fault Refusal :=
  s.issueSolo (soloMove g src (.trig trigVu1Vmul))

/-- VU1_VFMA as a trigger: Lane-wise fused multiply-add on vu1 (R93). -/
def trigVu1Vfma : Trigger := vuTrig 1 6 2 4 16 32 1 (vArith XR.fma (fun a b t => a * b + t))

/-- VU1_VFMA: the bundle that holds this move alone issues (R93). -/
def execVu1Vfma (g : Guard) (src : Src) (s : State) : Host.Outcome State Fault Refusal :=
  s.issueSolo (soloMove g src (.trig trigVu1Vfma))

/-- VU1_VMIN as a trigger: Lane-wise minimum on vu1 (R95). -/
def trigVu1Vmin : Trigger := vuTrig 1 7 2 4 16 32 1 (vPick pickMin fun t a => t < a)

/-- VU1_VMIN: the bundle that holds this move alone issues (R95). -/
def execVu1Vmin (g : Guard) (src : Src) (s : State) : Host.Outcome State Fault Refusal :=
  s.issueSolo (soloMove g src (.trig trigVu1Vmin))

/-- VU1_VMAX as a trigger: Lane-wise maximum on vu1 (R95). -/
def trigVu1Vmax : Trigger := vuTrig 1 8 2 4 16 32 1 (vPick pickMax fun t a => a < t)

/-- VU1_VMAX: the bundle that holds this move alone issues (R95). -/
def execVu1Vmax (g : Guard) (src : Src) (s : State) : Host.Outcome State Fault Refusal :=
  s.issueSolo (soloMove g src (.trig trigVu1Vmax))

/-- VU1_VABS as a trigger: Lane-wise absolute value on vu1 (R95). -/
def trigVu1Vabs : Trigger := vuTrig 1 9 2 4 16 32 1 (vUnary XR.abs fun n => (n.natAbs : Int))

/-- VU1_VABS: the bundle that holds this move alone issues (R95). -/
def execVu1Vabs (g : Guard) (src : Src) (s : State) : Host.Outcome State Fault Refusal :=
  s.issueSolo (soloMove g src (.trig trigVu1Vabs))

/-- VU1_VNEG as a trigger: Lane-wise negation on vu1 (R95). -/
def trigVu1Vneg : Trigger := vuTrig 1 10 2 4 16 32 1 (vUnary XR.neg fun n => -n)

/-- VU1_VNEG: the bundle that holds this move alone issues (R95). -/
def execVu1Vneg (g : Guard) (src : Src) (s : State) : Host.Outcome State Fault Refusal :=
  s.issueSolo (soloMove g src (.trig trigVu1Vneg))

/-- VU1_VCEQ as a trigger: Lane-wise equality compare on vu1 (R96). -/
def trigVu1Vceq : Trigger := vuTrig 1 11 2 2 16 16 2 (vCompare XR.eq fun a t => a = t)

/-- VU1_VCEQ: the bundle that holds this move alone issues (R96). -/
def execVu1Vceq (g : Guard) (src : Src) (s : State) : Host.Outcome State Fault Refusal :=
  s.issueSolo (soloMove g src (.trig trigVu1Vceq))

/-- VU1_VCLT as a trigger: Lane-wise less-than compare on vu1 (R96). -/
def trigVu1Vclt : Trigger := vuTrig 1 12 2 2 16 16 2 (vCompare XR.lt fun a t => a < t)

/-- VU1_VCLT: the bundle that holds this move alone issues (R96). -/
def execVu1Vclt (g : Guard) (src : Src) (s : State) : Host.Outcome State Fault Refusal :=
  s.issueSolo (soloMove g src (.trig trigVu1Vclt))

/-- VU1_VCLE as a trigger: Lane-wise less-or-equal compare on vu1 (R96). -/
def trigVu1Vcle : Trigger := vuTrig 1 13 2 2 16 16 2 (vCompare XR.le fun a t => a ≤ t)

/-- VU1_VCLE: the bundle that holds this move alone issues (R96). -/
def execVu1Vcle (g : Guard) (src : Src) (s : State) : Host.Outcome State Fault Refusal :=
  s.issueSolo (soloMove g src (.trig trigVu1Vcle))

/-- VU1_VCUN as a trigger: Lane-wise unordered compare on vu1 (R96). -/
def trigVu1Vcun : Trigger := vuTrig 1 14 2 2 16 16 2 (vCompare (fun a t => a.isNaN || t.isNaN) fun _ _ => false)

/-- VU1_VCUN: the bundle that holds this move alone issues (R96). -/
def execVu1Vcun (g : Guard) (src : Src) (s : State) : Host.Outcome State Fault Refusal :=
  s.issueSolo (soloMove g src (.trig trigVu1Vcun))

/-- VU1_VSEL as a trigger: Lane select by mask on vu1 (R97). -/
def trigVu1Vsel : Trigger := vuTrig 1 15 2 2 16 16 1 vSelect

/-- VU1_VSEL: the bundle that holds this move alone issues (R97). -/
def execVu1Vsel (g : Guard) (src : Src) (s : State) : Host.Outcome State Fault Refusal :=
  s.issueSolo (soloMove g src (.trig trigVu1Vsel))

/-- VU1_VAND as a trigger: Lane-wise AND on vu1 (R98). -/
def trigVu1Vand : Trigger := vuTrig 1 16 2 2 16 16 1 (vLogic fun a t => a &&& t)

/-- VU1_VAND: the bundle that holds this move alone issues (R98). -/
def execVu1Vand (g : Guard) (src : Src) (s : State) : Host.Outcome State Fault Refusal :=
  s.issueSolo (soloMove g src (.trig trigVu1Vand))

/-- VU1_VOR as a trigger: Lane-wise OR on vu1 (R98). -/
def trigVu1Vor : Trigger := vuTrig 1 17 2 2 16 16 1 (vLogic fun a t => a ||| t)

/-- VU1_VOR: the bundle that holds this move alone issues (R98). -/
def execVu1Vor (g : Guard) (src : Src) (s : State) : Host.Outcome State Fault Refusal :=
  s.issueSolo (soloMove g src (.trig trigVu1Vor))

/-- VU1_VXOR as a trigger: Lane-wise XOR on vu1 (R98). -/
def trigVu1Vxor : Trigger := vuTrig 1 18 2 2 16 16 1 (vLogic fun a t => a ^^^ t)

/-- VU1_VXOR: the bundle that holds this move alone issues (R98). -/
def execVu1Vxor (g : Guard) (src : Src) (s : State) : Host.Outcome State Fault Refusal :=
  s.issueSolo (soloMove g src (.trig trigVu1Vxor))

/-- VU1_VSHL as a trigger: Lane-wise shift left on vu1 (R98). -/
def trigVu1Vshl : Trigger := vuTrig 1 19 2 2 16 16 1 (vShift fun _ b d => b <<< d)

/-- VU1_VSHL: the bundle that holds this move alone issues (R98). -/
def execVu1Vshl (g : Guard) (src : Src) (s : State) : Host.Outcome State Fault Refusal :=
  s.issueSolo (soloMove g src (.trig trigVu1Vshl))

/-- VU1_VSHR as a trigger: Lane-wise logical shift right on vu1 (R98). -/
def trigVu1Vshr : Trigger := vuTrig 1 20 2 2 16 16 1 (vShift fun _ b d => b >>> d)

/-- VU1_VSHR: the bundle that holds this move alone issues (R98). -/
def execVu1Vshr (g : Guard) (src : Src) (s : State) : Host.Outcome State Fault Refusal :=
  s.issueSolo (soloMove g src (.trig trigVu1Vshr))

/-- VU1_VSAR as a trigger: Lane-wise arithmetic shift right on vu1 (R98). -/
def trigVu1Vsar : Trigger := vuTrig 1 21 2 2 16 16 1 (vShift sarBits)

/-- VU1_VSAR: the bundle that holds this move alone issues (R98). -/
def execVu1Vsar (g : Guard) (src : Src) (s : State) : Host.Outcome State Fault Refusal :=
  s.issueSolo (soloMove g src (.trig trigVu1Vsar))

/-- VU1_VCVT as a trigger: Converts lanes from VFMT to a sink format, by segment, on vu1 (R100). -/
def trigVu1Vcvt : Trigger := vuTrig 1 22 4 4 32 32 2 vConvert

/-- VU1_VCVT: the bundle that holds this move alone issues (R100). -/
def execVu1Vcvt (g : Guard) (src : Src) (s : State) : Host.Outcome State Fault Refusal :=
  s.issueSolo (soloMove g src (.trig trigVu1Vcvt))

/-- VU1_VBCAST as a trigger: Broadcasts a scalar into the active lanes of vu1 (R99). -/
def trigVu1Vbcast : Trigger := vuTrig 1 23 2 2 16 16 1 vBcast

/-- VU1_VBCAST: the bundle that holds this move alone issues (R99). -/
def execVu1Vbcast (g : Guard) (src : Src) (s : State) : Host.Outcome State Fault Refusal :=
  s.issueSolo (soloMove g src (.trig trigVu1Vbcast))

/-- VU1_VEXTR as a trigger: Extracts one lane to the scalar port of vu1 (R99). -/
def trigVu1Vextr : Trigger := vuTrig 1 24 2 2 16 16 1 vExtract

/-- VU1_VEXTR: the bundle that holds this move alone issues (R99). -/
def execVu1Vextr (g : Guard) (src : Src) (s : State) : Host.Outcome State Fault Refusal :=
  s.issueSolo (soloMove g src (.trig trigVu1Vextr))

/-- VU1_VPERM as a trigger: Permutes lanes by index on vu1 (R99). -/
def trigVu1Vperm : Trigger := vuTrig 1 25 2 2 16 16 1 vPermute

/-- VU1_VPERM: the bundle that holds this move alone issues (R99). -/
def execVu1Vperm (g : Guard) (src : Src) (s : State) : Host.Outcome State Fault Refusal :=
  s.issueSolo (soloMove g src (.trig trigVu1Vperm))

/-- VU1_VREDADD as a trigger: Tree-sum reduction on vu1 (R101). -/
def trigVu1Vredadd : Trigger := vuTrig 1 26 4 4 32 32 1 vReduceAdd

/-- VU1_VREDADD: the bundle that holds this move alone issues (R101). -/
def execVu1Vredadd (g : Guard) (src : Src) (s : State) : Host.Outcome State Fault Refusal :=
  s.issueSolo (soloMove g src (.trig trigVu1Vredadd))

/-- VU1_VREDMAX as a trigger: Maximum reduction on vu1 (R101). -/
def trigVu1Vredmax : Trigger := vuTrig 1 27 4 4 32 32 1 (vReduce pickMax fun q p => p < q)

/-- VU1_VREDMAX: the bundle that holds this move alone issues (R101). -/
def execVu1Vredmax (g : Guard) (src : Src) (s : State) : Host.Outcome State Fault Refusal :=
  s.issueSolo (soloMove g src (.trig trigVu1Vredmax))

/-- VU1_VREDMIN as a trigger: Minimum reduction on vu1 (R101). -/
def trigVu1Vredmin : Trigger := vuTrig 1 28 4 4 32 32 1 (vReduce pickMin fun q p => q < p)

/-- VU1_VREDMIN: the bundle that holds this move alone issues (R101). -/
def execVu1Vredmin (g : Guard) (src : Src) (s : State) : Host.Outcome State Fault Refusal :=
  s.issueSolo (soloMove g src (.trig trigVu1Vredmin))

/-- VU1_VEXP2 as a trigger: Lane-wise 2^x on vu1 (R103). -/
def trigVu1Vexp2 : Trigger := vuTrig 1 29 8 8 40 40 1 (vTrans exp2RV)

/-- VU1_VEXP2: the bundle that holds this move alone issues (R103). -/
def execVu1Vexp2 (g : Guard) (src : Src) (s : State) : Host.Outcome State Fault Refusal :=
  s.issueSolo (soloMove g src (.trig trigVu1Vexp2))

/-- VU1_VLOG2 as a trigger: Lane-wise log2 on vu1 (R103). -/
def trigVu1Vlog2 : Trigger := vuTrig 1 30 8 8 40 40 1 (vTrans log2RV)

/-- VU1_VLOG2: the bundle that holds this move alone issues (R103). -/
def execVu1Vlog2 (g : Guard) (src : Src) (s : State) : Host.Outcome State Fault Refusal :=
  s.issueSolo (soloMove g src (.trig trigVu1Vlog2))

/-- VU1_VRCP as a trigger: Lane-wise reciprocal on vu1 (R103). -/
def trigVu1Vrcp : Trigger := vuTrig 1 31 8 8 40 40 1 (vTrans XR.rcp)

/-- VU1_VRCP: the bundle that holds this move alone issues (R103). -/
def execVu1Vrcp (g : Guard) (src : Src) (s : State) : Host.Outcome State Fault Refusal :=
  s.issueSolo (soloMove g src (.trig trigVu1Vrcp))

/-- VU1_VRSQRT as a trigger: Lane-wise reciprocal square root on vu1 (R103). -/
def trigVu1Vrsqrt : Trigger := vuTrig 1 32 8 8 40 40 1 (vTrans rsqrtRV)

/-- VU1_VRSQRT: the bundle that holds this move alone issues (R103). -/
def execVu1Vrsqrt (g : Guard) (src : Src) (s : State) : Host.Outcome State Fault Refusal :=
  s.issueSolo (soloMove g src (.trig trigVu1Vrsqrt))

/-- VU1_VTANH as a trigger: Lane-wise tanh on vu1 (R103). -/
def trigVu1Vtanh : Trigger := vuTrig 1 33 8 8 40 40 1 (vTrans tanhRV)

/-- VU1_VTANH: the bundle that holds this move alone issues (R103). -/
def execVu1Vtanh (g : Guard) (src : Src) (s : State) : Host.Outcome State Fault Refusal :=
  s.issueSolo (soloMove g src (.trig trigVu1Vtanh))

/-- VU1_VQUANT as a trigger: Block-quantises the lanes on vu1 (R104). -/
def trigVu1Vquant : Trigger := vuTrig 1 34 6 6 36 36 3 vQuant

/-- VU1_VQUANT: the bundle that holds this move alone issues (R104). -/
def execVu1Vquant (g : Guard) (src : Src) (s : State) : Host.Outcome State Fault Refusal :=
  s.issueSolo (soloMove g src (.trig trigVu1Vquant))

/-- VU1_VDEQ as a trigger: Dequantises block-scaled elements on vu1 (R105). -/
def trigVu1Vdeq : Trigger := vuTrig 1 35 4 4 32 32 2 vDequant

/-- VU1_VDEQ: the bundle that holds this move alone issues (R105). -/
def execVu1Vdeq (g : Guard) (src : Src) (s : State) : Host.Outcome State Fault Refusal :=
  s.issueSolo (soloMove g src (.trig trigVu1Vdeq))

/-- VU1_VNF as a trigger: Detects non-finite lanes on vu1 (R106). -/
def trigVu1Vnf : Trigger := vuTrig 1 36 4 4 32 32 2 vNonFinite

/-- VU1_VNF: the bundle that holds this move alone issues (R106). -/
def execVu1Vnf (g : Guard) (src : Src) (s : State) : Host.Outcome State Fault Refusal :=
  s.issueSolo (soloMove g src (.trig trigVu1Vnf))

/-- VU1_VSCAN as a trigger: Inclusive prefix sum on vu1 (R102). -/
def trigVu1Vscan : Trigger := vuTrig 1 37 4 4 32 32 2 vScan

/-- VU1_VSCAN: the bundle that holds this move alone issues (R102). -/
def execVu1Vscan (g : Guard) (src : Src) (s : State) : Host.Outcome State Fault Refusal :=
  s.issueSolo (soloMove g src (.trig trigVu1Vscan))

/-- VU1_VTOPK as a trigger: Selects the k largest lanes on vu1 (R107). -/
def trigVu1Vtopk : Trigger := vuTrig 1 38 4 4 32 32 3 vTopk

/-- VU1_VTOPK: the bundle that holds this move alone issues (R107). -/
def execVu1Vtopk (g : Guard) (src : Src) (s : State) : Host.Outcome State Fault Refusal :=
  s.issueSolo (soloMove g src (.trig trigVu1Vtopk))

/-- VU1_VIDX as a trigger: Writes an index sequence into the lanes of vu1 (R99). -/
def trigVu1Vidx : Trigger := vuTrig 1 39 2 2 16 16 1 vIndex

/-- VU1_VIDX: the bundle that holds this move alone issues (R99). -/
def execVu1Vidx (g : Guard) (src : Src) (s : State) : Host.Outcome State Fault Refusal :=
  s.issueSolo (soloMove g src (.trig trigVu1Vidx))

end Sys2Proof.Machine
end

