-- ==== Sys2Proof/Machine/Queues.lean ====
section
/-!
DEFINITION. The address unit au: addresses and images (R109-R115, R119), the lookup at the trigger (R112), and the entries that its
triggers push to the LAQ and the SAQ (R108, R111, R118, R123).
-/

namespace Sys2Proof.Machine

/-! ## Addresses (R109, R110) -/

/-- The base virtual address V := (a + t) mod 2^48 (R109). -/
def auBase (env : Env) (v : VWord) : Nat := (env.lat.auO.toNat + v.toNat % 2 ^ 64) % 2 ^ 48

/-- Image length: 0 and 257-511 mean 256 (R110). -/
def xLen (x : Word) : Nat :=
  let n := x.toNat % 512
  if n = 0 || 256 < n then 256 else n

/-- First active byte. -/
def xLo (x : Word) : Nat := (x.extractLsb' 9 9).toNat

/-- Element bytes of a strided access; none when it is contiguous (R110). -/
def xStrided (x : Word) : Option Nat :=
  let e := (x.extractLsb' 24 3).toNat
  if 1 ≤ e && e ≤ 4 then some (2 ^ (e - 1)) else none

/-- Element bytes of a gather or scatter (R115). -/
def xGather (x : Word) : Nat := (xStrided x).getD 4

/-- Signed byte distance between elements. -/
def xStride (x : Word) : Int := (x.extractLsb' 32 32 : BitVec 32).toInt

/-- A mask entry follows the data entry. -/
def xMk (x : Word) : Bool := x.getLsbD 31

/-! ## Images: each byte's exact address and its place (R113, R114, R119) -/

/-- Contiguous bytes lo to hi - 1 of an image at V. -/
def imgRange (v lo hi : Nat) : List (Int × Nat) :=
  (List.range (hi - lo)).map fun i => (((v + lo + i : Nat) : Int), lo + i)

/-- Elements of eb bytes at addresses given by number. -/
def imgElems (at_ : Nat → Int) (eb n : Nat) : List (Int × Nat) :=
  (List.range n).flatMap fun (k : Nat) => (List.range eb).map fun (j : Nat) => (at_ k + (j : Int), k * eb + j)

/-- The image of vld and vst, with its element bytes for R122. -/
def imgVector (v : Nat) (x : Word) : List (Int × Nat) × Nat :=
  match xStrided x with
  | none => (imgRange v 0 (xLen x), 256)
  | some eb => (imgElems (fun k => (v : Int) + (k : Int) * xStride x) eb (xLen x / eb), eb)

/-- The lowest and the highest byte address of an image. -/
def imgSpan : List (Int × Nat) → Option (Int × Int)
  | [] => none
  | (a, _) :: r => some (r.foldl (fun p q => (if q.1 < p.1 then q.1 else p.1, if p.2 < q.1 then q.1 else p.2)) (a, a))

/-- The index block of vldg and vsts: its base and its elements (R115). -/
def idxOf (v : VWord) : Nat := v.toNat % 2 ^ 48

/-- The bytes of an index block. -/
def idxSpan (idx n : Nat) : Option (Int × Int) := if n = 0 then none else some ((idx : Int), ((idx + 4 * n - 1 : Nat) : Int))

/-- A failed lookup as a trap (R112). -/
def Mark.trap (m : Mark) : Trap := { cause := m.cause, addr := m.addr }

/-- The lookup of a span at a trigger (R112): nothing for an access of no byte. -/
def State.spanTrap (s : State) (env : Env) (span : Option (Int × Int)) (need : Need) : Option Trap :=
  span.bind fun p => (s.lookup env.c env.t0 p.1 p.2 need).map Mark.trap

/-! ## Pushes to the LAQ and the SAQ -/

/-- A load-type request joins the LAQ and is counted (R108, R123); an amo claims SDQ entries and counts as a store too. -/
def Ctx.pushLoad (t : Ctx) (op : LoadOp) (va : Nat) (img : List (Int × Nat)) (eb len : Nat) (vec : Bool) (pair : BitVec 14)
    (claims : Nat) : Ctx :=
  { t with laq := t.laq ++ [{ seq := t.seq, op := op, va := va, img := img, eb := eb, len := len, vec := vec, pair := pair }]
           seq := t.seq + 1
           claims := t.claims + claims
           cnt := { t.cnt with loads := t.cnt.loads + 1
                               stores := if claims = 0 then t.cnt.stores else t.cnt.stores + 1 } }

/-- A store-type item joins the SAQ, claims its SDQ entries and is counted (R108, R118, R123). -/
def Ctx.pushStore (t : Ctx) (op : StoreOp) (va claims : Nat) : Ctx :=
  { t with saq := t.saq ++ [{ seq := t.seq, va := va, op := op, claim := t.claims, nclaim := claims }]
           seq := t.seq + 1
           claims := t.claims + claims
           cnt := { t.cnt with stores := t.cnt.stores + 1 } }

/-- A load-type trigger: it blocks while the LAQ is full (R108). -/
def loadTrig (off weight : Nat) (need : Need) (span : Env → VWord → Option (Int × Int)) (push : Env → VWord → Ctx → Ctx) : Trigger :=
  { unit := .au, code := 0x240 + off, weight := fun _ _ _ => weight
    check := fun env s v => s.spanTrap env (span env v) need
    wait := fun env _ _ => if env.t0.laq.length < 32 then .ready else .block
    act := fun env s v => s.updCtx env.c env.x (push env v) }

/-- A store-type trigger: it takes a place in the SAQ. -/
def storeTrig (off weight : Nat) (need : Need) (span : Env → VWord → Option (Int × Int)) (push : Env → VWord → Ctx → Ctx) : Trigger :=
  { unit := .au, code := 0x240 + off, weight := fun _ _ _ => weight, saq := true
    check := fun env s v => s.spanTrap env (span env v) need
    act := fun env s v => s.updCtx env.c env.x (push env v) }

/-- A scalar load of w bytes (R113). -/
def scalarLoad (off w : Nat) : Trigger :=
  loadTrig off 2 .read (fun env v => imgSpan (imgRange (auBase env v) 0 w)) fun env v t =>
    t.pushLoad .plain (auBase env v) (imgRange (auBase env v) 0 w) w w false env.ldqf 0

/-- A scalar store of w bytes (R119). -/
def scalarStore (off w : Nat) : Trigger :=
  storeTrig off 2 .write (fun env v => imgSpan (imgRange (auBase env v) 0 w)) fun env v t =>
    t.pushStore (.plain (imgRange (auBase env v) 0 w) w false) (auBase env v) 1

/-- vld (R114). -/
def vectorLoad : Trigger :=
  loadTrig 6 12 .read (fun env v => imgSpan (imgVector (auBase env v) env.lat.auX).1) fun env v t =>
    let (img, eb) := imgVector (auBase env v) env.lat.auX
    t.pushLoad .plain (auBase env v) img eb (xLen env.lat.auX) true env.ldqf 0

/-- vldm (R114). -/
def maskedLoad : Trigger :=
  loadTrig 7 12 .read (fun env v => imgSpan (imgRange (auBase env v) (xLo env.lat.auX) (xLen env.lat.auX))) fun env v t =>
    t.pushLoad .plain (auBase env v) (imgRange (auBase env v) (xLo env.lat.auX) (xLen env.lat.auX)) 256 (xLen env.lat.auX) true
      env.ldqf 0

/-- vldg (R115): the index block is looked up; the elements are known once it has been read. -/
def gatherLoad : Trigger :=
  loadTrig 8 12 .read (fun env v => idxSpan (idxOf v) (xLen env.lat.auX / xGather env.lat.auX)) fun env v t =>
    let eb := xGather env.lat.auX
    t.pushLoad (.gather (env.lat.auO.toNat % 2 ^ 48) (idxOf v) (xLen env.lat.auX / eb) eb false) (env.lat.auO.toNat % 2 ^ 48) [] eb
      (xLen env.lat.auX) true env.ldqf 0

/-- vst (R119). -/
def vectorStore : Trigger :=
  storeTrig 13 12 .write (fun env v => imgSpan (imgVector (auBase env v) env.lat.auX).1) fun env v t =>
    let (img, eb) := imgVector (auBase env v) env.lat.auX
    t.pushStore (.plain img eb false) (auBase env v) 1

/-- vstm (R119): with mk a mask entry is claimed too. -/
def maskedStore : Trigger :=
  storeTrig 14 12 .write (fun env v => imgSpan (imgRange (auBase env v) (xLo env.lat.auX) (xLen env.lat.auX))) fun env v t =>
    t.pushStore (.plain (imgRange (auBase env v) (xLo env.lat.auX) (xLen env.lat.auX)) 256 (xMk env.lat.auX)) (auBase env v)
      (if xMk env.lat.auX then 2 else 1)

/-- vsts (R119): the index block is only read, so read permission is needed (R112). -/
def scatterStore : Trigger :=
  storeTrig 15 12 .read (fun env v => idxSpan (idxOf v) (xLen env.lat.auX / xGather env.lat.auX)) fun env v t =>
    let eb := xGather env.lat.auX
    t.pushStore (.scatter (env.lat.auO.toNat % 2 ^ 48) (idxOf v) (xLen env.lat.auX / eb) eb) (env.lat.auO.toNat % 2 ^ 48) 1

/-- The base and the lines of an ldblk (R195). -/
def blkBase (env : Env) (v : VWord) : Nat := auBase env v / 128 * 128
def blkLines (env : Env) : Nat := env.lat.auX.toNat % 64 + 1

/-- ldblk (R195): its entry is scalar, 8 bytes, with the raw pair. -/
def blockLoad : Trigger :=
  loadTrig 16 12 .read (fun env v => some ((blkBase env v : Nat), ((blkBase env v + 128 * blkLines env - 1 : Nat) : Int)))
    fun env v t => t.pushLoad (.ldblk (env.lat.auX.getLsbD 7) (blkLines env)) (blkBase env v) [] 8 8 false 0 0

/-- The width and the aligned address of an amo (R217). -/
def amoWidth (op : AmoOp) (v : VWord) : Nat := if op != .fadd && v.getLsbD 63 then 8 else 4
def amoAddr (op : AmoOp) (env : Env) (v : VWord) : Nat := auBase env v / amoWidth op v * amoWidth op v

/-- A scope code: 7 reads as 6 (R203). -/
def scopeCode (v : Nat) : Nat := Nat.min (v % 8) 6

/-- An amo (R217): read and write permission, one claim or two, the raw pair. -/
def amoTrig (off : Nat) (op : AmoOp) : Trigger :=
  loadTrig off 2 .both (fun env v => some ((amoAddr op env v : Nat), ((amoAddr op env v + amoWidth op v - 1 : Nat) : Int)))
    fun env v t =>
      let n := if op = .cas then 2 else 1
      let w := amoWidth op v
      t.pushLoad (.amo op w (BitVec.ofNat 3 (scopeCode env.lat.auX.toNat)) t.claims 0 0) (amoAddr op env v) (imgRange (amoAddr op env v) 0 w) w w false 0 n

end Sys2Proof.Machine
end

