-- ==== Sys2Proof/Machine/Address.lean ====
section
/-!
DEFINITION. The rows of the address unit au (R111, R195, R217), but for ldh.
-/

namespace Sys2Proof.Machine

/-- LD8 as a trigger: Pushes a 1-byte scalar load (R113). -/
def trigLd8 : Trigger := scalarLoad 2 1

/-- LD8: the bundle that holds this move alone issues (R113). -/
def execLd8 (g : Guard) (src : Src) (s : State) : Host.Outcome State Fault Refusal :=
  s.issueSolo (soloMove g src (.trig trigLd8))

/-- LD16 as a trigger: Pushes a 2-byte scalar load (R113). -/
def trigLd16 : Trigger := scalarLoad 3 2

/-- LD16: the bundle that holds this move alone issues (R113). -/
def execLd16 (g : Guard) (src : Src) (s : State) : Host.Outcome State Fault Refusal :=
  s.issueSolo (soloMove g src (.trig trigLd16))

/-- LD32 as a trigger: Pushes a 4-byte scalar load (R113). -/
def trigLd32 : Trigger := scalarLoad 4 4

/-- LD32: the bundle that holds this move alone issues (R113). -/
def execLd32 (g : Guard) (src : Src) (s : State) : Host.Outcome State Fault Refusal :=
  s.issueSolo (soloMove g src (.trig trigLd32))

/-- LD64 as a trigger: Pushes an 8-byte scalar load (R113). -/
def trigLd64 : Trigger := scalarLoad 5 8

/-- LD64: the bundle that holds this move alone issues (R113). -/
def execLd64 (g : Guard) (src : Src) (s : State) : Host.Outcome State Fault Refusal :=
  s.issueSolo (soloMove g src (.trig trigLd64))

/-- VLD as a trigger: Pushes a contiguous or strided vector load (R114). -/
def trigVld : Trigger := vectorLoad

/-- VLD: the bundle that holds this move alone issues (R114). -/
def execVld (g : Guard) (src : Src) (s : State) : Host.Outcome State Fault Refusal :=
  s.issueSolo (soloMove g src (.trig trigVld))

/-- VLDM as a trigger: Pushes a masked-range vector load (R114). -/
def trigVldm : Trigger := maskedLoad

/-- VLDM: the bundle that holds this move alone issues (R114). -/
def execVldm (g : Guard) (src : Src) (s : State) : Host.Outcome State Fault Refusal :=
  s.issueSolo (soloMove g src (.trig trigVldm))

/-- VLDG as a trigger: Pushes a gather load through an index block (R115). -/
def trigVldg : Trigger := gatherLoad

/-- VLDG: the bundle that holds this move alone issues (R115). -/
def execVldg (g : Guard) (src : Src) (s : State) : Host.Outcome State Fault Refusal :=
  s.issueSolo (soloMove g src (.trig trigVldg))

/-- ST8 as a trigger: Pushes a 1-byte store (R119). -/
def trigSt8 : Trigger := scalarStore 9 1

/-- ST8: the bundle that holds this move alone issues (R119). -/
def execSt8 (g : Guard) (src : Src) (s : State) : Host.Outcome State Fault Refusal :=
  s.issueSolo (soloMove g src (.trig trigSt8))

/-- ST16 as a trigger: Pushes a 2-byte store (R119). -/
def trigSt16 : Trigger := scalarStore 10 2

/-- ST16: the bundle that holds this move alone issues (R119). -/
def execSt16 (g : Guard) (src : Src) (s : State) : Host.Outcome State Fault Refusal :=
  s.issueSolo (soloMove g src (.trig trigSt16))

/-- ST32 as a trigger: Pushes a 4-byte store (R119). -/
def trigSt32 : Trigger := scalarStore 11 4

/-- ST32: the bundle that holds this move alone issues (R119). -/
def execSt32 (g : Guard) (src : Src) (s : State) : Host.Outcome State Fault Refusal :=
  s.issueSolo (soloMove g src (.trig trigSt32))

/-- ST64 as a trigger: Pushes an 8-byte store (R119). -/
def trigSt64 : Trigger := scalarStore 12 8

/-- ST64: the bundle that holds this move alone issues (R119). -/
def execSt64 (g : Guard) (src : Src) (s : State) : Host.Outcome State Fault Refusal :=
  s.issueSolo (soloMove g src (.trig trigSt64))

/-- VST as a trigger: Pushes a contiguous or strided vector store (R119). -/
def trigVst : Trigger := vectorStore

/-- VST: the bundle that holds this move alone issues (R119). -/
def execVst (g : Guard) (src : Src) (s : State) : Host.Outcome State Fault Refusal :=
  s.issueSolo (soloMove g src (.trig trigVst))

/-- VSTM as a trigger: Pushes a masked vector store (R119). -/
def trigVstm : Trigger := maskedStore

/-- VSTM: the bundle that holds this move alone issues (R119). -/
def execVstm (g : Guard) (src : Src) (s : State) : Host.Outcome State Fault Refusal :=
  s.issueSolo (soloMove g src (.trig trigVstm))

/-- VSTS as a trigger: Pushes a scatter store (R119). -/
def trigVsts : Trigger := scatterStore

/-- VSTS: the bundle that holds this move alone issues (R119). -/
def execVsts (g : Guard) (src : Src) (s : State) : Host.Outcome State Fault Refusal :=
  s.issueSolo (soloMove g src (.trig trigVsts))

/-- LDBLK as a trigger: Declares or releases a load-block (R195). -/
def trigLdblk : Trigger := blockLoad

/-- LDBLK: the bundle that holds this move alone issues (R195). -/
def execLdblk (g : Guard) (src : Src) (s : State) : Host.Outcome State Fault Refusal :=
  s.issueSolo (soloMove g src (.trig trigLdblk))

/-- AMOADD as a trigger: Atomic add (R217). -/
def trigAmoadd : Trigger := amoTrig 18 .add

/-- AMOADD: the bundle that holds this move alone issues (R217). -/
def execAmoadd (g : Guard) (src : Src) (s : State) : Host.Outcome State Fault Refusal :=
  s.issueSolo (soloMove g src (.trig trigAmoadd))

/-- AMOMIN as a trigger: Atomic signed minimum (R217). -/
def trigAmomin : Trigger := amoTrig 19 .min

/-- AMOMIN: the bundle that holds this move alone issues (R217). -/
def execAmomin (g : Guard) (src : Src) (s : State) : Host.Outcome State Fault Refusal :=
  s.issueSolo (soloMove g src (.trig trigAmomin))

/-- AMOMAX as a trigger: Atomic signed maximum (R217). -/
def trigAmomax : Trigger := amoTrig 20 .max

/-- AMOMAX: the bundle that holds this move alone issues (R217). -/
def execAmomax (g : Guard) (src : Src) (s : State) : Host.Outcome State Fault Refusal :=
  s.issueSolo (soloMove g src (.trig trigAmomax))

/-- AMOAND as a trigger: Atomic AND (R217). -/
def trigAmoand : Trigger := amoTrig 21 .and

/-- AMOAND: the bundle that holds this move alone issues (R217). -/
def execAmoand (g : Guard) (src : Src) (s : State) : Host.Outcome State Fault Refusal :=
  s.issueSolo (soloMove g src (.trig trigAmoand))

/-- AMOOR as a trigger: Atomic OR (R217). -/
def trigAmoor : Trigger := amoTrig 22 .or

/-- AMOOR: the bundle that holds this move alone issues (R217). -/
def execAmoor (g : Guard) (src : Src) (s : State) : Host.Outcome State Fault Refusal :=
  s.issueSolo (soloMove g src (.trig trigAmoor))

/-- AMOXOR as a trigger: Atomic XOR (R217). -/
def trigAmoxor : Trigger := amoTrig 23 .xor

/-- AMOXOR: the bundle that holds this move alone issues (R217). -/
def execAmoxor (g : Guard) (src : Src) (s : State) : Host.Outcome State Fault Refusal :=
  s.issueSolo (soloMove g src (.trig trigAmoxor))

/-- AMOSWP as a trigger: Atomic swap (R217). -/
def trigAmoswp : Trigger := amoTrig 24 .swp

/-- AMOSWP: the bundle that holds this move alone issues (R217). -/
def execAmoswp (g : Guard) (src : Src) (s : State) : Host.Outcome State Fault Refusal :=
  s.issueSolo (soloMove g src (.trig trigAmoswp))

/-- AMOCAS as a trigger: Atomic compare-and-swap (R217). -/
def trigAmocas : Trigger := amoTrig 25 .cas

/-- AMOCAS: the bundle that holds this move alone issues (R217). -/
def execAmocas (g : Guard) (src : Src) (s : State) : Host.Outcome State Fault Refusal :=
  s.issueSolo (soloMove g src (.trig trigAmocas))

/-- AMOFADD as a trigger: Atomic FP32 add (R217). -/
def trigAmofadd : Trigger := amoTrig 26 .fadd

/-- AMOFADD: the bundle that holds this move alone issues (R217). -/
def execAmofadd (g : Guard) (src : Src) (s : State) : Host.Outcome State Fault Refusal :=
  s.issueSolo (soloMove g src (.trig trigAmofadd))

end Sys2Proof.Machine
end

