-- ==== Sys2Proof/Machine/Memory.lean ====
section
/-!
DEFINITION. The memory queues at work (06, 10, 11): where accesses of a context are performed and in which order (R116-R123, R204-
R206), residency at the home (R196-R198), and the steps LAQ_SEND, HOME_ACCESS_ARRIVAL, LDQ_ENTRY_LAND, AMO_PERFORM, STORE_PERFORM and
WRITE_THROUGH_ACK.
-/

namespace Sys2Proof.Machine

/-! ## Places -/

/-- Two optional locations are one byte. -/
def sameLoc (a b : Option Loc) : Bool :=
  match a, b with
  | some x, some y => x.same y
  | _, _ => false

/-- The sector of a location (R122). -/
def Loc.sector : Loc → Nat
  | .phys a => a / 32
  | .page _ o _ _ _ => o / 32

/-- Where an access to a location is served, or the cause of its failure (R117, R196, R202, R363). -/
def State.place (s : State) : Option Loc → Except Cause Nat
  | none => .error .window
  | some (.phys pa) => if !s.reachable (paMod pa) then .error .window else if s.isBad pa then .error .eccu else .ok pa
  | some (.page p off home dir _) =>
    match s.served p home dir with
    | none => .error .resid
    | some f => if s.isBad (f + off) then .error .eccu else .ok (f + off)

/-- The order in which causes of one byte are named (R117). -/
def causeRank : Cause → Nat
  | .resid => 0
  | .window => 1
  | .perm => 2
  | _ => 3

/-- The marker of a byte's failure: the report holds the low 48 bits of its address. -/
def Mark.of (k : Cause) (va : Int) : Mark := { cause := k, addr := addr48 va, va := va }

/-- The marker of the lower address, and of the earlier cause at one address (R117). -/
def Mark.least (a : Option Mark) (b : Mark) : Mark :=
  match a with
  | none => b
  | some m => if m.va < b.va || (m.va = b.va && causeRank m.cause ≤ causeRank b.cause) then m else b

/-- The marker of the lowest failing byte of some (R117, R121). -/
def leastMark (l : List Mark) : Option Mark := l.foldl (fun a b => some (Mark.least a b)) none

/-! ## What a load-type request still has to read -/

/-- The bytes a request reads: its index block first, for a gather (R115). -/
def LoadReq.needs (r : LoadReq) : List (Int × Nat) :=
  match r.op with
  | .gather _ idx n _ false => imgRange idx 0 (4 * n)
  | _ => r.img

/-- Whether a gather's elements are not known yet. -/
def LoadReq.unknown (r : LoadReq) : Bool := match r.op with | .gather _ _ _ _ k => !k | _ => false

/-- The bytes of an entry still to be answered. -/
def LdqEntry.todo (e : LdqEntry) : List (Int × Nat) :=
  e.req.needs.filter fun p => (e.got.lookup p.2).isNone && !e.fail.contains p.2

/-- Whether a request has been answered in full (R116, R117). -/
def LdqEntry.complete (e : LdqEntry) : Bool :=
  match e.req.op with
  | .ldblk .. => !e.got.isEmpty || e.mark.isSome
  | .ldh .. => false
  | .gather _ _ _ _ false => e.todo.isEmpty && e.mark.isSome
  | _ => e.todo.isEmpty

/-- Whether what a request asks for has been done (R205, R217): one that was refused for its page, or found stale, is to be made again
(R196, R219, R313). -/
def LdqEntry.settled (e : LdqEntry) : Bool :=
  e.complete && match e.mark with | some m => m.cause != .resid && m.cause != .stalehalo | none => true

/-- A request some of whose bytes were refused, which is to be made again (R196, R219). -/
def LdqEntry.refused (e : LdqEntry) : Bool := !e.fail.isEmpty && !e.settled

/-- An amo of a scope from 1 on (R218). -/
def LoadReq.scoped (r : LoadReq) : Bool := match r.op with | .amo _ _ sc _ _ _ => sc != 0 | _ => false

/-- Whether a request reads, or might read, a byte. -/
def State.loadTouches (s : State) (c : Nat) (t : Ctx) (r : LoadReq) (l : Option Loc) : Bool :=
  r.unknown || r.img.any fun p => sameLoc (s.locate c t p.1) l

/-- Whether a store writes, or might write, a byte (R120). -/
def State.storeTouches (s : State) (c : Nat) (t : Ctx) (r : StoreReq) (l : Option Loc) : Bool :=
  match r.op with
  | .plain img _ _ => img.any fun p => sameLoc (s.locate c t p.1) l
  | .scatter .. => true
  | .bini _ | .bexp _ | .barr _ => (List.range 32).any fun j => sameLoc (s.locate c t ((r.va + j : Nat) : Int)) l
  | _ => false

/-! ## The order within a context (R120) -/

/-- An earlier store to a byte has not been performed (rules 1, 4 and 5). -/
def State.storeBefore (s : State) (c : Nat) (t : Ctx) (n : Nat) (l : Option Loc) : Bool :=
  (t.saq.any fun r => r.seq < n && s.storeTouches c t r l)
    || t.stFlight.any fun f => f.seq < n && f.cells.any fun k => sameLoc (some k.2.1) l

/-- An earlier load-type access of a byte has not been performed, an amo among them (rule 1). -/
def State.loadBefore (s : State) (c : Nat) (t : Ctx) (n : Nat) (l : Option Loc) : Bool :=
  (t.laq.any fun r => r.seq < n && s.loadTouches c t r l)
    || t.ldq.any fun e => e.req.seq < n && !e.complete
        && (e.req.unknown || e.todo.any fun p => sameLoc (s.locate c t p.1) l)

/-- An earlier amo to a byte was refused for its page, and has not been made again (R219): a later access of the byte is not performed
before it (rule 1; log 49). -/
def State.refusedAmo (s : State) (c : Nat) (t : Ctx) (n : Nat) (l : Option Loc) : Bool :=
  t.ldq.any fun e => e.req.seq < n && e.refused && e.req.isAmo && s.loadTouches c t e.req l

/-- An earlier amo of the context to a byte has not been performed. -/
def State.amoBefore (s : State) (c : Nat) (t : Ctx) (n : Nat) (l : Option Loc) : Bool :=
  (t.laq.any fun r => r.seq < n && r.isAmo && s.loadTouches c t r l)
    || t.ldq.any fun e => e.req.seq < n && e.req.isAmo && !e.complete && s.loadTouches c t e.req l

/-- An earlier scoped amo of the context has not been performed: no later access is (R218). -/
def Ctx.amoFence (t : Ctx) (n : Nat) : Bool :=
  (t.laq.any fun r => r.seq < n && r.scoped) || t.ldq.any fun e => e.req.seq < n && e.req.scoped && !e.settled

/-- A write-through that a release before place n of a worker waits for: one of its own earlier stores, or one of its die that it may have
seen (R207, R209). -/
def WriteThrough.concerns (w : WriteThrough) (uid seen n : Nat) : Bool := (w.uid = uid && w.seq < n) || w.id < seen

/-- A write-through that concerns a worker has not been accepted at the point of a scope from 4 on (R204): the own Bivouac die for scope 4
and bytes of another module; a home, which acknowledges; for scope 6 and bytes in the CXL tier, the expander. -/
def State.unacked (s : State) (c uid seen n scope : Nat) : Bool :=
  ((s.die (dieOf c)).wt.any fun w => w.concerns uid seen n && !(scope = 4 && w.bivouac))
    || (scope = 6 && (s.die (dieOf c)).exp.any fun w => w.concerns uid seen n)

/-- Every load and amo of a context that was triggered before place n is performed. -/
def Ctx.loadsDone (t : Ctx) (n : Nat) : Bool :=
  !(t.laq.any fun r => r.seq < n) && !(t.ldq.any fun e => e.req.seq < n && !e.settled)

/-- Every store, amo and other SAQ item of a context, as it stands in t, triggered before place n is performed at a scope (R204, R205). -/
def State.storesDoneBy (s : State) (c : Nat) (t : Ctx) (n scope : Nat) : Bool :=
  !(t.saq.any fun r => r.seq < n) && !(t.stFlight.any fun f => f.seq < n)
    && !(t.laq.any fun r => r.seq < n && r.isAmo) && !(t.ldq.any fun e => e.req.seq < n && e.req.isAmo && !e.settled)
    && (scope < 4 || !s.unacked c t.uid t.wtSeen n scope)

/-- Every store, amo and other SAQ item of a context triggered before place n is performed at a scope. -/
def State.storesDone (s : State) (c x n scope : Nat) : Bool := s.storesDoneBy c (s.ctx c x) n scope

/-- Every access of a context triggered before place n is performed at a scope (R205, R207). -/
def State.performed (s : State) (c x n : Nat) (scope : Nat) : Bool :=
  (s.ctx c x).loadsDone n && s.storesDone c x n scope

/-- A context has seen what its die has accepted so far (R205, R209). -/
def State.sees (s : State) (c x : Nat) : State := s.updCtx c x fun t => { t with wtSeen := (s.die (dieOf c)).wtNext }

/-! ## Self-invalidation (R193, R195, R208) -/

/-- Whether a block lies in the remote-data cache of its context's die. -/
def LoadBlock.remote (b : LoadBlock) (die : Nat) : Bool := b.home != some die

/-- Clean lines among some lines of a die's remote-data cache are dropped; a load-block that one of them belongs to is released
whole. -/
def State.selfInval (s : State) (die : Nat) (lines : List Nat) : State :=
  let gone := ((s.die die).rdc.filter fun l => lines.contains l.line && l.clean).map (·.line)
  let s := s.updDie die fun d => { d with rdc := d.rdc.filter fun l => !(gone.contains l.line) }
  let hit : LoadBlock → Bool := fun b =>
    b.remote die && b.locs.any fun l => match s.resolve l with | some pa => gone.contains (pa / 128) | none => false
  if gone.isEmpty then s
  else
    let drop : Ctx → Ctx := fun t => { t with blocks := t.blocks.filter fun b => !hit b }
    { s with cores := s.cores.map fun p =>
        (p.1, if dieOf p.1 = die then { p.2 with ctxs := p.2.ctxs.map drop } else p.2) }

/-- Every line present in a die's remote-data cache. -/
def State.linesNow (s : State) (die : Nat) : List Nat := (s.die die).rdc.map (·.line)

/-- Every line of some that a die's remote-data cache holds may be dropped: none is dirty (R193). -/
def State.droppable (s : State) (die : Nat) (sel : Nat → Bool) : Bool := (s.die die).rdc.all fun l => !sel l.line || l.clean

/-- Self-invalidation of the lines that sel chooses, as far as they are clean (R193, R208). -/
def State.dropSel (s : State) (die : Nat) (sel : Nat → Bool) : State := s.selfInval die ((s.linesNow die).filter sel)

/-! ## Loads whose value is fixed before they are answered (R120, R206, R209; log 49) -/

/-- The byte of a location as its home has it, whether or not its page is resident: of a page that no frame holds, its backing's (R201). -/
def State.coherentByte (s : State) (die : Nat) (l : Loc) : Byte :=
  match s.landing l, l with
  | some pa, _ => s.dieByte die pa
  | none, .page (.cxl pa) o _ _ _ => memGet s.mem (pa + o)
  | none, .page (.nvme slot k) o _ _ _ => (match s.chunkAddr slot k with | some a => memGet s.nvmeMem (a + o) | none => memZero)
  | none, _ => memZero

/-- The fixed value of a byte of a request. -/
def LoadReq.fixed (r : LoadReq) (l : Loc) : Option Byte := (r.pre.find? fun p => p.1.same l).map (·.2)

/-- A request with the values of some bytes fixed, but for those that have been. -/
def LoadReq.fix (r : LoadReq) (bs : List (Loc × Byte)) : LoadReq :=
  { r with pre := r.pre ++ bs.filter fun p => (r.fixed p.1).isNone }

/-- An access of a context at place n is about to read or to write some bytes: an earlier load of them that was refused, and that is to be
made again, has its value of them fixed first, so that it returns neither a later store of the context (R120) nor a store after one that a
later load has returned (R206). -/
def State.fixRefused (s : State) (c x n : Nat) (ls : List Loc) : State :=
  let t := s.ctx c x
  if !(t.ldq.any fun e => e.req.seq < n && e.refused && !e.req.isAmo) then s
  else
    let fix : LdqEntry → LdqEntry := fun e =>
      if e.req.seq < n && e.refused && !e.req.isAmo then
        { e with req := e.req.fix ((ls.filter fun l => s.loadTouches c t e.req (some l)).map fun l => (l, s.coherentByte (dieOf c) l)) }
      else e
    s.setCtx c x { t with ldq := t.ldq.map fix }

/-- The bytes that a plain load still has to read, those of its elements too where its index block is known from memory as it stands. -/
def State.loadVas (s : State) (c : Nat) (t : Ctx) (r : LoadReq) (got : List (Nat × Byte)) : List Int :=
  let left : List (Int × Nat) := r.needs.filter fun p => (got.lookup p.2).isNone
  match r.op with
  | .plain => left.map (·.1)
  | .gather b _ n eb false =>
    let byte : Int × Nat → Byte := fun p =>
      match got.lookup p.2, s.locate c t p.1 with
      | some v, _ => v
      | none, some l => (r.fixed l).getD (s.coherentByte (dieOf c) l)
      | none, none => memZero
    let idx : Nat → Int := fun k => (BitVec.ofNat 32 (bytesNat (((r.needs.drop (4 * k)).take 4).map byte))).toInt
    left.map (·.1) ++ (imgElems (fun k => (b : Int) + idx k * (eb : Int)) eb n).map (·.1)
  | .gather _ _ _ _ true => left.map (·.1)
  | _ => []

/-- The loads of a context before place n that are not answered have their values fixed, but for bytes that an earlier store or amo of the
context has still to write: what they return is then older than every store made from now on (R209; log 50). -/
def State.fixLoads (s : State) (c x n : Nat) : State :=
  let t := s.ctx c x
  let fix : LoadReq → List (Nat × Byte) → LoadReq := fun r got =>
    if n ≤ r.seq then r
    else
      r.fix (((s.loadVas c t r got).filterMap fun va => s.locate c t va).filterMap fun l =>
        if s.storeBefore c t r.seq (some l) || s.amoBefore c t r.seq (some l) || s.refusedAmo c t r.seq (some l) then none
        else some (l, s.coherentByte (dieOf c) l))
  s.setCtx c x { t with laq := t.laq.map fun r => fix r []
                        ldq := t.ldq.map fun e => if e.settled then e else { e with req := fix e.req e.got } }

/-! ## LAQ_SEND (R108) -/

/-- The data of a claimed SDQ entry, once it is present (R118). -/
def Ctx.claimed (t : Ctx) (n : Nat) : Option VWord := (t.sdq.find? fun e => e.num = n).map (·.data)

/-- Removes the claimed entries of an operation that is sent (R118). -/
def Ctx.unclaim (t : Ctx) (n k : Nat) : Ctx := { t with sdq := t.sdq.filter fun e => e.num < n || n + k ≤ e.num }

/-- The operands an amo takes from the SDQ: the compare value and the operand (R217). -/
def amoOperands (op : AmoOp) (w : Nat) (a b : VWord) : Word × Word :=
  let cut : VWord → Word := fun v => BitVec.ofNat 64 (v.toNat % 2 ^ (8 * w))
  if op = .cas then (cut a, cut b) else (0, cut a)

/-- Sends the head of a context's LAQ once the LDQ has a free entry (R108). An amo is sent once its operands are present (R118) and,
with a scope, once every earlier access is performed at it (R218). A step-checked load waits for its check (R311). -/
def State.laqSend (s : State) (c x : Nat) : State :=
  let t := s.ctx c x
  match t.laq with
  | [] => s
  | r :: rest =>
    if 32 ≤ t.ldq.length then s
    else
      match r.op with
      | .ldh .. => s
      | .amo op w sc n _ _ =>
        let k := if op = .cas then 2 else 1
        match t.claimed n, (if k = 2 then t.claimed (n + 1) else some 0) with
        | some a, some b =>
          if sc != 0 && !s.performed c x r.seq sc.toNat then s
          else
            let (cv, d) := amoOperands op w a b
            s.setCtx c x { t.unclaim n k with laq := rest, ldq := t.ldq ++ [{ req := { r with op := .amo op w sc n cv d } }] }
        | _, _ => s
      | _ => s.setCtx c x { t with laq := rest, ldq := t.ldq ++ [{ req := r }] }

/-- LAQ_SEND (R108). -/
def execLaqSend (s : State) : Host.Outcome State Fault Refusal := .next (s.laqSend s.focus.c s.focus.x)

/-! ## HOME_ACCESS_ARRIVAL (R196, R205) -/

/-- An element of a gather or scatter, whose bytes must lie in one window with a permission (R115, R121): its lowest byte and length. -/
structure Elem1 where
  base : Int
  eb : Nat
  need : Need

/-- The failure of a byte that a context accesses, with the element it belongs to, in the order of R117: its page, its element's window or
permission, an error. -/
def State.elemFault (s : State) (c : Nat) (t : Ctx) (el : Option Elem1) (va : Int) : Option Cause :=
  match s.place (s.locate c t va) with
  | .error .resid => some .resid
  | r =>
    match el.bind fun e => s.lookup c t e.base (e.base + (e.eb : Int) - 1) e.need with
    | some m => some m.cause
    | none => match r with | .ok _ => none | .error k => some k

/-- The failure of a byte that a context accesses. -/
def State.byteFault (s : State) (c : Nat) (t : Ctx) (va : Int) : Option Cause := s.elemFault c t none va

/-- The byte of a load at the die point (R205). -/
def State.loadByte (s : State) (c : Nat) (t : Ctx) (va : Int) : Byte :=
  match s.place (s.locate c t va) with
  | .ok pa => s.dieByte (dieOf c) pa
  | .error _ => 0

/-- The value of a byte of a request that has been fixed. -/
def State.fixedByte (s : State) (c : Nat) (t : Ctx) (r : LoadReq) (va : Int) : Option Byte := (s.locate c t va).bind r.fixed

/-- The byte that a load takes: the value that has been fixed, else the one at the die point (R205). -/
def State.reqByte (s : State) (c : Nat) (t : Ctx) (r : LoadReq) (va : Int) : Byte := (s.fixedByte c t r va).getD (s.loadByte c t va)

/-- What performing a load of some bytes does to the caches, and to single-bit errors (R193, R202). -/
def State.touchBytes (s : State) (c : Nat) (t : Ctx) (vas : List Int) : State :=
  let pas := vas.filterMap fun va => match s.place (s.locate c t va) with | .ok pa => some pa | .error _ => none
  (pas.foldl (fun s pa => s.dieFill (dieOf c) pa) s).correct pas

/-- The element of a gather that a byte belongs to (R115). -/
def LoadReq.elem (r : LoadReq) (p : Int × Nat) : Option Elem1 :=
  match r.op with
  | .gather _ _ _ eb true => some { base := p.1 - ((p.2 % eb : Nat) : Int), eb := eb, need := .read }
  | _ => none

/-- A gather whose index block has been read knows its elements (R115). -/
def LdqEntry.settle (e : LdqEntry) : LdqEntry :=
  match e.req.op with
  | .gather b i n eb false =>
    if e.todo.isEmpty && e.mark.isNone then
      let bytes := (List.range (4 * n)).map fun j => (e.got.lookup j).getD 0
      let idx : Nat → Int := fun k => (BitVec.ofNat 32 (bytesNat ((bytes.drop (4 * k)).take 4))).toInt
      { e with got := [], req := { e.req with op := .gather b i n eb true
                                              img := imgElems (fun k => (b : Int) + idx k * (eb : Int)) eb n } }
    else e
  | _ => e

/-- The bytes of an element, as pieces are split (R122): an index block is one contiguous access (R115). -/
def LoadReq.grain (r : LoadReq) : Nat := match r.op with | .gather _ _ n _ false => 4 * n | _ => r.eb

/-- The piece of an entry that holds its k-th unread byte: the bytes of one element in one sector (R122). -/
def LdqEntry.piece (e : LdqEntry) (k : Nat) : List (Int × Nat) :=
  match e.todo[k % e.todo.length]? with
  | none => []
  | some p => e.todo.filter fun q => q.2 / e.req.grain = p.2 / e.req.grain && q.1 / 32 = p.1 / 32

/-- The failures of a piece's bytes, in the form of markers: a byte whose value has been fixed has none. -/
def State.pieceMarks (s : State) (c : Nat) (t : Ctx) (r : LoadReq) (ps : List (Int × Nat)) : List Mark :=
  ps.filterMap fun p =>
    if (s.fixedByte c t r p.1).isSome then none
    else if s.refusedAmo c t r.seq (s.locate c t p.1) then some (Mark.of .resid p.1)
    else (s.elemFault c t (r.elem p) p.1).map fun k => Mark.of k p.1

/-- Whether a piece must wait (R120, R206, R218): for an earlier access of the context to one of its bytes, or an earlier scoped amo. -/
def State.pieceWaits (s : State) (c : Nat) (t : Ctx) (r : LoadReq) (ps : List (Int × Nat)) : Bool :=
  t.amoFence r.seq || ps.any fun p =>
    let l := s.locate c t p.1
    s.storeBefore c t r.seq l || s.loadBefore c t r.seq l

/-- Replaces an LDQ entry. -/
def State.setEntry (s : State) (c x i : Nat) (e : LdqEntry) : State :=
  s.updCtx c x fun t => { t with ldq := t.ldq.set i e }

/-- Starts the fills that the non-resident bytes of a piece ask for (R196). -/
def State.fillFor (s : State) (c : Nat) (t : Ctx) (vas : List Int) : State :=
  vas.foldl (fun s va =>
    match s.locate c t va with
    | some l => (match s.place (some l) with | .error .resid => s.startFill (dieOf c) l | _ => s)
    | none => s) s

/-- An entry that meets failures: its marker names the lowest byte's (R117). -/
def LdqEntry.marked (e : LdqEntry) (ms : List Mark) : LdqEntry :=
  { e with mark := ms.foldl (fun a b => some (Mark.least a b)) e.mark }

/-- An entry that fails whole. -/
def LdqEntry.failAll (e : LdqEntry) (m : Mark) : LdqEntry := LdqEntry.marked { e with fail := e.req.img.map (·.2) } [m]

/-- One piece of an entry's access arrives at its home (R196, R205): it is served, or its failure marks the entry; an entry whose
RESID trap has been taken waits for its page (R196). -/
def State.loadPiece (s : State) (c x i k : Nat) : State :=
  let t := s.ctx c x
  match t.ldq[i]? with
  | none => s
  | some e =>
    let ps := e.piece k
    if ps.isEmpty then s.setEntry c x i e.settle
    else if s.pieceWaits c t e.req ps then s
    else
      let vas := ps.map (·.1)
      let ms := s.pieceMarks c t e.req ps
      let s1 := s.fillFor c t vas
      if e.held && ms.any (fun m => m.cause = .resid) then s1
      else if ms.isEmpty then
        let got := e.got ++ ps.map fun (p : Int × Nat) => (p.2, s.reqByte c t e.req p.1)
        let s := s.fixRefused c x e.req.seq (vas.filterMap fun va => s.locate c t va)
        ((s.touchBytes c t vas).sees c x).setEntry c x i { e with got := got }.settle
      else s1.setEntry c x i (LdqEntry.marked { e with fail := e.fail ++ ps.map (·.2) } ms)

/-- Where an object of n bytes lies at its home, or the failure of its lowest byte that has one (R212, R213). -/
def State.placeSpan (s : State) (c : Nat) (t : Ctx) (va n : Nat) : Except Mark Nat :=
  match leastMark ((spanVas va n).filterMap fun a => (s.byteFault c t a).map fun k => Mark.of k a) with
  | some m => .error m
  | none =>
    match s.place (s.locate c t (va : Int)) with
    | .ok pa => .ok pa
    | .error k => .error (Mark.of k (va : Int))
where
  spanVas (va n : Nat) : List Int := (List.range n).map fun j => ((va + j : Nat) : Int)

/-! ### Load-blocks (R195) -/

/-- The home of a location as R195 compares homes: a die, or none for the Bivouac die. -/
def State.homeOf (s : State) : Loc → Option Nat
  | .phys pa => if paMod pa = s.mod && paRegion pa = 0 then some (paDie pa) else none
  | .page p _ h dir _ => s.pageDie p h dir

/-- A scratch location. -/
def Loc.isScratch : Loc → Bool
  | .phys pa => paRegion pa = 1
  | _ => false

/-- The first bytes of the lines of a block. -/
def State.blockLocs (s : State) (c : Nat) (t : Ctx) (va n : Nat) : List Loc :=
  (List.range n).filterMap fun j => s.locate c t ((va + 128 * j : Nat) : Int)

/-- The blocks held by the contexts of a die. -/
def State.dieBlocks (s : State) (die : Nat) : List LoadBlock :=
  s.cores.flatMap fun p => if dieOf p.1 = die then (List.range 5).flatMap fun x => (p.2.ctx x).blocks else []

/-- Whether there is room for n more lines of a block with a home: 8 blocks a context, 512 a die, 4 MiB in its cache. -/
def State.blockRoom (s : State) (die : Nat) (t : Ctx) (home : Option Nat) (n : Nat) : Bool :=
  let bs := s.dieBlocks die
  let same := bs.filter fun b => b.remote die = (home != some die)
  t.blocks.length < 8 && bs.length < 512 && ((same.map (·.lines)).sum + n) * 128 ≤ 4 * 2 ^ 20

/-- Every byte of the lines of a block. -/
def lineVas (va n : Nat) : List Int := (List.range (128 * n)).map fun j => ((va + j : Nat) : Int)

/-- An ldblk at its home (R195), once no earlier scoped amo holds it (R218): the block is held, and its lines are exempt from replacement,
as they are filled. -/
def State.blockArrive (s : State) (c x i : Nat) (e : LdqEntry) (rel : Bool) (n : Nat) : State :=
  let t := s.ctx c x
  let va := e.req.va
  let locs := s.blockLocs c t va n
  let home := match locs with | l :: _ => s.homeOf l | [] => none
  let answer : State → Nat → State := fun s v =>
    s.setEntry c x i { e with got := (List.range 8).map fun j => (j, if j = 0 then BitVec.ofNat 8 v else 0) }
  let mine : LoadBlock → Bool := fun b => b.home = home && b.va = va
  if rel then
    if t.blocks.any mine then answer (s.updCtx c x fun t => { t with blocks := t.blocks.filter fun b => !mine b }) 0
    else answer s 3
  else if t.amoFence e.req.seq then s
  else if locs.length < n || locs.any fun l => l.isScratch || s.homeOf l != home then answer s 2
  else if t.blocks.any mine then answer s 0
  else if !s.blockRoom (dieOf c) t home n then answer s 1
  else
    let vas := lineVas va n
    let ms := vas.filterMap fun a => (s.byteFault c t a).map fun k => Mark.of k a
    if ms.isEmpty then
      let s := s.updCtx c x fun t => { t with blocks := t.blocks ++ [{ home := home, va := va, lines := n, locs := locs }] }
      answer (s.touchBytes c t vas) 0
    else
      let s1 := s.fillFor c t vas
      if e.held && ms.any (fun m => m.cause = .resid) then s1
      else (s1.touchBytes c t vas).setEntry c x i { e with mark := leastMark ms }

/-- HOME_ACCESS_ARRIVAL (R196): an access of entry i of a context's LDQ arrives; k chooses among its unread bytes. -/
def execHomeAccessArrival (s : State) : Host.Outcome State Fault Refusal :=
  let c := s.focus.c
  let x := s.focus.x
  .next (match (s.ctx c x).ldq[s.focus.i]? with
    | none => s
    | some e =>
      if e.complete || e.landed then s
      else match e.req.op with
        | .ldblk rel n => s.blockArrive c x s.focus.i e rel n
        | .amo .. => s
        | .ldh .. => s
        | _ => s.loadPiece c x s.focus.i s.focus.k)

/-! ## LDQ_ENTRY_LAND (R116, R123) -/

/-- Entry i of a context's LDQ lands once it has been answered in full: its counters fall in that cycle, once only for an entry that
has landed marked before (R123, log 17). An ended worker's entry is discarded as it lands (R140). -/
def State.landEntry (s : State) (c x i : Nat) : State :=
  let t := s.ctx c x
  match t.ldq[i]? with
  | none => s
  | some e =>
    if e.landed || !e.complete then s
    else
      let fall : Counters := { t.cnt with loads := t.cnt.loads - 1, stores := if e.req.isAmo then t.cnt.stores - 1 else t.cnt.stores }
      let q := if x < 5 then t.ldq.set i { e with landed := true } else t.ldq.eraseIdx i
      s.setCtx c x { t with ldq := q, cnt := if e.held then t.cnt else fall }

/-- LDQ_ENTRY_LAND (R116). -/
def execLdqEntryLand (s : State) : Host.Outcome State Fault Refusal := .next (s.landEntry s.focus.c s.focus.x s.focus.i)

/-! ## AMO_PERFORM (R217-R219) -/

/-- The new value of an amo: none where amocas writes nothing (R217). -/
def amoNew (op : AmoOp) (w : Nat) (old c d : Nat) : Option Nat :=
  let b := 8 * w
  match op with
  | .add => some ((old + d) % 2 ^ b)
  | .min => some (if intOf b true d < intOf b true old then d else old)
  | .max => some (if intOf b true old < intOf b true d then d else old)
  | .and => some (old &&& d)
  | .or => some (old ||| d)
  | .xor => some (old ^^^ d)
  | .swp => some d
  | .cas => if old = c then some d else none
  | .fadd => some (f32.round 0#2 0 ((f32.decode old).add (f32.decode d)).toRV).bits

/-- A write by an agent of a die at the home of some bytes, dropping the die's copies of their sectors (R193, R205). -/
def State.homePut (s : State) (die : Nat) (pa n v : Nat) : State :=
  s.enginePut die ((List.range n).map fun j => (pa + j, BitVec.ofNat 8 (v >>> (8 * j))))

/-- A write that the home of a CXL byte has accepted goes on to the expander (R204). -/
def State.toExpander (s : State) (c x seq pa : Nat) : State :=
  if paRegion pa = 2 then
    s.updDie (dieOf c) fun d =>
      { d with exp := d.exp ++ [{ core := c, ctx := x, uid := (s.ctx c x).uid, seq := seq, id := d.wtNext, cells := [(pa, 0)] }]
               wtNext := d.wtNext + 1 }
  else s

/-- The amo of an LDQ entry is performed at the home of its address (R218): once the context's own order allows it (R120) and the
die has no write-through of its bytes on the way, nor the own Bivouac die one of another module's; with a scope from 4 on, the die's remote-data cache is dropped first. -/
def State.amoPerform (s : State) (c x i : Nat) : State :=
  let t := s.ctx c x
  let die := dieOf c
  match t.ldq[i]? with
  | none => s
  | some e =>
    match e.req.op with
    | .amo op w sc _ cv dv =>
      if e.complete then s
      else
        let locs := e.req.img.map fun p => s.locate c t p.1
        if t.amoFence e.req.seq || locs.any fun l => s.storeBefore c t e.req.seq l || s.loadBefore c t e.req.seq l then s
        else if locs.any fun l => s.refusedAmo c t e.req.seq l then
          if e.held then s else s.setEntry c x i (e.failAll (Mark.of .resid (e.req.va : Int)))
        else
          match s.place (locs.headD none) with
          | .error k =>
            let m : Mark := Mark.of k (e.req.va : Int)
            let s1 := s.fillFor c t [(e.req.va : Int)]
            if e.held && k = .resid then s1
            else s1.setEntry c x i (e.failAll m)
          | .ok pa =>
            let bad := (List.range w).find? fun j => s.isBad (pa + j)
            match bad with
            | some j =>
              s.setEntry c x i (e.failAll (Mark.of .eccu ((e.req.va + j : Nat) : Int)))
            | none =>
              if ((s.die die).wt.any fun t => t.cells.any fun b => pa ≤ b.1 && b.1 < pa + w)
                  || s.accepted.any fun t => t.cells.any fun b => pa ≤ b.1 && b.1 < pa + w then s
              else
                let s := s.fixRefused c x e.req.seq (locs.filterMap id)
                let s1 := if 4 ≤ sc.toNat then s.dropSel die fun _ => true else s
                if 4 ≤ sc.toNat && !(s1.linesNow die).isEmpty then s1
                else
                  let s1 := s1.correct ((List.range w).map fun j => pa + j)
                  let old := memNat s1.mem pa w
                  let s2 := match amoNew op w old cv.toNat dv.toNat with
                    | some v => (s1.homePut die pa w v).toExpander c x e.req.seq pa
                    | none => s1
                  ((s2.updDie die fun d => d.dropLines [pa]).sees c x).setEntry c x i { e with got := (List.range w).map fun j => (j, BitVec.ofNat 8 (old >>> (8 * j))) }
    | _ => s

/-- AMO_PERFORM (R218). -/
def execAmoPerform (s : State) : Host.Outcome State Fault Refusal := .next (s.amoPerform s.focus.c s.focus.x s.focus.i)

/-! ## Stores: the drain (R118-R121) -/

/-- The byte of an SDQ entry at a place of the image it gives (R118). -/
def imageByte (v : VWord) (i : Nat) : Byte := v.extractLsb' (8 * i) 8

/-- The last write to each place of a list of writes stays (R119). -/
def lastWrites : List (Nat × Loc × Byte) → List (Nat × Loc × Byte)
  | [] => []
  | w :: ws => if ws.any fun v => v.2.1.same w.2.1 then lastWrites ws else w :: lastWrites ws

/-- The writes of a store whose elements stand at given addresses. -/
def State.storeCells (s : State) (c : Nat) (t : Ctx) (img : List (Int × Nat)) (eb : Nat) (data : VWord) : List (Nat × Loc × Byte) :=
  lastWrites (img.filterMap fun p => (s.locate c t p.1).map fun l => (p.2 / eb, l, imageByte data p.2))

/-- The failure of a store's bytes: the marker of the lowest (R121). -/
def State.storeMark (s : State) (c : Nat) (t : Ctx) (img : List (Int × Nat)) (elem : (Int × Nat) → Option Elem1) : Option Mark :=
  leastMark (img.filterMap fun p => (s.elemFault c t (elem p) p.1).map fun k => Mark.of k p.1)

/-- A store that fails its check stays at the head, and its fault becomes pending (R121); one whose RESID trap has been taken
waits for its page; one that an ended worker left waits for its page too, and is dropped with those behind it where it can never
be performed (log 14), or at once where the worker was killed (R349). -/
def State.holdStore (s : State) (c x : Nat) (m : Mark) : State :=
  s.updCtx c x fun t =>
    if t.drainFirst && m.cause = .resid then t
    else if 5 ≤ x then
      if m.cause = .resid && !t.killed then t else { t with saq := [], cnt := { t.cnt with stores := t.stFlight.length } }
    else { t with storeFault := some m, drainFirst := false }

/-- The head of the SAQ leaves it with the writes it still has to perform; a store that writes no byte is over (R119, R123). -/
def State.sendStore (s : State) (c x : Nat) (r : StoreReq) (cells : List (Nat × Loc × Byte)) (item : Bool) : State :=
  s.updCtx c x fun t =>
    let t := { t.unclaim r.claim r.nclaim with saq := t.saq.drop 1, drainFirst := false }
    if cells.isEmpty && !item then { t with cnt := { t.cnt with stores := t.cnt.stores - 1 } }
    else { t with stFlight := t.stFlight ++ [{ seq := r.seq, req := r, cells := cells }] }

/-- The claimed data and mask of a store, once present (R118): a claim that is not made reads as all ones. -/
def Ctx.storeData (t : Ctx) (r : StoreReq) : Option (VWord × VWord) :=
  match t.claimed r.claim, (if r.nclaim = 2 then t.claimed (r.claim + 1) else some (BitVec.allOnes 2048)) with
  | some d, some m => some (d, m)
  | _, _ => none

/-- The drain of a plain store (R119, R121). -/
def State.drainPlain (s : State) (c x : Nat) (r : StoreReq) (img : List (Int × Nat)) (eb : Nat) : State :=
  let t := s.ctx c x
  match t.storeData r with
  | none => s
  | some (d, m) =>
    let img := img.filter fun p => m.getLsbD p.2
    match s.storeMark c t img fun _ => none with
    | some k => (s.fillFor c t (img.map (·.1))).holdStore c x k
    | none => s.sendStore c x r (s.storeCells c t img eb d) false

/-- The bytes of a vsts's elements, by those of its index block (R119). -/
def scatterImg (base eb n : Nat) (idx : List Byte) : List (Int × Nat) :=
  imgElems (fun k => (base : Int) + (BitVec.ofNat 32 (bytesNat ((idx.drop (4 * k)).take 4))).toInt * (eb : Int)) eb n

/-- The bytes of its index block that a vsts at the SAQ head has read. -/
def Ctx.idxRead (t : Ctx) (r : StoreReq) : List (Nat × Byte) := if t.scat.1 = r.seq then t.scat.2 else []

/-- The index block of a vsts, as far as it has not been read. -/
def Ctx.idxLeft (t : Ctx) (r : StoreReq) (idx n : Nat) : List (Int × Nat) :=
  (imgRange idx 0 (4 * n)).filter fun p => ((t.idxRead r).lookup p.2).isNone

/-- A piece of the index block of a vsts is read, as one of a plain load at its place in trigger order (R119-R122, R206, R218): the bytes of
one sector. -/
def State.readIndex (s : State) (c x : Nat) (r : StoreReq) (idx n : Nat) (ps : List (Int × Nat)) : State :=
  let t := s.ctx c x
  let vas := ps.map (·.1)
  if t.amoFence r.seq || vas.any fun va =>
      let l := s.locate c t va
      s.storeBefore c t r.seq l || s.loadBefore c t r.seq l || s.refusedAmo c t r.seq l then s
  else
    match s.storeMark c t ps fun _ => some { base := (idx : Int), eb := 4 * n, need := .read } with
    | some k => (s.fillFor c t vas).holdStore c x k
    | none =>
      let read := t.idxRead r ++ ps.map fun p => (p.2, s.loadByte c t p.1)
      let s := s.fixRefused c x r.seq (vas.filterMap fun va => s.locate c t va)
      ((s.touchBytes c t vas).sees c x).updCtx c x fun t => { t with scat := (r.seq, read) }

/-- The drain of a vsts: the k-th of what is left of its index block is read, with the rest of its sector; once it has been read in full, the
elements are checked (R119, R121). -/
def State.drainScatter (s : State) (c x : Nat) (r : StoreReq) (base idx n eb k : Nat) : State :=
  let t := s.ctx c x
  match t.storeData r with
  | none => s
  | some (d, _) =>
    let left := t.idxLeft r idx n
    match left[k % left.length]? with
    | some p => s.readIndex c x r idx n (left.filter fun q => q.1 / 32 = p.1 / 32)
    | none =>
      let img := scatterImg base eb n ((List.range (4 * n)).map fun j => ((t.idxRead r).lookup j).getD 0)
      match s.storeMark c t img fun p => some { base := p.1 - ((p.2 % eb : Nat) : Int), eb := eb, need := .write } with
      | some m => (s.fillFor c t (img.map (·.1))).holdStore c x m
      | none => s.sendStore c x r (s.storeCells c t img eb d) false

/-! ## STORE_PERFORM (R122, R205) -/

/-- The piece of a sent store that holds its k-th byte (R122). -/
def StoreFlight.piece (f : StoreFlight) (k : Nat) : List (Nat × Loc × Byte) :=
  match f.cells[k % f.cells.length]? with
  | none => []
  | some p => f.cells.filter fun q => q.1 = p.1 && q.2.1.sector = p.2.1.sector

/-- An item that writes its data piece by piece, as a store does. -/
def StoreOp.isData : StoreOp → Bool
  | .plain .. | .scatter .. => true
  | _ => false

/-- A sent store waits for an earlier access of the context to one of its bytes, or an earlier scoped amo (R120, R218). -/
def State.storeWaits (s : State) (c : Nat) (t : Ctx) (seq : Nat) (ps : List (Nat × Loc × Byte)) : Bool :=
  t.amoFence seq || ps.any fun p =>
    s.loadBefore c t seq (some p.2.1) || s.refusedAmo c t seq (some p.2.1) || t.stFlight.any fun f => f.seq < seq && f.cells.any fun q => q.2.1.same p.2.1

/-- A piece of sent store i is performed at the die point (R122, R205); the store is done with its last piece (R123). -/
def State.storePerform (s : State) (c x i k : Nat) : State :=
  let t := s.ctx c x
  match t.stFlight[i]? with
  | none => s
  | some f =>
    let ps := f.piece k
    if ps.isEmpty || !f.req.op.isData || s.storeWaits c t f.seq ps then s
    else
      let cells := ps.filterMap fun p => (s.landing p.2.1).map fun pa => (pa, p.2.2)
      let pas := cells.map (·.1)
      let s := s.fixRefused c x f.seq (ps.map (·.2.1))
      let s := ((s.diePut c x f.seq cells).correct pas).dirtyFrames pas
      let rest := f.cells.filter fun q => !(ps.contains q)
      s.updCtx c x fun t =>
        if rest.isEmpty then
          { t with stFlight := t.stFlight.eraseIdx i, cnt := { t.cnt with stores := t.cnt.stores - 1 } }
        else { t with stFlight := t.stFlight.set i { f with cells := rest } }

/-- STORE_PERFORM (R205). -/
def execStorePerform (s : State) : Host.Outcome State Fault Refusal :=
  .next (s.storePerform s.focus.c s.focus.x s.focus.i s.focus.k)

/-! ## WRITE_THROUGH_ACK (R193, R206) -/

/-- Words of a line that a write marks. -/
def RdcLine.words (l : RdcLine) (cells : List (Nat × Byte)) : BitVec 32 :=
  cells.foldl (fun m p => if p.1 / 128 = l.line then m ||| (1#32 <<< (p.1 % 128 / 4)) else m) 0

/-- A write-through has bytes of another module. -/
def State.foreign (s : State) (w : WriteThrough) : Bool := w.cells.any fun p => paMod p.1 != s.mod

/-- Two runs of writes have a byte in common. -/
def meets (a b : List (Nat × Byte)) : Bool := a.any fun p => b.any fun q => q.1 = p.1

/-- The own Bivouac die has accepted, before write-through id of a die, bytes of it that another write-through brought (R206). -/
def State.acceptedBefore (s : State) (die : Nat) (w : WriteThrough) : Bool :=
  (s.accepted.takeWhile fun a => !(a.die = die && a.id = w.id)).any fun a => meets a.cells w.cells

/-- Write-through i of a die goes on: the own Bivouac die accepts bytes of another module, and gives them to every die's loads from then on
(R190, R204); then home accepts and acknowledges it. Its bytes take their place in the coherence order, after those of every earlier
write-through to the same bytes of the die, or that the Bivouac die has taken (R206), and the dirty bits of its words clear unless a later
store marked them again; bytes in the CXL tier go on to the expander (R204). -/
def State.ackWrite (s : State) (die i : Nat) : State :=
  let d := s.die die
  match d.wt[i]? with
  | none => s
  | some w =>
    if (d.wt.take i).any fun v => meets v.cells w.cells then s
    else if s.foreign w && !w.bivouac then
      ({ s with accepted := s.accepted ++ [{ die := die, id := w.id, cells := w.cells }] } : State).updDie die fun d =>
        { d with wt := d.wt.set i { w with bivouac := true } }
    else if s.foreign w && s.acceptedBefore die w then s
    else
      let later := (d.wt.drop (i + 1)).flatMap (·.cells)
      let clean : RdcLine → RdcLine := fun l =>
        { l with dirty := l.dirty &&& ~~~(l.words w.cells &&& ~~~(l.words later)) }
      let s : State := { s with mem := memPut s.mem w.cells, accepted := s.accepted.filter fun a => !(a.die = die && a.id = w.id) }
      let cxl := w.cells.any fun p => paRegion p.1 = 2
      s.updDie die fun d => { d with wt := d.wt.eraseIdx i, rdc := d.rdc.map clean, exp := if cxl then d.exp ++ [w] else d.exp }

/-- WRITE_THROUGH_ACK (R193): of write-through i of die d; with o = 1, the expander completes the write i of those it has (R204). -/
def execWriteThroughAck (s : State) : Host.Outcome State Fault Refusal :=
  .next (if s.focus.o = 1 then s.updDie s.focus.d fun d => { d with exp := d.exp.eraseIdx s.focus.i } else s.ackWrite s.focus.d s.focus.i)

end Sys2Proof.Machine
end

