-- ==== Sys2Proof/Machine/Pager.lean ====
section
/-!
DEFINITION. The pager of a die (R197, R199-R201): fills, victims, write-backs, and the NVMe backing slots (R401).
-/

namespace Sys2Proof.Machine

/-! ## Moving whole ranges of memory -/

/-- The cells of a range, moved so that the range starts at another address. -/
def cellsMoved (m : List Host.Cell) (src n dst : Nat) : List Host.Cell :=
  (m.filter fun p => src ≤ p.1 && p.1 < src + n).map fun p => (p.1 - src + dst, p.2)

/-- A range replaced by given cells of it. -/
def memPaste (m : List Host.Cell) (dst n : Nat) (cs : List Host.Cell) : List Host.Cell :=
  m.filter (fun p => p.1 < dst) ++ cs ++ m.filter (fun p => dst + n ≤ p.1)

/-- n bytes copied from src to dst. -/
def memMove (m : List Host.Cell) (src n dst : Nat) : List Host.Cell := memPaste m dst n (cellsMoved m src n dst)

/-! ## Pages and range lists (R199, R200) -/

/-- A window's pages hold a page. -/
def Window.hasPage (w : Window) : PageId → Bool
  | .cxl pa => w.paged && !w.nvme && w.targetPa ≤ pa && pa < w.targetPa + w.size
  | .nvme slot k =>
    w.paged && w.nvme && w.target / 2 ^ 27 % 256 = slot && w.target % 2 ^ 27 ≤ k && k < w.target % 2 ^ 27 + w.size / 2 ^ 21
  | .anon .. => false

/-- The windows of a launch (R199; log 66): those of its workers' copies, and for one that has no worker those of the table that its record
names, with the tables of its pipeline's stages; a launch whose record has not been read has none. -/
def State.launchWins (s : State) (l : Launch) : List Window :=
  let mine : Ctx → List Window := fun t => match t.worker with | some w => if w.launch = l.id then w.wins else [] | none => []
  let held := (s.cores.flatMap fun k => k.2.ctxs.toList.flatMap mine)
    ++ s.images.flatMap fun i => match i.saved with | some t => mine t | none => []
  if !l.taken then []
  else if !held.isEmpty then held
  else (s.copyTable l.rcd.wtab).1 ++ match l.pipe with | some (p, _) => p.recs.flatMap fun r => (s.copyTable r.wtab).1 | none => []

/-- The range list of a launch holds a page. -/
def State.launchUses (s : State) (l : Launch) (p : PageId) : Bool := (s.launchWins l).any fun w => w.hasPage p

/-- The queued launches in the order of R200: descending level, ascending queue index, place in the queue. -/
def State.queuedOrder (s : State) : List Launch :=
  let all : List Launch := s.launchQ.flatMap (·.2)
  let ins : Launch → List Launch → List Launch := fun l r =>
    let ahead : Launch → Bool := fun m => l.level < m.level || (l.level = m.level && m.vi * 16 + m.queue ≤ l.vi * 16 + l.queue)
    r.filter ahead ++ l :: r.filter fun m => !ahead m
  all.foldl (fun r l => ins l r) []

/-- The next use of a page: its lowest position; none when no list holds it (R200). -/
def State.nextUse (s : State) (p : PageId) : Option Nat :=
  if s.launches.any fun l => s.launchUses l p then some 0
  else ((s.queuedOrder.zipIdx).find? fun l => s.launchUses l.1 p).map fun l => l.2 + 1

/-- A page with a backing. -/
def PageId.paged : PageId → Bool
  | .anon .. => false
  | _ => true

/-- The victim among the RESIDENT frames holding paged pages (R200). -/
def State.victim (s : State) (d : Nat) : Option Nat :=
  let c := (s.die d).frames.filter fun f => f.2.state = .resident && f.2.page.paged
  match c.find? fun f => (s.nextUse f.2.page).isNone with
  | some f => some f.1
  | none =>
    (c.foldl (fun (best : Option (Nat × Nat)) f =>
      let u := (s.nextUse f.2.page).getD 0
      match best with
      | some b => if b.2 < u then some (f.1, u) else best
      | none => some (f.1, u)) none).map (·.1)

/-! ## The steps -/

/-- Changes a frame. -/
def State.updFrame (s : State) (d i : Nat) (f : Frame → Frame) : State :=
  s.updDie d fun k => { k with frames := k.frames.map fun e => if e.1 = i then (i, f e.2) else e }

/-- A frame that is not FREE. -/
def State.frame? (s : State) (d i : Nat) : Option Frame := (s.die d).frames.lookup i

/-- A launch is to be killed: every worker in a context takes a WDOG, and every saved one ends at once (R349, R350). -/
def State.killLaunch (s : State) (id code : Nat) : State := (s.markKilled id code).requestKill (fun w => w.launch = id) code

/-- A frame becomes CLAIMED (R199), and an expert whose slot it lies under, its pins at 0, becomes absent (R318). -/
def State.claimFrame (s : State) (d i : Nat) : State :=
  let s := s.updFrame d i fun f => { f with state := .claimed }
  { s with larder := s.larder.map fun e =>
      if e.2.state = 2 && e.2.coversFrame d i && e.2.pins = 0 then (e.1, { e.2 with state := 0 }) else e }

/-- A victim is chosen and claimed (R199, R200). -/
def State.claimVictim (s : State) (d : Nat) : State := match s.victim d with | some i => s.claimFrame d i | none => s

/-- A page whose eviction is under way on some die: its fill waits for the write-back (R199). -/
def State.evicting (s : State) (p : PageId) : Bool :=
  s.dies.any fun d => d.2.frames.any fun f => f.2.page = p && f.2.state = .claimed

/-- With no frame FREE: a victim is claimed, unless a claim is already under way; with none to claim, and every frame pinned, in a fill or
non-paged first-touch, the first fill of a non-paged page kills its launch (R198, R199). -/
def State.findFrame (s : State) (d : Nat) : State :=
  let k := s.die d
  if k.frames.any fun e => e.2.state = .claimed then s
  else if (s.victim d).isSome then s.claimVictim d
  else
    let stuck := k.frames.all fun e => e.2.state = .pinned || e.2.state = .filling || !e.2.page.paged
    match k.fillQ.findSome? fun f => match f.page with | .anon l _ _ => some (f, l) | _ => none with
    | some (f, l) => if stuck then (s.updDie d fun k => { k with fillQ := k.fillQ.erase f }).killLaunch l 1 else s
    | none => s

/-- A fill takes a FREE frame, i (which FREE frame is taken is left open: the agenda says, log 15). -/
def State.fillStart (s : State) (d i : Nat) : State :=
  let k := s.die d
  match k.fillQ.find? fun f => !s.evicting f.page with
  | none => s
  | some f =>
    let rest := k.fillQ.erase f
    if 61035 ≤ k.frames.length then s.findFrame d
    else if i < 61035 && (s.frame? d i).isNone then
      s.updDie d fun k =>
        { k with fillQ := rest
                 frames := tset k.frames i { state := .filling, page := f.page, dirty := false, ro := f.ro, pins := 0 } }
    else s

/-- The runtime releases a frame (R198; log 52): a RESIDENT one is claimed as a victim is, whatever its page. -/
def State.releaseFrame (s : State) (d i : Nat) : State :=
  if (s.frame? d i).any fun f => f.state = .resident then s.claimFrame d i else s

/-- PAGER_FILL_START (R199), or with o = 1 the runtime's release of frame i of die d (R198). -/
def execPagerFillStart (s : State) : Host.Outcome State Fault Refusal :=
  .next (if s.focus.o = 1 then s.releaseFrame s.focus.d s.focus.i else s.fillStart s.focus.d s.focus.i)

/-- The bytes of a page of a die's frame range. -/
def inFrame (base pa : Nat) : Bool := base ≤ pa && pa < base + 2 ^ 21

/-- A location lies on a page, or in the frame at an address. -/
def Loc.onPage (p : PageId) (base : Nat) : Loc → Bool
  | .page q _ _ _ _ => q = p
  | .phys pa => inFrame base pa

/-- A sent item of a context is still to reach a page: bytes of a store, or the object of a rel or of a barrier item. -/
def State.flightOn (s : State) (c : Nat) (t : Ctx) (p : PageId) (base : Nat) : Bool :=
  t.stFlight.any fun f => f.cells.any (fun k => k.2.1.onPage p base) ||
    match f.req.op with
    | .rel _ | .bini _ | .bexp _ | .barr _ => (match s.locate c t (f.req.va : Int) with | some l => l.onPage p base | none => false)
    | _ => false

/-- Every access to a page accepted before its claim has been performed (R199): no sent item waits for it, and no write-through to
it is on its way. -/
def State.claimDrained (s : State) (p : PageId) (base : Nat) : Bool :=
  !(s.cores.any fun c => (c.2.ctxs.toList ++ c.2.ghosts).any fun t => s.flightOn c.1 t p base)
    && !(s.dies.any fun d => d.2.wt.any fun w => w.cells.any fun b => inFrame base b.1)

/-- The write-back of a frame to its backing (R201): none where it fails as an NVMe failure. -/
def State.writeBack (s : State) (base : Nat) : PageId → Option State
  | .cxl pa => some { s with mem := memMove s.mem base (2 ^ 21) pa }
  | .nvme slot k =>
    (s.chunkAddr slot k).map fun a =>
      { s with nvmeMem := memPaste s.nvmeMem a (2 ^ 21) (cellsMoved s.mem base (2 ^ 21) a) }
  | .anon .. => some s

/-- The copies of a frame's lines leave the remote-data cache of every die (R199). -/
def State.dropFrame (s : State) (base n : Nat) : State :=
  { s with dies := s.dies.map fun d =>
      (d.1, { d.2 with rdc := d.2.rdc.filter fun l => !(base ≤ l.line * 128 && l.line * 128 < base + n) }) }

/-- The bytes that a load-type request waits for. -/
def LdqEntry.waitsFor (e : LdqEntry) : List Int :=
  match e.req.op with
  | .ldblk rel n => if rel || e.complete then [] else lineVas e.req.va n
  | .ldh .. => []
  | _ => e.todo.map (·.1)

/-- The bytes that the head of a context's SAQ needs (R119, R121, R213, R239, R321). -/
def Ctx.headVas (t : Ctx) (r : StoreReq) : List Int :=
  let span : Nat → List Int := fun n => (imgRange r.va 0 n).map (·.1)
  match r.op with
  | .plain img _ _ => (match t.storeData r with | some (_, m) => (img.filter fun p => m.getLsbD p.2).map (·.1) | none => [])
  | .scatter base idx n eb =>
    match t.idxLeft r idx n with
    | [] => (scatterImg base eb n ((List.range (4 * n)).map fun j => ((t.idxRead r).lookup j).getD 0)).map (·.1)
    | l => l.map (·.1)
  | .rel _ | .xscore => span 64
  | .bini _ | .bexp _ | .barr _ => span 32
  | .gvobs .. => []

/-- The accesses of a context that wait for a page take ECCU (R117, R121, R202, R401): its loads that have been refused and made again are
marked, the fault of its held store or other item is pending, and a request of its blocked bundle that the page refused is refused for ECCU
when it comes again. -/
def State.ctxLost (s : State) (p : PageId) (c x : Nat) : State :=
  let t := s.ctx c x
  let on : Int → Bool := fun va => match s.locate c t va with | some (.page q _ _ _ _) => q = p | _ => false
  let bad : LdqEntry → LdqEntry := fun e =>
    match e.waitsFor.filter on with
    | [] => e
    | l => if e.held then LdqEntry.marked { e with fail := e.fail ++ (e.todo.filter fun b => on b.1).map (·.2) } (l.map (Mark.of .eccu)) else e
  let s := s.setCtx c x { t with ldq := t.ldq.map bad, pages := t.pages.map fun e => if e.1 = p then (p, true) else e }
  match t.saq with
  | r :: _ =>
    match leastMark (((t.headVas r).filter on).map (Mark.of .eccu)) with
    | some m => if t.drainFirst || 5 ≤ x then s.holdStore c x m else s
    | none => s
  | [] => s

/-- The accesses that wait for a page whose fill or write-back has failed take ECCU (R202, R401). -/
def State.pageLost (s : State) (p : PageId) : State :=
  s.cores.foldl (fun (s : State) k => (List.range (5 + k.2.ghosts.length)).foldl (fun (s : State) x => s.ctxLost p k.1 x) s) s

/-- A frame whose bytes are read for a write-back has its single-bit errors corrected; none where one has an uncorrectable error, which stops
the write-back (R202). -/
def State.readBack (s : State) (base : Nat) : Option State :=
  if s.badEcc.any fun pa => inFrame base pa then none else some (s.correct (s.softEcc.filter fun pa => inFrame base pa))

/-- Frame i of die d gives up its page, on a die: the frame is FREE, and a first-touch binding of the page to die d is released (R198), with
the fill that accesses refused during the claim have queued there; they ask again when they are tried again. -/
def Die.freeFrame (k : Die) (here bound : Bool) (d i : Nat) (p : PageId) : Die :=
  { k with binds := k.binds.filter fun b => !(b.1 = p && b.2 = d)
           frames := if here then k.frames.filter fun g => g.1 != i else k.frames
           fillQ := if here && bound then k.fillQ.filter fun f => f.page != p else k.fillQ }

/-- A frame becomes FREE. -/
def State.freeFrame (s : State) (d i : Nat) (p : PageId) : State :=
  let bound := s.dies.any fun e => e.2.binds.any fun b => b.1 = p && b.2 = d
  { s with dies := s.dies.map fun e => (e.1, e.2.freeFrame (e.1 = d) bound d i p) }

/-- A claim completes (R199): the copies are invalidated, a dirty frame that has a backing is written back unless ro, and the frame becomes
FREE. A write-back
that meets an uncorrectable error stops, its frame staying CLAIMED, and the accesses that wait for the page take ECCU (R202). -/
def State.claimDone (s : State) (d i : Nat) : State :=
  match s.frame? d i with
  | none => s
  | some f =>
    let base := s.frameAddr d i
    if f.state != .claimed || !s.claimDrained f.page base then s
    else
      let s := s.dropFrame base (2 ^ 21)
      match (if f.dirty && !f.ro && f.page.paged then (s.readBack base).bind fun s => s.writeBack base f.page else some s) with
      | none => s.pageLost f.page
      | some s => s.freeFrame d i f.page

/-- CLAIM_COMPLETE (R199). -/
def execClaimComplete (s : State) : Host.Outcome State Fault Refusal := .next (s.claimDone s.focus.d s.focus.i)

/-- A fill that has failed: its frame is FREE again, and the accesses that wait for its page take ECCU (R401). -/
def State.fillFails (s : State) (d i : Nat) (p : PageId) : State :=
  (s.updDie d fun k => { k with frames := k.frames.filter fun g => g.1 != i }).pageLost p

/-- A fill's last byte is written into its frame, which is RESIDENT from then on (R197, R198, R201). -/
def State.fillDone (s : State) (d i : Nat) : State :=
  match s.frame? d i with
  | none => s
  | some f =>
    if f.state != .filling then s
    else
      let base := s.frameAddr d i
      let ready : State → State := fun s =>
        (s.updFrame d i fun g => { g with state := .resident, dirty := false }).pinFrames d
      match f.page with
      | .cxl pa => ready { s with mem := memMove s.mem pa (2 ^ 21) base }
      | .anon .. => ready { s with mem := memClear s.mem base (2 ^ 21) }
      | .nvme slot k =>
        match s.chunkAddr slot k with
        | some a => ready { s with mem := memPaste s.mem base (2 ^ 21) (cellsMoved s.nvmeMem a (2 ^ 21) base) }
        | none => s.fillFails d i f.page

/-- PAGE_FILL_COMPLETE (R197). -/
def execPageFillComplete (s : State) : Host.Outcome State Fault Refusal := .next (s.fillDone s.focus.d s.focus.i)

/-- NVME_FAILURE (R401): the NVMe access of frame i's fill or write-back fails. A write-back that fails leaves its frame CLAIMED
(log 15). -/
def execNvmeFailure (s : State) : Host.Outcome State Fault Refusal :=
  .next (match s.frame? s.focus.d s.focus.i with
    | none => s
    | some f =>
      match f.page, f.state with
      | .nvme .., .filling => s.fillFails s.focus.d s.focus.i f.page
      | .nvme .., .claimed => s.pageLost f.page
      | _, _ => s)

end Sys2Proof.Machine
end

