-- ==== Sys2Proof/Machine/Sync.lean ====
section
/-!
DEFINITION. sy.wait, fence, acq and rel (R124, R207-R215), sync objects (R210) and what their homes do (R211-R213).
-/

namespace Sys2Proof.Machine

/-! ## Requests of a blocked bundle -/

/-- The request a context has sent through a unit. -/
def Ctx.request (t : Ctx) (u : Unit10) : Option Awaiting := t.awaiting.find? fun a => a.unit = u

/-- Changes a context's request through a unit. -/
def Ctx.updRequest (t : Ctx) (u : Unit10) (f : Awaiting → Awaiting) : Ctx :=
  { t with awaiting := t.awaiting.map fun a => if a.unit = u then f a else a }

/-- A request joins those its context has sent. -/
def State.ask (s : State) (env : Env) (a : Awaiting) : State :=
  let s := s.updCtx env.c env.x fun t => { t with awaiting := t.awaiting ++ [{ a with rid := s.nextId }] }
  { s with nextId := s.nextId + 1 }

/-- The wait of a self-invalidation (R193, R208): the bundle issues in a cycle in which every line that sel chooses may be dropped, and
drops them then; until then those that may be are dropped each cycle. -/
def dropWait (c : Nat) (s : State) (sel : Nat → Bool) : Wait :=
  if s.droppable (dieOf c) sel then .ready else .work fun s => s.dropSel (dieOf c) sel

/-! ## sy.wait (R124) -/

/-- A count is at most a 4-bit limit, 0xF being no condition. -/
def underMax (n : Nat) (m : BitVec 4) : Bool := m = 0xF || n ≤ m.toNat

/-- The conditions of a wait. -/
def Ctx.waitDone (t : Ctx) (v : Word) : Bool :=
  ((List.range 8).all fun j => !(v.getLsbD (16 + j)) || (vget t.tok j {}).count = 0)
    && underMax t.cnt.loads (v.extractLsb' 12 4) && underMax t.cnt.stores (v.extractLsb' 8 4)
    && underMax t.cnt.copies (v.extractLsb' 4 4) && underMax t.cnt.tiles (v.extractLsb' 0 4)

/-! ## fence (R214) -/

/-- Whether a fence's bundle may issue, must block, or has lines to drop, once everything before it is performed. The lines that came in
after the fence began are dropped with those that it found (R208, R214). -/
def fenceWait (env : Env) (s : State) (v : VWord) : Wait :=
  let sc := scopeCode v.toNat
  if sc = 0 then .ready
  else if !s.performed env.c env.x env.t0.seq sc then .block
  else if sc < 4 then .ready
  else dropWait env.c s fun _ => true

/-- A fence as its bundle issues: the lines go. -/
def State.fenceAct (s : State) (env : Env) (v : Word) : State :=
  if 4 ≤ scopeCode v.toNat then s.dropSel (dieOf env.c) fun _ => true else s

/-! ## Sync objects (R210) -/

/-- The object's address (R211). -/
def objAddr (env : Env) : Nat := env.lat.syO.toNat % 2 ^ 48 / 64 * 64

/-- Word 0's fields. -/
def objVer (w : Word) : BitVec 32 := w.truncate 32
def objExclusive (w : Word) : Bool := w.getLsbD 32
def objHeld (w : Word) : Bool := w.getLsbD 33
def objOwner (w : Word) : Nat × Nat × Nat := ((w.extractLsb' 52 6).toNat, (w.extractLsb' 42 10).toNat, (w.extractLsb' 40 2).toNat)

/-- Word 0 with a version. -/
def objSetVer (w : Word) (v : BitVec 32) : Word := (w >>> 32 <<< 32) ||| v.zeroExtend 64

/-- Word 0 owned by a context of a core of a module. -/
def objOwn (w : Word) (m c x : Nat) : Word :=
  let keep := w &&& 0x00000001_FFFFFFFF#64
  keep ||| BitVec.ofNat 64 (2 ^ 33 + x % 4 * 2 ^ 40 + c % 1024 * 2 ^ 42 + m % 64 * 2 ^ 52)

/-- Word 0 not held. -/
def objFree (w : Word) : Word := w &&& ~~~(1#64 <<< 33)

/-- The parts of a run of physical addresses that lie in HBM or in the CXL tier: a run is shorter than a region of the map (R182, R210). -/
def cacheable (base len : Nat) : List (Nat × Nat) :=
  let cut := (base / 2 ^ 48 + 1) * 2 ^ 48
  let parts := [(base, Nat.min len (cut - base)), (cut, base + len - cut)]
  parts.filter fun p => 0 < p.2 && (paRegion p.1 = 0 || paRegion p.1 = 2)

/-- The bound regions of an object at a physical address: base and length; what of a region lies in scratch or in the control space takes no
part (R210). -/
def State.objRegions (s : State) (pa : Nat) : List (Nat × Nat) :=
  (List.range 4).flatMap fun j =>
    let b := memNat s.mem (pa + 16 + 12 * j) 12
    cacheable (b % 2 ^ 56) (b / 2 ^ 56 % 2 ^ 32)

/-- A line holds a byte of a region. -/
def inRegions (rs : List (Nat × Nat)) (line : Nat) : Bool :=
  rs.any fun r => line * 128 < r.1 + r.2 && r.1 < line * 128 + 128

/-- Whether a request on word 0 can be granted: the version has been reached, or the object is free or the requester's (R212). -/
def objGrants (w : Word) (want : BitVec 32) (mine : Bool) : Bool :=
  if objExclusive w then !objHeld w || mine else 0 ≤ (objVer w - want).toInt

/-- The lookup of an object for acq and rel (R211). -/
def objTrap (env : Env) (s : State) : Option Trap :=
  let v := objAddr env
  match s.spanTrap env (some ((v : Nat), ((v + 63 : Nat) : Int))) .both with
  | some t => some t
  | none =>
    match s.locate env.c env.t0 (v : Nat) with
    | some l => if l.isScratch then some { cause := .perm, addr := v } else none
    | none => none

/-! ## acq (R212) -/

/-- A refusal reply of a request as the trap of its bundle (R212, R239, R340 item 6). -/
def refusedTrap (env : Env) (u : Unit10) : Option Trap :=
  match (env.t0.request u).bind (·.reply) with
  | some (.refused m) => some m.trap
  | _ => none

/-- The lines that an acq drops: at a scope from 4 on, those of the regions (R208). -/
def Awaiting.drops (a : Awaiting) (line : Nat) : Bool := 4 ≤ scopeCode a.t.toNat && inRegions a.regions line

/-- The wait of acq: its request is sent, the values of the loads before it being fixed (R209; log 50), then its reply and the
self-invalidation are awaited. -/
def acqWait (env : Env) (s : State) (v : VWord) : Wait :=
  match env.t0.request .sy with
  | none =>
    .sendLast fun s => (s.fixLoads env.c env.x env.t0.seq).ask env { unit := .sy, code := 0x343, a := BitVec.ofNat 64 (objAddr env), t := v.truncate 64 }
  | some a =>
    match a.reply with
    | some (.value _) => dropWait env.c s a.drops
    | _ => .sent

/-- An acq as its bundle issues: the lines go, and sy.r takes the version (R212). -/
def State.acqAct (s : State) (env : Env) : State :=
  match env.t0.request .sy with
  | some a =>
    match a.reply with
    | some (.value w) => (s.dropSel (dieOf env.c) a.drops).result env .sy (w.zeroExtend 2048) 1 0
    | _ => s
  | none => s

/-- The slice that keeps a home's waiter list: die and slice, or none for the Bivouac die (R192, R211). -/
def State.waitSlice (s : State) (pa : Nat) : Option (Nat × Nat) :=
  if paMod pa = s.mod && paRegion pa = 0 then
    some (paDie pa, (pa / 2 ^ 7 % 64) ^^^ (pa / 2 ^ 13 % 64) ^^^ (pa / 2 ^ 19 % 64))
  else none

/-- Room in a waiter list: 32 requests a slice, 64 on the Bivouac die (R211). -/
def State.waitRoom (s : State) (pa : Nat) : Bool :=
  let k := s.waitSlice pa
  (s.waiters.countP fun h => s.waitSlice h.pa = k) < if k.isSome then 32 else 64

/-- The place that an exclusive object names as its owner's: module, core and context (R210). -/
def State.ownerName (s : State) (c x : Nat) : Nat × Nat × Nat := (s.mod, c, if x < 5 then x else (s.ctx c x).was)

/-- A saved worker owns an object: whoever stands in its context now is not the owner (R215; log 51). -/
def State.awayOwner (s : State) (pa : Nat) : Bool := s.images.any fun i => match i.saved with | some t => t.owns.contains pa | none => false

/-- The worker of a context owns the exclusive object at an address, whose word 0 is w (R212, R213, R215). -/
def State.isOwner (s : State) (c x pa : Nat) (w : Word) : Bool :=
  objHeld w && objOwner w = s.ownerName c x && !s.awayOwner pa

/-- An object that is granted has no other owner: a worker that held it before software freed it does so no more (R212, R215). -/
def State.disown (s : State) (pa : Nat) : State :=
  let free : Ctx → Ctx := fun t => { t with owns := t.owns.erase pa }
  { s with cores := s.cores.map fun p => (p.1, { p.2 with ctxs := p.2.ctxs.map free, ghosts := p.2.ghosts.map free })
           images := s.images.map fun i => { i with saved := i.saved.map free } }

/-- The reply of a granted acq: ownership is taken, and the version and the regions returned (R212). -/
def State.grantAcq (s : State) (c x pa : Nat) : State :=
  let w : Word := BitVec.ofNat 64 (memNat s.mem pa 8)
  let rs := s.objRegions pa
  let s := if objExclusive w then
      ((s.disown pa).homePut (dieOf c) pa 8 (objOwn w s.mod c x).toNat).updCtx c x fun t => { t with owns := pa :: t.owns }
    else s
  let uid := (s.ctx c x).uid
  let s : State := { s with waiters := s.waiters.filter fun h => !(h.uid = uid && h.pa = pa) }
  (s.sees c x).updCtx c x fun t => t.updRequest .sy fun a =>
    { a with reply := some (.value ((objVer w).zeroExtend 64)), regions := rs, retry := false }

/-- A request that its home answers "retry" is sent again after 256 clk; and one that is due is (R211). -/
def Awaiting.toRetry (a : Awaiting) (clk : Nat) : Awaiting := { a with retry := true, retryAt := clk + 256 }
def Awaiting.again (a : Awaiting) (clk : Nat) : Awaiting := if a.retry && a.retryAt ≤ clk then { a with retry := false } else a

/-- The page that a byte of a context lies on, where it is subject to residency. -/
def State.pageAt (s : State) (c : Nat) (t : Ctx) (va : Int) : Option PageId :=
  match s.locate c t va with
  | some (.page p _ _ _ _) => some p
  | _ => none

/-- A request through a unit is refused at its object's home (R212, R239): for RESID, which starts the page's fill; for ECCU where the fill
has failed since the page refused it before (R401). -/
def State.refuse (s : State) (c x : Nat) (u : Unit10) (m : Mark) : State :=
  let t := s.ctx c x
  let reply : Mark → Ctx → Ctx := fun m t => t.updRequest u fun a => { a with reply := some (.refused m) }
  match if m.cause = .resid then s.pageAt c t m.va else none with
  | none => s.updCtx c x (reply m)
  | some p =>
    if t.pages.contains (p, true) then
      s.updCtx c x fun t => { reply { m with cause := .eccu } t with pages := t.pages.filter fun e => e.1 != p }
    else
      (s.fillFor c t [m.va]).updCtx c x fun t => { reply m t with pages := (p, false) :: t.pages.filter fun e => e.1 != p }

/-- A request of a context reaches the home of its object (R211, R212). -/
def State.acqArrive (s : State) (c x : Nat) : State :=
  let t := s.ctx c x
  match t.request .sy with
  | none => s
  | some a =>
    if a.code != 0x343 || a.reply.isSome || a.retry then s
    else
      match s.placeSpan c t a.a.toNat 64 with
      | .error k => s.refuse c x .sy k
      | .ok pa =>
        let s := (s.correct ((List.range 64).map fun j => pa + j)).updCtx c x fun t => { t with pages := [] }
        let w : Word := BitVec.ofNat 64 (memNat s.mem pa 8)
        let mine : HomeWaiter → Bool := fun h => h.pa = pa && h.uid = t.uid
        let first := match s.waiters.find? fun h => h.pa = pa with | some h => h.uid = t.uid | none => true
        let mineNow := s.isOwner c x pa w
        if objGrants w (a.t.extractLsb' 3 32) mineNow && (!objExclusive w || first || mineNow) then s.grantAcq c x pa
        else if s.waiters.any mine then s
        else if s.waitRoom pa then { s with waiters := s.waiters ++ [{ pa := pa, uid := t.uid }] }
        else s.updCtx c x fun t => t.updRequest .sy (·.toRetry s.clk)

/-- ACQ_AT_HOME (R212). -/
def execAcqAtHome (s : State) : Host.Outcome State Fault Refusal := .next (s.acqArrive s.focus.c s.focus.x)

/-- WAITER_RETRY (R211): a requester that was answered "retry" sends its request again, and it arrives. -/
def execWaiterRetry (s : State) : Host.Outcome State Fault Refusal :=
  let c := s.focus.c
  let x := s.focus.x
  .next ((s.updCtx c x fun t => t.updRequest .sy (·.again s.clk)).acqArrive c x)

/-! ## rel (R213) -/

/-- The waiting requests on an object are looked at again, oldest first, once its word has changed (R211, R212). -/
def State.wakeWaiters (s : State) (pa : Nat) : State :=
  (s.waiters.filter fun h => h.pa = pa).foldl (fun s h =>
    match s.place? h.uid with
    | some (c, x) => s.acqArrive c x
    | none => s) s

/-- The release of an object at its home (R213, R215, R216): by its owner, by another context, or by an engine, which releases no exclusive
object. -/
def State.relObject (s : State) (die pa : Nat) (owner : Bool) : State :=
  let s := s.correct ((List.range 64).map fun j => pa + j)
  let w : Word := BitVec.ofNat 64 (memNat s.mem pa 8)
  if !objExclusive w then (s.homePut die pa 8 (objSetVer w (objVer w + 1)).toNat).wakeWaiters pa
  else if objHeld w && owner then
    (s.homePut die pa 8 (objFree (objSetVer w (objVer w + 1))).toNat).wakeWaiters pa
  else s

/-- The release of an object by a context (R213, R215): it is no longer among those that the worker owns. -/
def State.relBy (s : State) (c x seq pa : Nat) : State :=
  let mine := s.isOwner c x pa (BitVec.ofNat 64 (memNat s.mem pa 8))
  let s := if mine then s.updCtx c x fun t => { t with owns := t.owns.erase pa } else s
  (s.relObject (dieOf c) pa mine).toExpander c x seq pa

/-- Sent item i of a context has taken effect (R123). -/
def State.endFlight (s : State) (c x i : Nat) : State :=
  s.updCtx c x fun t => { t with stFlight := t.stFlight.eraseIdx i, cnt := { t.cnt with stores := t.cnt.stores - 1 } }

/-- The drain of a rel (R213): it holds the head until every earlier store and amo of the context is performed at its scope; a
failure at the object holds it as a store fault. -/
def State.drainRel (s : State) (c x : Nat) (r : StoreReq) (sc : Nat) : State :=
  let t := s.ctx c x
  match s.placeSpan c t r.va 64 with
  | .error m => (s.fillFor c t [(r.va : Int)]).holdStore c x m
  | .ok _ => if s.storesDone c x r.seq sc then s.sendStore c x r [] true else s

/-- REL_AT_HOME (R213): item i of those a context has sent takes effect at its object's home. -/
def execRelAtHome (s : State) : Host.Outcome State Fault Refusal :=
  let c := s.focus.c
  let x := s.focus.x
  let t := s.ctx c x
  .next (match t.stFlight[s.focus.i]? with
    | none => s
    | some f =>
      match f.req.op, (s.locate c t (f.req.va : Int)).bind s.landing with
      | .rel _, some pa => (s.relBy c x f.seq pa).endFlight c x s.focus.i
      | _, _ => s)

end Sys2Proof.Machine
end

