-- ==== Sys2Proof/Machine/SyncRows.lean ====
section
/-!
DEFINITION. The rows sy.wait, fence, acq and rel (R124, R212-R214).
-/

namespace Sys2Proof.Machine

/-- WAIT as a trigger: Blocks until the token and outstanding-counter conditions hold (R124). -/
def trigWait : Trigger := { syTrig 1 (fun _ s _ => s) with wait := fun env _ v => if env.t0.waitDone (v.truncate 64) then .ready else .block }

/-- WAIT: the bundle that holds this move alone issues (R124). -/
def execWait (g : Guard) (src : Src) (s : State) : Host.Outcome State Fault Refusal :=
  s.issueSolo (soloMove g src (.trig trigWait))

/-- FENCE as a trigger: Blocks until the earlier accesses are performed at a scope, dropping remote lines at scope 4 or above (R214). -/
def trigFence : Trigger := { syTrig 2 (fun env s v => s.fenceAct env v) with wait := fenceWait }

/-- FENCE: the bundle that holds this move alone issues (R214). -/
def execFence (g : Guard) (src : Src) (s : State) : Host.Outcome State Fault Refusal :=
  s.issueSolo (soloMove g src (.trig trigFence))

/-- ACQ as a trigger: Acquires a sync object, waiting for its version or ownership (R212). -/
def trigAcq : Trigger := { syTrig 3 (fun env s _ => s.acqAct env) with
    wait := acqWait
    check := fun env s _ => (objTrap env s).or (refusedTrap env .sy) }

/-- ACQ: the bundle that holds this move alone issues (R212). -/
def execAcq (g : Guard) (src : Src) (s : State) : Host.Outcome State Fault Refusal :=
  s.issueSolo (soloMove g src (.trig trigAcq))

/-- REL as a trigger: Queues a release of a sync object in the SAQ (R213). -/
def trigRel : Trigger := { syTrig 4 (fun env s v => s.updCtx env.c env.x fun t =>
    t.pushStore (.rel (BitVec.ofNat 3 (scopeCode v.toNat))) (objAddr env) 0) with
    saq := true, check := fun env s _ => objTrap env s }

/-- REL: the bundle that holds this move alone issues (R213). -/
def execRel (g : Guard) (src : Src) (s : State) : Host.Outcome State Fault Refusal :=
  s.issueSolo (soloMove g src (.trig trigRel))

end Sys2Proof.Machine
end

