-- ==== Sys2Proof/Machine/Teams.lean ====
section
/-!
DEFINITION. Teams and their barrier (R142, R143), finish scopes (R144-R150), spawn (R148), park (R134), and the steps
TEAM_MESSAGE_ARRIVAL, SCOPE_REMOTE_REQUEST and SCOPE_DECREMENT.
-/

namespace Sys2Proof.Machine

/-! ## Teams (R142, R143) -/

/-- The die team or the module team of a worker's launch. -/
def Launch.team? (l : Launch) (die : Option Nat) : Option Team := l.teams.find? fun t => t.die = die

/-- Changes a team. -/
def Launch.updTeam (l : Launch) (die : Option Nat) (f : Team → Team) : Launch :=
  { l with teams := l.teams.map fun t => if t.die = die then f t else t }

/-- The team a tbar selects: s[0] = 0 the die team, 1 the module team. -/
def teamOf (w : Worker) (module : Bool) : Option Nat := if module then none else some w.die

/-- The team of a context's worker. -/
def State.ctxTeam (s : State) (t : Ctx) (module : Bool) : Option Team :=
  t.worker.bind fun w => (s.launch? w.launch).bind fun l => l.team? (teamOf w module)

/-- A worker's arrival at its die team's barrier, or a message that carries it to the module team's (R143): the generation advances at the end
of the clk (State.settleTeams). -/
def State.arriveTeam (s : State) (w : Worker) (module : Bool) : State :=
  if module then { s with teamMsgs := s.teamMsgs ++ [{ launch := w.launch, uid := w.uid }] }
  else s.updTeams w.launch fun l => l.updTeam (some w.die) fun t => t.arrive w.uid

/-- The arrival of a tbar's bundle, with the generation it waits to be exceeded. -/
def State.tbarSend (s : State) (env : Env) (module : Bool) : State :=
  match env.t0.worker, s.ctxTeam env.t0 module with
  | some w, some t =>
    let g := t.seen w.die
    (s.arriveTeam w module).updCtx env.c env.x fun k => { k with tbarReg := some (module, g) }
  | _, _ => s

/-- The wait of tbar: the arrival is registered once every other pop, push and wait of the bundle is satisfied; a one-member team's barrier
completes in the cycle of arrival. -/
def tbarWait (env : Env) (s : State) (v : VWord) : Wait :=
  let module := v.getLsbD 0
  match env.t0.worker, s.ctxTeam env.t0 module with
  | some w, some t =>
    if t.members = [w.uid] then .ready
    else
      match env.t0.tbarReg with
      | some (m, g) => if m = module then (if g < t.seen w.die then .ready else .sent) else .sendLast fun s => s.tbarSend env module
      | none => .sendLast fun s => s.tbarSend env module
  | _, _ => .ready

/-- tbar completes: the registration is over. In a team of one its arrival advances the generation, which is progress (R174). -/
def State.tbarDone (s : State) (env : Env) (v : Word) : State :=
  let module := v.getLsbD 0
  match env.t0.worker, s.ctxTeam env.t0 module with
  | some w, some t =>
    let s := s.updCtx env.c env.x fun k => { k with tbarReg := none }
    if t.members = [w.uid] then
      (s.updLaunch w.launch fun l => l.updTeam (teamOf w module) fun t =>
        { (t.arrive w.uid).settle with views := tset t.views w.die (t.gen + 1) }).progress w.launch
    else s
  | _, _ => s

/-- The advance of a launch's module team reaches a die (R143): progress of the workers there that wait for it (R174). -/
def State.viewTeam (s : State) (id die : Nat) : State :=
  let waits : Ctx → Bool := fun t =>
    match t.worker, t.tbarReg, s.ctxTeam t true with
    | some w, some (true, g), some m => w.launch = id && w.die = die && m.seen die ≤ g && g < m.gen
    | _, _, _ => false
  let go := s.cores.any fun p => p.2.ctxs.toList.any waits
  let s := s.updLaunch id fun l => l.updTeam none fun t => { t with views := tset t.views die t.gen }
  if go then s.progress id else s

/-- TEAM_MESSAGE_ARRIVAL (R143): arrival i reaches its module team; past the arrivals, the advance of the module team of running
launch k reaches die d. -/
def execTeamMessageArrival (s : State) : Host.Outcome State Fault Refusal :=
  .next (match s.teamMsgs[s.focus.i]? with
    | some m =>
      let s := { s with teamMsgs := s.teamMsgs.eraseIdx s.focus.i }
      s.updLaunch m.launch fun l => l.updTeam none fun t => if t.members.contains m.uid then t.arrive m.uid else t
    | none =>
      match s.launches[s.focus.k]? with
      | some l => s.viewTeam l.id s.focus.d
      | none => s)

/-! ## Scopes (R144-R150) -/

/-- The id of an entry of a die's table. -/
def scopeId (die entry : Nat) (gen : BitVec 4) : BitVec 16 := BitVec.ofNat 16 (gen.toNat * 2 ^ 12 + die % 8 * 2 ^ 8 + entry % 256)

/-- The lowest-numbered entry of a die's table that is neither valid nor reserved. -/
def State.freeScope (s : State) (die : Nat) : Option Nat :=
  (List.range 256).find? fun i => let e := tget ({} : Scope) (s.die die).scopes i; !e.valid && !e.reserved

/-- The answer to a count of a scope at its own table: 0 and the count rises, 1 not live, 2 the count is 2^32 - 1 (R146, R148). -/
def State.countIn (s : State) (id : BitVec 16) : State × Nat :=
  if !s.scopeLive id then (s, 1)
  else if (s.scope id).pending = 2 ^ 32 - 1 then (s, 2)
  else (s.updScope id fun e => { e with pending := e.pending + 1 }, 0)

/-- The close of a scope at its own table (R147): 0, or 1 where it has no effect. -/
def State.closeScope (s : State) (id : BitVec 16) : State × Nat :=
  if s.scopeLive id && (s.scope id).isOpen then ((s.updScope id fun e => { e with isOpen := false }).applyDec id, 0) else (s, 1)

/-- A new scope in an entry of a die's table (R146): its id. -/
def State.openScope (s : State) (env : Env) (die i : Nat) (parent : BitVec 16) : State × BitVec 16 :=
  let e := tget ({} : Scope) (s.die die).scopes i
  let g := e.gen + 1
  let e' : Scope := { valid := true, reserved := false, gen := g, pending := 1, isOpen := true, parent := parent, owner := (env.c, env.x), uid := env.t0.uid }
  (s.updDie die fun d => { d with scopes := tset d.scopes i e' }, scopeId die i g)

/-- A request to a scope on another die: it is sent, and the bundle waits for its answer. -/
def State.askScope (s : State) (env : Env) (a : Awaiting) (id : BitVec 16) (close : Bool) : State :=
  let rid := s.nextId
  let s := s.ask env a
  { s with scopeReqs := s.scopeReqs ++ [{ rid := rid, uid := env.t0.uid, unit := a.unit, id := id, close := close }] }

/-- The result of a scope operation: sy.r with latency 2 (R145). -/
def State.scopeResult (s : State) (env : Env) (w : Word) : State := s.result env .sy (w.zeroExtend 2048) 2 0

/-- A scope id names another die than a core's. -/
def scopeRemote (c : Nat) (id : BitVec 16) : Bool := !scopeNil id && scopeDie id != dieOf c

/-! ### fso (R146) -/

/-- The value of a failed fso. -/
def fsoFail : Word := 0x80000000_00000800

/-- The wait of fso: a parent on another die is counted by message, once an entry has been reserved. -/
def fsoWait (env : Env) (s : State) (v : VWord) : Wait :=
  let p : BitVec 16 := v.truncate 16
  if !scopeRemote env.c p then .ready
  else
    match env.t0.request .sy with
    | some a => if a.reply.isSome then .ready else .sent
    | none =>
      match s.freeScope (dieOf env.c) with
      | none => .ready
      | some i => .send fun s =>
        let s := s.updDie (dieOf env.c) fun d => { d with scopes := tset d.scopes i { tget {} d.scopes i with reserved := true } }
        s.askScope env { unit := .sy, code := 0x34B, a := 0, t := v.truncate 64, entry := some (scopeId (dieOf env.c) i 0) } p false

/-- fso at its commit. -/
def State.fsoAct (s : State) (env : Env) (v : Word) : State :=
  let p : BitVec 16 := v.truncate 16
  let die := dieOf env.c
  match env.t0.request .sy with
  | some a =>
    match a.entry, a.reply with
    | some id, some (.value 0) =>
      let (s, id) := s.openScope env die (scopeEntry id) p
      s.scopeResult env (id.zeroExtend 64)
    | some id, _ =>
      (s.updScope id fun e => { e with reserved := false }).scopeResult env fsoFail
    | none, _ => s.scopeResult env fsoFail
  | none =>
    match s.freeScope die with
    | none => s.scopeResult env fsoFail
    | some i =>
      let (s, st) := if scopeNil p then (s, 0) else s.countIn p
      if st != 0 then s.scopeResult env fsoFail
      else
        let (s, id) := s.openScope env die i p
        s.scopeResult env (id.zeroExtend 64)

/-! ### fsc, fsw (R147, R149) -/

/-- The wait of fsc: a scope on another die is closed there, once everything else of the bundle is satisfied: a bundle that traps has closed
no scope (R145). -/
def fscWait (env : Env) (_ : State) (v : VWord) : Wait :=
  let id : BitVec 16 := v.truncate 16
  if !scopeRemote env.c id then .ready
  else
    match env.t0.request .sy with
    | some a => if a.reply.isSome then .ready else .sent
    | none => .sendLast fun s => s.askScope env { unit := .sy, code := 0x34C, a := 0, t := v.truncate 64 } id true

/-- fsc at its commit: progress of its worker (R174). -/
def State.fscAct (s : State) (env : Env) (v : Word) : State :=
  let id : BitVec 16 := v.truncate 16
  let (s, st) := match (env.t0.request .sy).bind (·.reply) with
    | some (.value w) => (s, w.toNat)
    | _ => s.closeScope id
  (s.scopeResult env (BitVec.ofNat 64 st)).progress env.t0.launch

/-- The wait of fsw. -/
def fswWait (_ : Env) (s : State) (v : VWord) : Wait := if s.scopeLive (v.truncate 16) then .block else .ready

/-! ### spawn (R148) -/

/-- A launch queue by its index, VI * 16 + queue (R161). -/
def State.queue (s : State) (q : Nat) : List Launch := tget [] s.launchQ q

/-- Places of a launch queue that are taken or reserved: 64 at most (R148, R161). -/
def State.queueFill (s : State) (q : Nat) : Nat :=
  (s.queue q).length + (s.cores.map fun k => (k.2.ctxs.toList.map fun t => t.awaiting.countP fun a => a.queue = some q).sum).sum

/-- The record of a spawn as a number, read by the context (R148). -/
def State.spawnRecord (s : State) (env : Env) : BitVec 512 :=
  let v := env.lat.syO.toNat % 2 ^ 48
  BitVec.ofNat 512 (bytesNat ((List.range 64).map fun i => s.loadByte env.c env.t0 ((v + i : Nat) : Int)))

/-- The queue, prio, tickets and dies fields of a record (R135). -/
def recQueue (b : BitVec 512) : Nat := (b.extractLsb' 462 4).toNat
def recPrio (b : BitVec 512) : Nat := (b.extractLsb' 456 6).toNat
def recTickets (b : BitVec 512) : Nat := (b.extractLsb' 440 16).toNat
def recDies (b : BitVec 512) : BitVec 8 := b.extractLsb' 256 8

/-- The launch queue a spawn names. -/
def spawnQueue (env : Env) (b : BitVec 512) : Nat := env.t0.vi * 16 + recQueue b

/-- The lookup of a spawn's record (R148). -/
def spawnTrap (env : Env) (s : State) : Option Trap :=
  let v := env.lat.syO.toNat % 2 ^ 48
  s.spanTrap env (some ((v : Nat), ((v + 63 : Nat) : Int))) .read

/-- The bytes of a spawn's record that no frame holds (log 16). -/
def spawnAbsent (env : Env) (s : State) : List Int :=
  let v := env.lat.syO.toNat % 2 ^ 48
  ((List.range 64).map fun i => ((v + i : Nat) : Int)).filter fun a => s.byteFault env.c env.t0 a = some .resid

/-- The wait of a spawn: its record's page, and the count of a scope on another die, once a place is reserved. -/
def spawnWait (env : Env) (s : State) (v : VWord) : Wait :=
  let id : BitVec 16 := v.truncate 16
  match env.t0.request .sy with
  | some a => if a.reply.isSome then .ready else .sent
  | none =>
    if !(spawnAbsent env s).isEmpty then .work fun s => s.fillFor env.c env.t0 (spawnAbsent env s)
    else if !scopeRemote env.c id then .ready
    else
      let q := spawnQueue env (s.spawnRecord env)
      if 64 ≤ s.queueFill q then .ready
      else .send fun s =>
        s.askScope env { unit := .sy, code := 0x34A, a := env.lat.syO, t := v.truncate 64, queue := some q } id false

/-- The launch a spawn queues: it keeps the four fields, belongs to the spawner's VI, and its scope is t (R148, R359). -/
def State.childLaunch (s : State) (env : Env) (b : BitVec 512) (id : BitVec 16) : Launch :=
  { id := s.nextId, vi := env.t0.vi, queue := recQueue b
    rcd := { queue := recQueue b, prio := recPrio b, tickets := recTickets b, dies := recDies b }
    taken := false, scope := id, recVa := env.lat.syO.toNat % 2 ^ 48
    sWins := env.t0.wins, sCore := env.c, sLaunch := env.t0.launch
    step := if env.t0.ctl.step = 3 then 3 else 0 }

/-- A launch joins its queue. -/
def State.enqueue (s : State) (q : Nat) (l : Launch) : State :=
  { s with launchQ := tset s.launchQ q (s.queue q ++ [l]), nextId := s.nextId + 1 }

/-- spawn at its commit. -/
def State.spawnAct (s : State) (env : Env) (v : Word) : State :=
  let id : BitVec 16 := v.truncate 16
  let b := s.spawnRecord env
  match (env.t0.request .sy).bind (·.reply) with
  | some (.value w) =>
    if w = 0 then
      let q := ((env.t0.request .sy).bind (·.queue)).getD (spawnQueue env b)
      (s.enqueue q { s.childLaunch env b id with queue := q % 16 }).scopeResult env 0
    else s.scopeResult env w
  | _ =>
    if 64 ≤ s.queueFill (spawnQueue env b) then s.scopeResult env 3
    else
      let (s1, st) := if scopeNil id then (s, 0) else s.countIn id
      if st = 0 then (s1.enqueue (spawnQueue env b) (s1.childLaunch env b id)).scopeResult env 0
      else s1.scopeResult env (BitVec.ofNat 64 st)

/-! ### Messages -/

/-- A request reaches its scope's table: the answer goes to the waiting bundle. A bundle that no longer waits has counted nothing
(R145). -/
def State.scopeServe (s : State) (m : ScopeReq) : State :=
  match s.place? m.uid with
  | none => s
  | some (c, x) =>
    if !((s.ctx c x).awaiting.any fun a => a.rid = m.rid) then s
    else
      let (s, st) := if m.close then s.closeScope m.id else s.countIn m.id
      s.updCtx c x fun t => { t with awaiting := t.awaiting.map fun a =>
        if a.rid = m.rid then
          { a with reply := some (.value (BitVec.ofNat 64 st)), undo := if !m.close && st = 0 then some m.id else none }
        else a }

/-- SCOPE_REMOTE_REQUEST (R146-R148): request i arrives. -/
def execScopeRemoteRequest (s : State) : Host.Outcome State Fault Refusal :=
  .next (match s.scopeReqs[s.focus.i]? with
    | none => s
    | some m => ({ s with scopeReqs := s.scopeReqs.eraseIdx s.focus.i } : State).scopeServe m)

/-- SCOPE_DECREMENT (R150): decrement i reaches its scope. -/
def execScopeDecrement (s : State) : Host.Outcome State Fault Refusal :=
  .next (match s.scopeDecs[s.focus.i]? with
    | none => s
    | some id => ({ s with scopeDecs := s.scopeDecs.eraseIdx s.focus.i } : State).applyDec id)

/-! ## park (R134) -/

/-- The queue a handle is bound to, with its direction (R153). -/
def State.handleQueue (s : State) (t : Ctx) (h : Nat) : Option (Handle × ChanQueue) :=
  match vget t.handles h none, t.worker.bind (·.stage) with
  | some k, some (p, _) => ((s.pipes.find? fun q => q.id = p).bind fun q => q.queues[k.queue]?).map fun q => (k, q)
  | _, _ => none

/-- Entries of a queue that its consumers see, and slots that its producers see free (R152). -/
def ChanQueue.present (q : ChanQueue) : Nat := q.entries.countP fun e => e.visible
def ChanQueue.room (q : ChanQueue) : Nat := q.depth - (q.entries.length + q.gone.length)

/-- A closed queue that holds no entry (R156). -/
def ChanQueue.ended (q : ChanQueue) : Bool := q.closed && q.entries.isEmpty

/-- The conditions a park selects. -/
def State.parkDone (s : State) (t : Ctx) (m : BitVec 8) : Bool :=
  m = 0
    || ((List.range 4).any fun h => m.getLsbD h && match s.handleQueue t h with
        | some (k, q) => if k.output then 0 < q.room else 0 < q.present
        | none => false)
    || (m.getLsbD 4 && !t.recvF.isEmpty) || (m.getLsbD 5 && t.tokDone) || (m.getLsbD 6 && t.storeFault.isSome)

end Sys2Proof.Machine
end

