-- ==== Sys2Proof/Machine/TeamRows.lean ====
section
/-!
DEFINITION. The rows spawn, fso, fsc, fsw, tbar and park (R134, R143, R145-R149).
-/

namespace Sys2Proof.Machine

/-- SPAWN as a trigger: Queues a loop record as a child launch counted into a scope (R148). -/
def trigSpawn : Trigger := { syTrig 10 (fun env s v => s.spawnAct env v) with check := fun env s _ => spawnTrap env s, wait := spawnWait, results := fun _ => 1 }

/-- SPAWN: the bundle that holds this move alone issues (R148). -/
def execSpawn (g : Guard) (src : Src) (s : State) : Host.Outcome State Fault Refusal :=
  s.issueSolo (soloMove g src (.trig trigSpawn))

/-- FSO as a trigger: Opens a finish scope under a parent (R146). -/
def trigFso : Trigger := { syTrig 11 (fun env s v => s.fsoAct env v) with wait := fsoWait, results := fun _ => 1 }

/-- FSO: the bundle that holds this move alone issues (R146). -/
def execFso (g : Guard) (src : Src) (s : State) : Host.Outcome State Fault Refusal :=
  s.issueSolo (soloMove g src (.trig trigFso))

/-- FSC as a trigger: Closes a finish scope's open hold (R147). -/
def trigFsc : Trigger := { syTrig 12 (fun env s v => s.fscAct env v) with wait := fscWait, results := fun _ => 1 }

/-- FSC: the bundle that holds this move alone issues (R147). -/
def execFsc (g : Guard) (src : Src) (s : State) : Host.Outcome State Fault Refusal :=
  s.issueSolo (soloMove g src (.trig trigFsc))

/-- FSW as a trigger: Blocks until a finish scope has completed (R149). -/
def trigFsw : Trigger := { syTrig 13 (fun _ s _ => s) with wait := fswWait }

/-- FSW: the bundle that holds this move alone issues (R149). -/
def execFsw (g : Guard) (src : Src) (s : State) : Host.Outcome State Fault Refusal :=
  s.issueSolo (soloMove g src (.trig trigFsw))

/-- TBAR as a trigger: Team barrier over the die team or the module team (R143). -/
def trigTbar : Trigger := { syTrig 14 (fun env s v => s.tbarDone env v) with wait := tbarWait }

/-- TBAR: the bundle that holds this move alone issues (R143). -/
def execTbar (g : Guard) (src : Src) (s : State) : Host.Outcome State Fault Refusal :=
  s.issueSolo (soloMove g src (.trig trigTbar))

/-- PARK as a trigger: Blocks until a selected condition holds, counting the context as parked (R134). -/
def trigPark : Trigger := { syTrig 15 (fun _ s _ => s) with
    wait := fun env s v => if s.parkDone env.t0 (v.truncate 8) then .ready else .block }

/-- PARK: the bundle that holds this move alone issues (R134). -/
def execPark (g : Guard) (src : Src) (s : State) : Host.Outcome State Fault Refusal :=
  s.issueSolo (soloMove g src (.trig trigPark))

end Sys2Proof.Machine
end

