-- ==== Sys2Proof/Machine/Stage.lean ====
section
/-!
DEFINITION. Pipelines (R151-R160): the qu operations on stage queues, qinfo (R141), the delayed views of R152, and the balancer's
interval (R158, R159).
-/

namespace Sys2Proof.Machine

/-! ## The qu operations -/

/-- A qu trigger. -/
def quTrig (off : Nat) (act : Env → State → Word → State) : Trigger :=
  { unit := .qu, code := 0x280 + off, act := fun env s v => act env s (v.truncate 64) }

/-- A result of qu, with latency 2 (R154). -/
def State.quResult (s : State) (env : Env) (w : Word) : State := s.result env .qu (w.zeroExtend 2048) 2 0

/-- Changes a pipeline. -/
def State.updPipe (s : State) (id : Nat) (f : Pipeline → Pipeline) : State :=
  { s with pipes := s.pipes.map fun p => if p.id = id then f p else p }

/-- Changes a channel queue of a pipeline. -/
def Pipeline.updQueue (p : Pipeline) (q : Nat) (f : ChanQueue → ChanQueue) : Pipeline := { p with queues := lmod p.queues q f }

/-- The handle that a trigger word names (R154). -/
def quHandle (v : Word) : Nat := (v.extractLsb' 0 2).toNat

/-- The pipeline and stage of a context's worker. -/
def Ctx.stage (t : Ctx) : Option (Nat × Nat) := t.worker.bind (·.stage)

/-- Changes the queue that a handle of a context is bound to. -/
def State.updHandleQueue (s : State) (t : Ctx) (h : Nat) (f : ChanQueue → ChanQueue) : State :=
  match vget t.handles h none, t.stage with
  | some k, some (p, _) => s.updPipe p fun q => q.updQueue k.queue f
  | _, _ => s

/-- The binding that a qbind asks for: a declared queue, in a direction that the stage has (R151, R154). -/
def State.bindTo (s : State) (t : Ctx) (v : Word) : Option Handle :=
  let out := v.getLsbD 2
  let n := (v.extractLsb' 4 4).toNat
  match t.stage with
  | none => none
  | some (p, k) =>
    match (s.pipes.find? fun q => q.id = p).bind fun q => q.queues[n]? with
    | none => none
    | some q => if (if out then q.src else q.dst) = k then some { queue := n, output := out } else none

/-- qbind (R154). -/
def State.qbindAct (s : State) (env : Env) (v : Word) : State :=
  let b := s.bindTo env.t0 v
  let s := s.updCtx env.c env.x fun t => { t with handles := vset t.handles (quHandle v) b }
  s.quResult env (if b.isSome then 0 else 1)

/-- The wait of a push (R155): a handle bound as output to an open queue that is full. -/
def pushWait (env : Env) (s : State) (v : VWord) : Wait :=
  match s.handleQueue env.t0 (quHandle (v.truncate 64)) with
  | some (k, q) => if k.output && !q.closed && q.room = 0 then .block else .ready
  | none => .ready

/-- A push of an entry through a handle (R152, R155): progress of its worker (R174). -/
def State.pushEntry (s : State) (env : Env) (h : Nat) (vec : Bool) (len : Nat) (d : VWord) : State :=
  match s.handleQueue env.t0 h with
  | some (k, q) =>
    if k.output && !q.closed then
      (s.updHandleQueue env.t0 h fun q =>
        { q with entries := q.entries ++ [{ vec := vec, len := len, pair := q.pair, data := d, since := s.clk, visible := false }] }).progress
          env.t0.launch
    else s
  | none => s

/-- qpush (R154): a scalar entry of 8 bytes. -/
def State.qpushAct (s : State) (env : Env) (v : Word) : State :=
  s.pushEntry env (quHandle v) false 8 (env.lat.quO.zeroExtend 2048)

/-- The length a qpushv names (R154). -/
def pushLen (v : Word) : Nat :=
  let n := (v.extractLsb' 16 9).toNat
  if n = 0 || 256 < n then 256 else n

/-- qpushv (R154): the first len bytes of a vector register as read at the start of the cycle. -/
def State.qpushvAct (s : State) (env : Env) (v : Word) : State :=
  let n := pushLen v
  s.pushEntry env (quHandle v) true n
    (BitVec.ofNat 2048 ((vget env.t0.v (v.extractLsb' 8 5).toNat 0).toNat % 2 ^ (8 * n)))

/-- qtry (R154). -/
def State.qtryAct (s : State) (env : Env) (v : Word) : State :=
  s.quResult env (match s.handleQueue env.t0 (quHandle v) with
    | some (k, q) => BitVec.ofNat 64 ((if k.output then q.room else q.present) + if q.ended then 2 ^ 63 else 0)
    | none => 0)

/-- qclose (R154, R156). -/
def State.qcloseAct (s : State) (env : Env) (v : Word) : State :=
  s.updHandleQueue env.t0 (quHandle v) fun q => { q with closed := true }

/-- qfmt (R154). -/
def State.qfmtAct (s : State) (env : Env) (v : Word) : State :=
  let p : BitVec 14 := v.extractLsb' 16 14
  if (s.handleQueue env.t0 (quHandle v)).isSome && pairValid (pairSrc p) (pairSnk p) then
    (s.updHandleQueue env.t0 (quHandle v) fun q => { q with pair := p }).quResult env 0
  else s.quResult env 1

/-! ## qinfo (R141) -/

/-- The word of a handle. -/
def State.handleInfo (s : State) (t : Ctx) (h : Nat) : Nat :=
  match s.handleQueue t h with
  | none => 0
  | some (k, q) =>
    q.present % 2 ^ 16 + q.depth % 2 ^ 16 * 2 ^ 16 + 2 ^ 32 + (if k.output then 2 ^ 33 else 0) + (if q.closed then 2 ^ 34 else 0)
      + (if q.ended then 2 ^ 35 else 0) + q.pair.toNat * 2 ^ 36

/-- The product of the counts of the levels inside level l of its own kind (R137). -/
def LoopRec.inner (r : LoopRec) (l : Nat) : Nat :=
  ((List.range 4).filterMap fun j => if l < j && r.kinds[j]? = r.kinds[l]? then some (r.counts.getD j 0) else none).foldl (· * ·) 1

/-- The coordinate of a spatial level at a linear point (R137, R141). -/
def LoopRec.coord (r : LoopRec) (l p : Nat) : Nat := p / r.inner l % r.counts.getD l 0

/-- Whether a level is spatial, and over dies. -/
def LoopRec.spatial (r : LoopRec) (l : Nat) : Option Bool :=
  match r.kinds[l]? with
  | some .core => some false
  | some .die => some true
  | _ => none

/-- The coordinate of a level in the current iteration. -/
def Worker.coord (w : Worker) (l : Nat) : Nat :=
  match w.rcd.spatial l, w.stage, w.phase with
  | some d, none, .iteration => w.rcd.coord l (if d then w.dp else w.cp)
  | _, _, _ => 0

/-- The chunk of a level: its first coordinate, and the number of its distinct values. -/
def Worker.chunkOf (w : Worker) (l : Nat) : Nat :=
  match w.rcd.spatial l, w.stage with
  | some d, none =>
    let first := if d then w.dieFirst else w.coreFirst
    let size := if d then w.dieSize else w.coreSize
    let n := w.rcd.inner l
    if size = 0 then 0
    else w.rcd.coord l first + Nat.min ((first + size - 1) / n - first / n + 1) (w.rcd.counts.getD l 0) * 2 ^ 32
  | _, _ => 0

/-- The value that a selector reads. -/
def State.qinfo (s : State) (t : Ctx) (sel : Nat) : Nat :=
  if sel < 4 then s.handleInfo t sel
  else
    match t.worker with
    | none => 0
    | some w =>
      let team : Option Nat → Nat → Nat := fun die rank =>
        rank % 2 ^ 16 + (match (s.launch? w.launch).bind fun l => l.team? die with
          | some m => m.members.length % 2 ^ 16
          | none => 0) * 2 ^ 16
      if 0x10 ≤ sel && sel ≤ 0x13 then w.coord (sel - 0x10)
      else if 0x18 ≤ sel && sel ≤ 0x1B then w.chunkOf (sel - 0x18)
      else if sel = 0x20 then (if w.phase = .iteration then w.it else 0)
      else if sel = 0x21 then team (some w.die) w.dieRank
      else if sel = 0x22 then team none w.modRank
      else if sel = 0x23 then (match s.launch? w.launch with | some l => l.scope.toNat | none => 0)
      else if sel = 0x24 then (match w.stage with | some (_, k) => k | none => 0xFF)
      else 0

/-- qinfo (R141). -/
def State.qinfoAct (s : State) (env : Env) (v : Word) : State :=
  s.quResult env (BitVec.ofNat 64 (s.qinfo env.t0 (v.toNat % 256)))

/-! ## Delayed views (R152) -/

/-- Entries pushed at least 16 clk ago are poppable (R152). -/
def ChanQueue.show (q : ChanQueue) (clk : Nat) : ChanQueue :=
  { q with entries := q.entries.map fun e => { e with visible := e.visible || e.since + 16 ≤ clk } }

/-- Slots freed at least 16 clk ago are free for producers (R152). -/
def ChanQueue.free (q : ChanQueue) (clk : Nat) : ChanQueue := { q with gone := q.gone.filter fun u => clk < u + 16 }

/-- The delayed views of every queue, as the clk has them (R152). -/
def State.showViews (s : State) : State :=
  { s with pipes := s.pipes.map fun p => { p with queues := p.queues.map fun q => (q.show s.clk).free s.clk } }

/-- The next clk at which a queue's view changes (R152). -/
def State.nextView (s : State) : Option Nat :=
  let due := s.pipes.flatMap fun p => p.queues.flatMap fun q =>
    ((q.entries.filter fun e => !e.visible).map fun e => e.since + 16) ++ q.gone.map fun u => u + 16
  due.foldl (fun (m : Option Nat) k => some (match m with | some j => Nat.min j k | none => k)) none

/-- Changes queue k of the pipeline at index i. -/
def State.updQueueAt (s : State) (i k : Nat) (f : ChanQueue → ChanQueue) : State :=
  match s.pipes[i]? with
  | some p => s.updPipe p.id fun p => p.updQueue k f
  | none => s

/-- STAGE_ENTRY_VISIBLE (R152): in pipeline i's queue k, the entries whose 16 cycles have passed. -/
def execStageEntryVisible (s : State) : Host.Outcome State Fault Refusal :=
  .next (s.updQueueAt s.focus.i s.focus.k fun q => q.show s.clk)

/-- STAGE_SLOT_FREED (R152): the slots freed by pops 16 cycles ago. -/
def execStageSlotFreed (s : State) : Host.Outcome State Fault Refusal :=
  .next (s.updQueueAt s.focus.i s.focus.k fun q => q.free s.clk)

/-! ## The balancer (R158, R159) -/

/-- A worker of a pipeline, in a context or saved, waits to change its stage. -/
def State.movePending (s : State) (pipe : Nat) : Bool :=
  let mv : Ctx → Bool := fun t => match t.worker with
    | some w => w.move.isSome && (w.stage.map (·.1)) = some pipe
    | none => false
  (s.cores.any fun k => k.2.ctxs.any mv) || (s.images.any fun i => match i.saved with | some t => mv t | none => false)

/-- A stage has ended, or one of its outputs is closed. -/
def State.stageOver (s : State) (p : Pipeline) (k : Nat) : Bool :=
  !s.stageAlive p.id k || p.queues.any fun q => q.src = k && q.closed

/-- The donor: the largest Bs among stages of at least two cores, the lower stage on ties. -/
def Pipeline.donor (p : Pipeline) : Option Nat :=
  ((List.range p.cores.length).foldl (fun (best : Option (Nat × Nat)) k =>
    if (p.cores.getD k []).length < 2 then best
    else
      let b := p.blocked.getD k 0
      match best with
      | some (_, m) => if m < b then some (k, b) else best
      | none => some (k, b)) none).map (·.1)

/-- The receiver: the lowest-numbered other stage whose inputs are above the high mark and whose outputs are below the low mark. -/
def Pipeline.receiver (p : Pipeline) (donor : Nat) : Option Nat :=
  (List.range p.cores.length).find? fun k => k != donor && p.queues.all fun q =>
    (q.dst != k || q.depth * p.hw < q.present * 16) && (q.src != k || q.present * 16 < q.depth * p.lw)

/-- The move that an interval's end chooses: core, donor and receiver. -/
def State.chooseMove (s : State) (p : Pipeline) : Option (Nat × Nat × Nat) :=
  if s.movePending p.id || (List.range p.cores.length).any fun k => s.stageOver p k then none
  else
    match p.donor with
    | none => none
    | some d =>
      if p.blocked.getD d 0 = 0 then none
      else
        match p.receiver d with
        | none => none
        | some r => ((p.cores.getD d []).foldl (fun (m : Option Nat) c => some (Nat.max (m.getD 0) c)) none).map fun c => (c, d, r)

/-- The workers of a core that belong to a stage wait for their next boundary to change to another (R160). A context that holds none has nothing
to stop and no worker to start: it is the receiver's at once, as its core is (log 69). -/
def markMove (pipe donor recv : Nat) (t : Ctx) : Ctx :=
  match t.worker with
  | some w => if w.stage = some (pipe, donor) then { t with worker := some { w with move := some (pipe, recv) } } else t
  | none => t

/-- The core of a saved worker: where it is to be restored, once it is placed, or where it was saved. -/
def State.coreOf (s : State) (i : Image) : Nat := ((s.cores.find? fun p => p.2.ctxs.any (·.isWorker i.uid)).map (·.1)).getD i.core

/-- A chosen move begins: the core belongs to the receiver from now on, its contexts change one by one. -/
def State.startMove (s : State) (p : Pipeline) (c d r : Nat) : State :=
  let s := s.updCore c fun k => { k with ctxs := k.ctxs.map (markMove p.id d r) }
  let mark : Image → Image := fun i => if s.coreOf i = c then { i with saved := i.saved.map (markMove p.id d r) } else i
  let s : State := { s with images := s.images.map mark }
  s.updPipe p.id fun p => { p with cores := lmod (lmod p.cores d fun l => l.filter fun x => x != c) r fun l => l ++ [c] }

/-- An interval of a pipeline ends at a clk (R158): intervals of 2^ivexp clk are counted from its start. -/
def Pipeline.endsAt (p : Pipeline) (clk : Nat) : Bool := p.start < clk && (clk - p.start) % 2 ^ p.ivexp = 0

/-- The end of an interval of a pipeline (R158, R159): a move is chosen, and the counts begin again. -/
def State.endInterval (s : State) (p : Pipeline) : State :=
  let s := match s.chooseMove p with
    | some (c, d, r) => s.startMove p c d r
    | none => s
  s.updPipe p.id fun p => { p with blocked := p.blocked.map fun _ => 0, measured := s.clk }

/-- BALANCER_INTERVAL (R158, R159): at the end of an interval of pipeline i, once. -/
def execBalancerInterval (s : State) : Host.Outcome State Fault Refusal :=
  .next (match s.pipes[s.focus.i]? with
    | none => s
    | some p => if p.endsAt s.clk && p.measured != s.clk then s.endInterval p else s)

end Sys2Proof.Machine
end

