-- ==== Sys2Proof/Machine/StageRows.lean ====
section
/-!
DEFINITION. The rows qbind, qpush, qpushv, qtry, qclose, qfmt and qinfo (R141, R154-R156).
-/

namespace Sys2Proof.Machine

/-- QBIND as a trigger: Rebinds a stage-queue handle (R154). -/
def trigQbind : Trigger := { quTrig 1 (fun env s v => s.qbindAct env v) with results := fun _ => 1 }

/-- QBIND: the bundle that holds this move alone issues (R154). -/
def execQbind (g : Guard) (src : Src) (s : State) : Host.Outcome State Fault Refusal :=
  s.issueSolo (soloMove g src (.trig trigQbind))

/-- QPUSH as a trigger: Pushes a scalar entry to a stage queue (R155). -/
def trigQpush : Trigger := { quTrig 2 (fun env s v => s.qpushAct env v) with wait := pushWait }

/-- QPUSH: the bundle that holds this move alone issues (R155). -/
def execQpush (g : Guard) (src : Src) (s : State) : Host.Outcome State Fault Refusal :=
  s.issueSolo (soloMove g src (.trig trigQpush))

/-- QPUSHV as a trigger: Pushes a vector entry to a stage queue (R155). -/
def trigQpushv : Trigger := { quTrig 3 (fun env s v => s.qpushvAct env v) with wait := pushWait }

/-- QPUSHV: the bundle that holds this move alone issues (R155). -/
def execQpushv (g : Guard) (src : Src) (s : State) : Host.Outcome State Fault Refusal :=
  s.issueSolo (soloMove g src (.trig trigQpushv))

/-- QTRY as a trigger: Returns the entries present or free, without blocking (R154). -/
def trigQtry : Trigger := { quTrig 4 (fun env s v => s.qtryAct env v) with results := fun _ => 1 }

/-- QTRY: the bundle that holds this move alone issues (R154). -/
def execQtry (g : Guard) (src : Src) (s : State) : Host.Outcome State Fault Refusal :=
  s.issueSolo (soloMove g src (.trig trigQtry))

/-- QCLOSE as a trigger: Closes a stage queue (R156). -/
def trigQclose : Trigger := quTrig 5 (fun env s v => s.qcloseAct env v)

/-- QCLOSE: the bundle that holds this move alone issues (R156). -/
def execQclose (g : Guard) (src : Src) (s : State) : Host.Outcome State Fault Refusal :=
  s.issueSolo (soloMove g src (.trig trigQclose))

/-- QFMT as a trigger: Sets a stage queue's format pair (R154). -/
def trigQfmt : Trigger := { quTrig 6 (fun env s v => s.qfmtAct env v) with results := fun _ => 1 }

/-- QFMT: the bundle that holds this move alone issues (R154). -/
def execQfmt (g : Guard) (src : Src) (s : State) : Host.Outcome State Fault Refusal :=
  s.issueSolo (soloMove g src (.trig trigQfmt))

/-- QINFO as a trigger: Returns handle, coordinate, team or scope information (R141). -/
def trigQinfo : Trigger := { quTrig 7 (fun env s v => s.qinfoAct env v) with results := fun _ => 1 }

/-- QINFO: the bundle that holds this move alone issues (R141). -/
def execQinfo (g : Guard) (src : Src) (s : State) : Host.Outcome State Fault Refusal :=
  s.issueSolo (soloMove g src (.trig trigQinfo))

end Sys2Proof.Machine
end

