-- ==== Sys2Proof/Machine/Copy.lean ====
section
/-!
DEFINITION. Copy engines, part one (13): records and shapes (R225-R231), what an engine reads and writes, cv = 1 tiles (R231, R241,
R242), samples (R285) and barrier objects (R238-R240).
-/

namespace Sys2Proof.Machine

/-! ## Transfer records (R225) -/

def recNext (r : BitVec 512) : BitVec 48 := r.extractLsb' 464 48
def recBar (r : BitVec 512) : Nat := (r.extractLsb' 416 48).toNat
def recSobj (r : BitVec 512) : Nat := (r.extractLsb' 368 48).toNat
def recSslot (r : BitVec 512) : Nat := (r.extractLsb' 360 8).toNat
def recDslot (r : BitVec 512) : Nat := (r.extractLsb' 352 8).toNat
def recGrp (r : BitVec 512) : Nat := (r.extractLsb' 342 10).toNat
def recGop (r : BitVec 512) : Nat := (r.extractLsb' 339 3).toNat
def recGen1 (r : BitVec 512) : BitVec 8 := r.extractLsb' 256 8
def recSrc (r : BitVec 512) : Nat := (r.extractLsb' 208 48).toNat
def recDst (r : BitVec 512) : Nat := (r.extractLsb' 160 48).toNat
def recSshape (r : BitVec 512) : Nat := (r.extractLsb' 112 48).toNat
def recDshape (r : BitVec 512) : Nat := (r.extractLsb' 64 48).toNat
def recLen (r : BitVec 512) : Nat := (r.extractLsb' 32 32).toNat
def recScope (r : BitVec 512) : Nat := Nat.min (r.extractLsb' 29 3).toNat 6
def recAcq (r : BitVec 512) : Bool := r.getLsbD 28
def recRel (r : BitVec 512) : Bool := r.getLsbD 27
def recArr (r : BitVec 512) : Bool := r.getLsbD 26
def recRpt (r : BitVec 512) : Bool := r.getLsbD 25
def recTok (r : BitVec 512) : Nat := (r.extractLsb' 22 3).toNat
def recTv (r : BitVec 512) : Bool := r.getLsbD 21
def recSkind (r : BitVec 512) : Nat := (r.extractLsb' 18 3).toNat
def recDkind (r : BitVec 512) : Nat := (r.extractLsb' 15 3).toNat
def recSo (r : BitVec 512) : Bool := r.getLsbD 9
def recOwn (r : BitVec 512) : Bool := r.getLsbD 8
def recGen0 (r : BitVec 512) : BitVec 8 := r.extractLsb' 0 8

/-- A 64-byte aligned address as a record names it. -/
def align64 (a : Nat) : Nat := a / 64 * 64

/-! ## Shapes (R227-R231) -/

/-- One side of a copy: a shape record, or the flat side's dense row (R230). -/
structure Shape where
  /-- extents of dimensions 0 to 4, and strides of dimensions 1 to 4 -/
  exts : List Nat
  strides : List Int
  fmt : FmtCode
  bs : Bool := false
  bsz : BitVec 2 := 0
  cv : Bool := false
  tw : Bool := false
  cid : Nat := 0
  scales : Nat := 0
  stamps : Nat := 0
deriving DecidableEq, Repr

/-- A shape record's number of dimensions. -/
def shapeDims (b : BitVec 512) : Nat := (b.extractLsb' 24 3).toNat

/-- A shape record: what lies at or above ndim is taken as 1 and 0 (R228). -/
def Shape.of (b : BitVec 512) : Shape :=
  let n := shapeDims b
  { exts := [(b.extractLsb' 96 24).toNat, (b.extractLsb' 120 24).toNat, (b.extractLsb' 144 24).toNat, (b.extractLsb' 168 24).toNat,
      (b.extractLsb' 192 24).toNat].zipIdx.map fun e => if e.2 < n then e.1 else 1
    strides := [(b.extractLsb' 216 40 : BitVec 40).toInt, (b.extractLsb' 296 40 : BitVec 40).toInt,
      (b.extractLsb' 336 40 : BitVec 40).toInt, (b.extractLsb' 376 40 : BitVec 40).toInt].zipIdx.map fun e =>
        if e.2 + 1 < n then e.1 else 0
    fmt := b.extractLsb' 15 7
    bs := b.getLsbD 14
    bsz := b.extractLsb' 22 2
    cv := b.getLsbD 27
    tw := b.getLsbD 13
    cid := (b.extractLsb' 28 12).toNat
    scales := (b.extractLsb' 416 48).toNat
    stamps := (b.extractLsb' 464 48).toNat }

/-- A flat side of n elements (R230). -/
def Shape.flat (n : Nat) (f : FmtCode) : Shape := { exts := [n, 1, 1, 1, 1], strides := [0, 0, 0, 0], fmt := f }

/-- The extent of dimension 0, and the rows: one flat row for an extent of 0. -/
def Shape.ext0 (s : Shape) : Nat := s.exts.headD 1
def Shape.rows (s : Shape) : Nat := (s.exts.drop 1).foldl (· * ·) 1

/-- The number of elements (R229). -/
def Shape.count (s : Shape) : Nat := s.ext0 * s.rows

/-- Strides are the row-major sizes at 1 byte an element (R231). -/
def Shape.dense (s : Shape) (ndim : Nat) : Bool :=
  (List.range 4).all fun d => ndim ≤ d + 1
    || s.strides.getD d 0 = (((s.exts.take (d + 1)).foldl (· * ·) 1 : Nat) : Int)

/-- A shape record is valid (R228). -/
def shapeValid (b : BitVec 512) : Bool :=
  let n := shapeDims b
  let s := Shape.of b
  recGen0 b = recGen1 b && 1 ≤ n && n ≤ 5 && fmtAssigned s.fmt && s.fmt != fmtF64 && s.fmt != fmtSc8
    && (!s.bs || fmtBlockElem s.fmt) && (!s.cv || (s.dense n && s.ext0 % 128 = 0))

/-- Element width in bits, block size, blocks of a row, and bytes of a row with its partial final byte (R229). -/
def Shape.width (s : Shape) : Nat := fmtWidth s.fmt
def Shape.block (s : Shape) : Nat := blockSize s.bsz
def Shape.rowBlocks (s : Shape) : Nat := (s.ext0 + s.block - 1) / s.block
def Shape.rowBytes (s : Shape) : Nat := (s.ext0 * s.width + 7) / 8

/-- The first byte of row r (R229). -/
def Shape.rowBase (s : Shape) (base : Int) (r : Nat) : Int :=
  let e : Nat → Nat := fun d => s.exts.getD d 1
  let i1 := r % e 1
  let i2 := r / e 1 % e 2
  let i3 := r / e 1 / e 2 % e 3
  let i4 := r / e 1 / e 2 / e 3 % e 4
  base + s.strides.getD 0 0 * i1 + s.strides.getD 1 0 * i2 + s.strides.getD 2 0 * i3 + s.strides.getD 3 0 * i4

/-- Codes of w bits packed from bit 0 of the first byte, a partial final byte zero-filled (R72). -/
def packCodes (w : Nat) (cs : List Nat) : List Byte :=
  let n := (cs.foldr (fun (c : Nat) (acc : Nat) => acc * 2 ^ w + c % 2 ^ w) 0)
  natBytes ((cs.length * w + 7) / 8) n

/-- Code number i of w bits among packed bytes (R72). -/
def codeAt (w : Nat) (bs : List Byte) (i : Nat) : Nat :=
  if 8 ≤ w then bytesNat ((bs.drop (i * (w / 8))).take (w / 8)) else (bs.getD (i * w / 8) 0).toNat / 2 ^ (i * w % 8) % 2 ^ w

/-! ## Blocks and tiles -/

/-- An element as it is delivered (R230): a code of an unscaled format; a code of a block of n elements, which block, and its scale; or an
exact value. -/
inductive Elem where
  | plain (f : FmtCode) (c : Nat)
  | scaled (f : FmtCode) (n blk c scale : Nat)
  | val (x : XR)

/-- The exact value of an element. -/
def Elem.exact : Elem → XR
  | .plain f c => fmtDecode f c
  | .scaled f _ _ c s => scaleBy (fmtDecode f c) s
  | .val x => x

/-- An element in an unscaled format (R230): its code as it stands where the formats do not differ; and whether a NaN or infinity was
produced. -/
def Elem.into (dst : FmtCode) (e : Elem) : Nat × Bool :=
  let round : Nat × Bool := let r := roundFmt dst 0 0 e.exact.toRV; (r.bits, r.nfs && fmtIsFp dst)
  match e with
  | .plain f c =>
    if f = dst then (c, false)
    else
      let r := conv c f dst 0 0
      (r.bits, r.nfs && fmtIsFp dst)
  | _ => round

/-- The code of an element of a given block of a source in a format and block size. -/
def Elem.codeIn (f : FmtCode) (n blk : Nat) : Elem → Option Nat
  | .scaled g m b c _ => if g = f && m = n && b = blk then some c else none
  | _ => none

/-- Elements that are all of one block of a source in the destination's own format and block size are not converted (R230): their codes and
their scale. -/
def rawBlock (f : FmtCode) (n : Nat) (es : List Elem) : Option (List Nat × Nat) :=
  match es with
  | .scaled _ _ blk _ s :: _ =>
    let cs := es.filterMap (Elem.codeIn f n blk)
    if cs.length = es.length then some (cs, s) else none
  | _ => none

/-- A block of elements in a format and block size (R82, R230): codes, scale, and whether a NaN or infinity was produced. -/
def blockOf (f : FmtCode) (n : Nat) (es : List Elem) : List Nat × Nat × Bool :=
  match rawBlock f n es with
  | some (cs, s) => (cs, s, false)
  | none =>
    let k := encodeBlock (es.map Elem.exact) f 0 0
    (k.codes, k.scale, k.nfs && fmtIsFp f)

/-- Elements in blocks of b: the codes, the scales, and whether a NaN or infinity was produced. -/
def encodeRun (fmt : FmtCode) (b : Nat) : Nat → List Elem → List Nat × List Nat × Bool
  | 0, _ => ([], [], false)
  | n + 1, es =>
    match es with
    | [] => ([], [], false)
    | _ =>
      let (cs, s, f) := blockOf fmt b (es.take b)
      let (cs', ss, f') := encodeRun fmt b n (es.drop b)
      (cs ++ cs', s :: ss, f || f')

/-- Elements under a format that may or may not be block-scaled (R231): blocks by R82, a format that R81 does not allow element by element. -/
def encodeSide (fmt : FmtCode) (b : Nat) (es : List Elem) : List Nat × List Nat × Bool :=
  if fmtBlockElem fmt then encodeRun fmt b es.length es
  else
    let rs := es.map (Elem.into fmt)
    (rs.map (·.1), [], rs.any (·.2))

/-! ## What an engine reads and writes (R234, R243) -/

/-- What an engine needs to translate an address: the core, the table and the launch of its worker; and the number under which what it writes in
the CXL tier goes on to the expander, where that is waited for (R204). -/
structure View where
  c : Nat
  wins : List Window
  launch : Nat
  tier : Option Nat := none

/-- Where a byte lies for an engine, or the failure of the access (R243): no window and no permission are one. -/
def State.engineAt (s : State) (v : View) (a : Int) (need : Need) : Except Cause Nat :=
  match lookupSpan v.wins v.launch s.mod v.c a a need with
  | some _ => .error .window
  | none => s.place (Machine.locate v.wins v.launch s.mod v.c a)

/-- A byte as an engine reads it at its scope-5 point (R204). -/
def State.engineByte (s : State) (v : View) (a : Int) : Except Cause Byte :=
  match s.engineAt v a .read with
  | .ok pa => .ok (memGet s.mem pa)
  | .error k => .error k

/-- A byte that has been read before, or else as it stands. -/
def State.seenByte (s : State) (v : View) (seen : List (Int × Byte)) (a : Int) : Except Cause Byte :=
  match seen.lookup a with
  | some b => .ok b
  | none => s.engineByte v a

/-- Results in order, or the first failure. -/
def collect {α : Type} : List (Except Cause α) → Except Cause (List α)
  | [] => .ok []
  | .error k :: _ => .error k
  | .ok x :: l => (collect l).map fun xs => x :: xs

/-- Bytes read in order; the first failure is reported. -/
def State.engineBytes (s : State) (v : View) (l : List Int) : Except Cause (List Byte) := collect (l.map fun a => s.engineByte v a)

/-- The addresses of n bytes. -/
def spanOf (a : Int) (n : Nat) : List Int := (List.range n).map fun (j : Nat) => a + (j : Int)

/-- Bytes placed by an engine: none where one of them fails. -/
def State.enginePlace (s : State) (v : View) (cells : List (Int × Byte)) : Except Cause (List (Nat × Byte)) :=
  collect (cells.map fun p => (s.engineAt v p.1 .write).map fun pa => (pa, p.2))

/-- Bytes that an engine writes in the CXL tier go on to the expander (R204): they stand there under number 5, no context's, and the number of the
command or call. -/
def State.tierWrite (s : State) (die c id : Nat) (cells : List (Nat × Byte)) : State :=
  s.updDie die fun d => { d with exp := d.exp ++ [{ core := c, ctx := 5, seq := id, id := d.wtNext, cells := cells }], wtNext := d.wtNext + 1 }

/-- What an engine has written in the CXL tier is on its way to the expander, where that is waited for. -/
def State.viewTier (s : State) (v : View) (cells : List (Nat × Byte)) : State :=
  match v.tier with
  | some id => if cells.any fun p => paRegion p.1 = 2 then s.tierWrite (dieOf v.c) v.c id cells else s
  | none => s

/-- An engine writes bytes that have been placed. -/
def State.viewPut (s : State) (v : View) (cells : List (Nat × Byte)) : State := (s.enginePut (dieOf v.c) cells).viewTier v cells

/-- Starts the fills that an engine's accesses ask for (R196, R243). -/
def State.engineFill (s : State) (v : View) (l : List Int) : State :=
  l.foldl (fun s a =>
    match Machine.locate v.wins v.launch s.mod v.c a with
    | some k => (match s.place (some k) with | .error .resid => s.startFill (dieOf v.c) k | _ => s)
    | none => s) s

/-! ## cv = 1 tiles (R231, R241, R242) -/

/-- The stamp's fields (R241). -/
def stampVer (n : Nat) : Nat := n / 2 ^ 16 % 2 ^ 16
def stampBusy (n : Nat) : Bool := n.testBit 15
def stampBsz (n : Nat) : BitVec 2 := BitVec.ofNat 2 (n / 2 ^ 7)
def stampFmt (n : Nat) : FmtCode := BitVec.ofNat 7 n

/-- A Compass word's fields (R282). -/
def entVer (w : Word) : BitVec 32 := w.extractLsb' 32 32
def entValid (w : Word) : Bool := w.getLsbD 30
def entLadder (w : Word) : Nat := (w.extractLsb' 27 3).toNat
def entPos (w : Word) : Nat := (w.extractLsb' 25 2).toNat
def entSs (w : Word) : Nat := (w.extractLsb' 18 3).toNat
def entBsz (w : Word) : BitVec 2 := w.extractLsb' 7 2
def entFmt (w : Word) : FmtCode := w.extractLsb' 0 7

/-- The stamp a tile written under an entry takes. -/
def entStamp (w : Word) : Nat := (entVer w).toNat % 2 ^ 16 * 2 ^ 16 + (entBsz w).toNat * 2 ^ 7 + (entFmt w).toNat

/-- The regions of tile k (R231). -/
def Shape.tileBase (s : Shape) (base : Int) (k : Nat) : Int := base + (((if s.tw then 16384 else 8192) * k : Nat) : Int)
def Shape.tileScale (s : Shape) (k : Nat) : Int := ((s.scales + 512 * k : Nat) : Int)
def Shape.tileStamp (s : Shape) (k : Nat) : Int := ((s.stamps + 4 * k : Nat) : Int)

/-- Elements of tile k. -/
def Shape.tileCount (s : Shape) (k : Nat) : Nat := Nat.min 8192 (s.count - 8192 * k)

/-- The stamp of a tile as read at its home. -/
def State.tileStamp (s : State) (v : View) (sh : Shape) (k : Nat) : Except Cause Nat :=
  match s.engineBytes v (spanOf (sh.tileStamp k) 4) with
  | .ok bs => .ok (bytesNat bs)
  | .error e => .error e

/-- What is to be done with a tile before it is delivered under an entry (R242). -/
inductive TileDue where
  | wait
  | deliver (stamp : Nat)
  | reencode (stamp : Nat)
  | fails (k : Cause)

/-- R242's choice. -/
def State.tileDue (s : State) (v : View) (sh : Shape) (ent : Word) (k : Nat) : TileDue :=
  match s.tileStamp v sh k with
  | .error e => .fails e
  | .ok st =>
    if stampBusy st then .wait
    else if stampVer st = (entVer ent).toNat % 2 ^ 16 then .deliver st
    else if (if sh.tw then 16 else 8) < fmtWidth (entFmt ent) then .deliver st
    else .reencode st

/-- Where element o of tile k lies under a stamp, and where its scale does. -/
def Shape.tileVa (sh : Shape) (base : Int) (st k o : Nat) : Int := sh.tileBase base k + ((o * fmtWidth (stampFmt st) / 8 : Nat) : Int)
def Shape.tileScaleVa (sh : Shape) (st k o : Nat) : Int := sh.tileScale k + ((o / blockSize (stampBsz st) : Nat) : Int)

/-- Element o of tile k under a stamp: its scale counts where R81 allows its format. seen are bytes that have been read before. -/
def State.tileElem (s : State) (v : View) (sh : Shape) (base : Int) (st k o : Nat) (seen : List (Int × Byte) := []) : Except Cause Elem :=
  let w := fmtWidth (stampFmt st)
  match collect ((spanOf (sh.tileVa base st k o) ((w + 7) / 8)).map fun a => s.seenByte v seen a) with
  | .error e => .error e
  | .ok bs =>
    let code := if 8 ≤ w then bytesNat bs else bytesNat bs / 2 ^ (o * w % 8) % 2 ^ w
    if fmtBlockElem (stampFmt st) then
      match s.seenByte v seen (sh.tileScaleVa st k o) with
      | .error e => .error e
      | .ok b =>
        let n := blockSize (stampBsz st)
        .ok (.scaled (stampFmt st) n (8192 * k + o / n) code b.toNat)
    else .ok (.plain (stampFmt st) code)

/-- Every value of tile k under a stamp. -/
def State.tileVals (s : State) (v : View) (sh : Shape) (base : Int) (st k : Nat) (seen : List (Int × Byte) := []) : Except Cause (List XR) :=
  collect ((List.range (sh.tileCount k)).map fun o => (s.tileElem v sh base st k o seen).map Elem.exact)

/-- The bytes of tile k under a stamp: those of its elements, then of its scales. -/
def Shape.tileSpan (sh : Shape) (base : Int) (st k : Nat) : List Int :=
  let n := sh.tileCount k
  let b := blockSize (stampBsz st)
  spanOf (sh.tileBase base k) ((n * fmtWidth (stampFmt st) + 7) / 8)
    ++ if fmtBlockElem (stampFmt st) then spanOf (sh.tileScale k) ((n + b - 1) / b) else []

/-- The bytes of a tile of elements under an entry: elements, scales and whether a NaN or infinity was produced. -/
def tileBytes (ent : Word) (es : List Elem) : List Byte × List Byte × Bool :=
  let (cs, ss, f) := encodeSide (entFmt ent) (blockSize (entBsz ent)) es
  (packCodes (fmtWidth (entFmt ent)) cs, ss.map fun e => BitVec.ofNat 8 e, f)

/-- Bytes placed from an address on. -/
def cellsAt (a : Int) (bs : List Byte) : List (Int × Byte) := bs.zipIdx.map fun (p : Byte × Nat) => (a + (p.2 : Int), p.1)

/-- Bytes in ascending order, split into the runs of one aligned sector (R234). -/
def sectorRuns {α : Type} (sec : α → Int) : List (α × Byte) → List (List (α × Byte))
  | [] => []
  | p :: l =>
    match sectorRuns sec l with
    | (q :: qs) :: rs => if sec p.1 = sec q.1 then (p :: q :: qs) :: rs else [p] :: (q :: qs) :: rs
    | rs => [p] :: rs

/-- The sector of an address. -/
def sectorAt (a : Int) : Int := a / 32

/-- The writes of tile k of some elements under an entry, in pieces: elements and scales (R234, R242). -/
def Shape.tilePieces (sh : Shape) (base : Int) (k : Nat) (es ss : List Byte) : List (List (Int × Byte)) :=
  sectorRuns sectorAt (cellsAt (sh.tileBase base k) es) ++ sectorRuns sectorAt (cellsAt (sh.tileScale k) ss)

/-- The compare-and-swap that sets a tile's stamp busy (R242). -/
def State.setBusy (s : State) (v : View) (sh : Shape) (k st : Nat) : Except Cause State :=
  (s.enginePlace v (cellsAt (sh.tileStamp k) (natBytes 4 (st ||| 2 ^ 15)))).map fun cells => s.viewPut v cells

/-- A tile's stamp is written. -/
def State.putStamp (s : State) (v : View) (sh : Shape) (k st : Nat) : Except Cause State :=
  (s.enginePlace v (cellsAt (sh.tileStamp k) (natBytes 4 st))).map fun cells => s.viewPut v cells

/-- What an act of the work on a busy tile comes to: it goes on, having written some bytes; it is over; or an access of it fails. -/
inductive WorkRes where
  | next (s : State) (w : TileWork) (n : Nat)
  | done (s : State) (nf : Bool)
  | fails (k : Cause)

/-- The sector of byte i of a tile that is to be re-encoded is read (R234). -/
def State.tileRead (s : State) (v : View) (sh : Shape) (base : Int) (w : TileWork) (i : Nat) : WorkRes :=
  let all := sh.tileSpan base w.stamp w.tile
  match all[i % all.length]? with
  | none => .next s w 0
  | some a =>
    let l := all.filter fun p => sectorAt p = sectorAt a && (w.seen.lookup p).isNone
    match s.engineBytes v l with
    | .error e => .fails e
    | .ok bs => .next s { w with seen := w.seen ++ l.zip bs } 0

/-- An act of the work on a busy tile (R242): a tile of a source is read, by sectors in any order, and, for i = 0, encoded by R82 under the entry;
then its pieces are written, in any order; then its stamp, with busy clear. -/
def State.tileAct (s : State) (v : View) (sh : Shape) (base : Int) (ent : Word) (w : TileWork) (i : Nat) : WorkRes :=
  if !w.formed then
    if i != 0 then s.tileRead v sh base w (i - 1)
    else
      match s.tileVals v sh base w.stamp w.tile w.seen with
      | .error e => .fails e
      | .ok xs =>
        let (es, ss, f) := tileBytes ent (xs.map Elem.val)
        .next s { w with formed := true, out := sh.tilePieces base w.tile es ss, nf := f, seen := [] } 0
  else
    match w.out[i % w.out.length]? with
    | some p =>
      match s.enginePlace v p with
      | .error e => .fails e
      | .ok cells =>
        .next (s.viewPut v cells) { w with out := w.out.eraseIdx (i % w.out.length), wrote := true } p.length
    | none =>
      match s.putStamp v sh w.tile (entStamp ent) with
      | .error e => .fails e
      | .ok s => .done s w.nf

/-- A re-encoding of tile k that a fault leaves undone on the firmware path: its stamp stays, and what it could write, its elements and
scales, is unspecified from then on (R242, log 5): free values. -/
def State.scribbleTile (s : State) (v : View) (sh : Shape) (base : Int) (ent : Word) (k : Nat) : State :=
  let n := sh.tileCount k
  let b := blockSize (entBsz ent)
  let scales := if fmtBlockElem (entFmt ent) then (n + b - 1) / b else 0
  let vas := spanOf (sh.tileBase base k) ((n * fmtWidth (entFmt ent) + 7) / 8) ++ spanOf (sh.tileScale k) scales
  let s' := vas.zipIdx.foldl (fun (r : State) (p : Int × Nat) =>
    match r.enginePlace v [(p.1, Config.freeByte (s.freeCtr + p.2))] with
    | .ok cells => r.viewPut v cells
    | .error _ => r) s
  { s' with freeCtr := s.freeCtr + vas.length }

/-- A re-encoding that a fault leaves undone (R242): the stamp that was read is written back, with busy clear; where some of its writes were
performed, the tile's contents are unspecified. -/
def State.giveUpTile (s : State) (v : View) (sh : Shape) (base : Int) (ent : Word) (w : TileWork) : State :=
  let s := match s.putStamp v sh w.tile w.stamp with | .ok s => s | .error _ => s
  if w.wrote then s.scribbleTile v sh base ent w.tile else s

/-! ## Samples (R285) -/

/-- The sum of exact values. -/
def sumXR (l : List XR) : XR := l.foldl XR.add (.fin false 0 0)

/-- A value encoded under a format and decoded again (R285 step 3): a block by R82, else element by element. -/
def recode (fmt : FmtCode) (xs : List XR) : List XR :=
  if fmtBlockElem fmt then
    let k := encodeBlock xs fmt 0 0
    k.codes.map fun c => scaleBy (fmtDecode fmt c) k.scale
  else xs.map fun x => fmtDecode fmt (roundFmt fmt 0 0 x.toRV).bits

/-- The squared error of a format on a block. -/
def sqErr (fmt : FmtCode) (xs : List XR) : XR :=
  sumXR ((xs.zip (recode fmt xs)).map fun p => let d := p.1.sub p.2; d.mul d)

/-- The reset contents of a ladder register (R283). -/
def ladderReset (l : Nat) : Word :=
  let mk : Nat → Nat → Nat → Nat → Nat → Word := fun n a b c d =>
    BitVec.ofNat 64 (n * 2 ^ 28 + d * 2 ^ 21 + c * 2 ^ 14 + b * 2 ^ 7 + a)
  match l with
  | 1 => mk 2 0x02 0x44 0x63 0
  | 2 => mk 1 0x02 0x43 0 0
  | 3 => mk 1 0x02 0x45 0 0
  | _ => mk 3 0x02 0x45 0x63 0x62

/-- A ladder register (R283). -/
def State.ladder (s : State) (l : Nat) : Word := tget (ladderReset l) s.ladders l

/-- The last position of a ladder, and its format at a position. -/
def ladLast (w : Word) : Nat := (w.extractLsb' 28 2).toNat
def ladFmt (w : Word) (p : Nat) : FmtCode := w.extractLsb' (7 * (p % 4)) 7

/-- What a block of exact values contributes under an entry: none for a block that is skipped (R285). -/
def sampleOf (ent lad : Word) (xs : List XR) : Option Sample :=
  if xs.any (fun x => !x.isFin) || xs.all XR.isZero then none
  else
    let sq := sumXR (xs.map fun x => x.mul x)
    some { q := sq
           ec := sqErr (entFmt ent) xs
           en := if entPos ent < ladLast lad then some (sqErr (ladFmt lad (entPos ent + 1)) xs) else none
           mx := xs.foldl (fun m x => if m.lt x.abs then x.abs else m) (.fin false 0 0)
           b := if fmtBlockElem (entFmt ent) then some (blockSize (entBsz ent)) else none }

/-! ## Barrier objects (R238, R240) -/

/-- The 32 bytes of an object as one number, and their fields. -/
def barPhase (n : Nat) : Bool := n.testBit 0
def barParr (n : Nat) : Nat := n / 2 ^ 32 % 2 ^ 16
def barExpected (n : Nat) : Nat := n / 2 ^ 48 % 2 ^ 16
def barBytes (n : Nat) : Nat := n / 2 ^ 128 % 2 ^ 48

/-- An object with given fields: reserved bits read as zero. -/
def barMake (phase xa err : Bool) (parr expected bytes : Nat) : Nat :=
  phase.toNat + xa.toNat * 2 + err.toNat * 4 + parr % 2 ^ 16 * 2 ^ 32 + expected % 2 ^ 16 * 2 ^ 48 + bytes % 2 ^ 48 * 2 ^ 128

/-- One update of an object (R239, R240). -/
def barUpdate (n : Nat) : BarOp → Nat
  | .init k => let k := if k = 0 then 1 else k; barMake false false false k k 0
  | .bytes d =>
    barMake (barPhase n) (n.testBit 1) (n.testBit 2) (barParr n) (barExpected n) (((barBytes n : Int) + d) % 2 ^ 48).toNat
  | .arrive =>
    if 0 < barParr n then barMake (barPhase n) (n.testBit 1) (n.testBit 2) (barParr n - 1) (barExpected n) (barBytes n)
    else barMake (barPhase n) true (n.testBit 2) 0 (barExpected n) (barBytes n)
  | .err => barMake (barPhase n) (n.testBit 1) true (barParr n) (barExpected n) (barBytes n)

/-- The check after a cycle's updates (R240). -/
def barCheck (n : Nat) : Nat :=
  if barParr n = 0 && barBytes n = 0 then
    barMake (!barPhase n) (n.testBit 1) (n.testBit 2) (barExpected n) (barExpected n) 0
  else n

/-- The 32 bytes at an object's home. -/
def State.barAt (s : State) (pa : Nat) : Nat := memNat s.mem pa 32

/-- The launches of the contexts that wait in bwait on an object for a phase of other than a parity (R174, R239). -/
def State.bwaiters (s : State) (pa : Nat) (parity : Bool) : List Nat :=
  s.cores.flatMap fun p => p.2.ctxs.toList.filterMap fun t =>
    if t.awaiting.any fun a => a.code = 0x2C7 && a.t.getLsbD 0 = parity && (s.locate p.1 t (a.a.toNat : Int)).bind s.resolve = some pa
    then some t.launch else none

/-- The updates of a cycle at one object, then its check (R240): no remote-data cache keeps a copy of it (R238). An advance of its phase is progress of those that wait for it (R174). -/
def State.endBarrier (s : State) (pa : Nat) : State :=
  let old := s.barAt pa
  let n := barCheck ((s.barNow.filter fun p => p.1 = pa).foldl (fun n p => barUpdate n p.2) old)
  let go := if barPhase n = barPhase old then [] else s.bwaiters pa (barPhase old)
  let s := (go.foldl State.progress s).homePut (eccDie pa) pa 32 n
  { s with dies := s.dies.map fun d => (d.1, d.2.dropSectors [pa]) }

/-- The end of a cycle at the homes of barrier objects: the cycle's updates in the order they arrived, then one check of each object
(R240). -/
def State.endBarriers (s : State) : State :=
  let pas := s.barNow.foldl (fun (l : List Nat) p => if l.contains p.1 then l else l ++ [p.1]) []
  pas.foldl (fun s pa => s.endBarrier pa) s |> fun s => { s with barNow := [] }

/-- An update joins those of the current cycle. -/
def State.barPost (s : State) (pa : Nat) (o : BarOp) : State := { s with barNow := s.barNow ++ [(pa, o)] }

/-- The home rule of R224: a window that targets HBM of the own module or the scratch of a core on the own die. -/
def Window.barHome (w : Window) (mod c : Nat) : Bool :=
  if w.paged then false
  else w.place = 2 || w.place = 1
    || (paMod w.targetPa = mod && (paRegion w.targetPa = 0 || (paRegion w.targetPa = 1 && (w.isSelf || paCore w.targetPa / 128 = dieOf c))))

/-- The lookup of a barrier object (R224). -/
def State.barLookup (s : State) (v : View) (a : Nat) : Option Mark :=
  match findWindow v.wins ((a : Nat) : Int) with
  | none => some { cause := .window, addr := a }
  | some w =>
    if !w.holds ((a + 31 : Nat) : Int) then some { cause := .window, addr := addr48 ((w.base : Int) + w.size) }
    else if !(w.r && w.w) || !w.barHome s.mod v.c then some { cause := .perm, addr := a }
    else none

/-- The address of an object (R224). -/
def barAddr (env : Env) : Nat := env.lat.ceO.toNat % 2 ^ 48 / 32 * 32

/-- The view of a context. -/
def Ctx.view (t : Ctx) (c : Nat) : View := { c := c, wins := t.wins, launch := t.launch }

end Sys2Proof.Machine
end

