-- ==== Sys2Proof/Machine/CopyRun.lean ====
section
/-!
DEFINITION. Copy engines, part two (13): the steps of a command (R226, R232-R235, R243, R244), channels (R233), and the group
destinations of R384 to R387.
-/

namespace Sys2Proof.Machine

/-! ## Commands -/

/-- Changes a command of a core, by its number. -/
def Core.updCmd (k : Core) (id : Nat) (f : CopyCmd → CopyCmd) : Core := { k with cmds := k.cmds.map fun m => if m.id = id then f m else m }

/-- Changes a command of a core. -/
def State.updCmd (s : State) (c id : Nat) (f : CopyCmd → CopyCmd) : State := s.updCore c fun k => k.updCmd id f

/-- Where a command's engine translates addresses: with a release of scope 6 it waits for the expander to have what it writes in the CXL tier
(R204, R216, R234 step 3). -/
def CopyCmd.view (m : CopyCmd) (c : Nat) : View :=
  { c := c, wins := m.wins, launch := m.launch, tier := if recRel m.rcd && recScope m.rcd = 6 then some m.id else none }

/-- The core that holds a command, by its number. -/
def State.cmdCore (s : State) (id : Nat) : Option (Nat × CopyCmd) :=
  s.cores.findSome? fun p => (p.2.cmds.find? fun m => m.id = id).map fun m => (p.1, m)

/-- Where what there is of a worker stands: the contexts that hold it, what it left behind when it ended (R140), and its image (R352). -/
def State.traces (s : State) (uid : Nat) : List (Nat × Ctx) :=
  (s.cores.flatMap fun p => (p.2.ctxs.toList ++ p.2.ghosts).filterMap fun t => if t.isWorker uid then some (p.1, t) else none)
    ++ s.images.filterMap fun i => i.saved.bind fun t => if i.uid = uid then some (i.core, t) else none

/-- Every access that a worker triggered before a place is performed at a scope (R216), for an engine of core c: its own, and the
write-throughs of its die, which outlive its context. -/
def State.ownerDone (s : State) (c uid seq scope : Nat) : Bool :=
  scope = 0 || ((s.traces uid).all fun p => p.2.loadsDone seq && s.storesDoneBy p.1 p.2 seq scope)
    && (scope < 4 || !s.unacked c uid 0 seq scope)

/-- Every store of a worker before a place is performed at a scope, for an engine of core c. -/
def State.ownerStored (s : State) (c uid seq scope : Nat) : Bool :=
  ((s.traces uid).all fun p => s.storesDoneBy p.1 p.2 seq scope) && (scope < 4 || !s.unacked c uid 0 seq scope)

/-- A store of the issuing worker that precedes a place has some bytes still to perform at scope 5 (R235): it waits in the SAQ, is on its way, or is
in its die's remote-data cache and not home. -/
def State.ownerStores (s : State) (c uid seq : Nat) (v : View) (l : List Int) : Bool :=
  let at' := l.map fun a => Machine.locate v.wins v.launch s.mod c a
  let pas := at'.filterMap fun k => k.bind s.resolve
  ((s.traces uid).any fun p => at'.any fun k => s.storeBefore p.1 p.2 seq k)
    || s.dies.any fun d => d.2.wt.any fun w => w.uid = uid && w.seq < seq && w.cells.any fun p => pas.contains p.1

/-! ## The sides of a command (R229, R230) -/

/-- The source's and the destination's shapes. -/
def CopyCmd.sides (m : CopyCmd) : Shape × Shape :=
  let a := Shape.of m.srcShape
  let b := Shape.of m.dstShape
  match m.srcShape == 0, m.dstShape == 0 with
  | true, true => (Shape.flat (recLen m.rcd) 0x0D, Shape.flat (recLen m.rcd) 0x0D)
  | true, false => (Shape.flat b.count b.fmt, b)
  | false, true => (a, Shape.flat a.count a.fmt)
  | false, false => (a, b)

/-- The first byte of an NVMe side: LBAs count from the slot's first (R225, R401). -/
def State.lbaAddr (s : State) (slot lba : Nat) : Option Nat :=
  let b := tget 0 s.slots slot
  (s.chunkAddr slot 0).map fun a => a + lba * 2 ^ slotLbs b

/-- A byte of the source: one read ahead, else as it stands. -/
def State.srcByte (s : State) (c : Nat) (m : CopyCmd) (a : Int) : Except Cause Byte :=
  match m.seen.lookup a with
  | some b => .ok b
  | none =>
    if recSkind m.rcd = 1 then
      match s.lbaAddr (recSslot m.rcd) (recSrc m.rcd) with
      | some p => .ok (memGet s.nvmeMem (((p : Int) + a - (recSrc m.rcd : Int)).toNat))
      | none => .error .window
    else s.engineByte (m.view c) a

/-- Bytes of the source, in order. -/
def State.srcBytes (s : State) (c : Nat) (m : CopyCmd) (l : List Int) : Except Cause (List Byte) :=
  collect (l.map fun a => s.srcByte c m a)

/-- Where element n of a side that is not cv = 1 starts (R229). -/
def Shape.elemVa (sh : Shape) (base : Int) (n : Nat) : Int := sh.rowBase base (n / sh.ext0) + ((n % sh.ext0 * sh.width / 8 : Nat) : Int)

/-- The number of the block, and of the scale, of element n of such a side. -/
def Shape.elemBlock (sh : Shape) (n : Nat) : Nat := n / sh.ext0 * sh.rowBlocks + n % sh.ext0 / sh.block

/-- Element n of the source (R229-R231). -/
def State.srcElem (s : State) (c : Nat) (m : CopyCmd) (n : Nat) : Except Cause Elem :=
  let sh := m.sides.1
  let base := (recSrc m.rcd : Int)
  if sh.cv then
    match s.tileStamp (m.view c) sh (n / 8192) with
    | .error e => .error e
    | .ok st => s.tileElem (m.view c) sh base st (n / 8192) (n % 8192) m.seen
  else
    let w := sh.width
    match s.srcBytes c m (spanOf (sh.elemVa base n) ((w + 7) / 8)) with
    | .error e => .error e
    | .ok bs =>
      let code := if 8 ≤ w then bytesNat bs else bytesNat bs / 2 ^ (n % sh.ext0 * w % 8) % 2 ^ w
      if !sh.bs then .ok (.plain sh.fmt code)
      else
        match s.srcByte c m ((sh.scales + sh.elemBlock n : Nat) : Int) with
        | .error e => .error e
        | .ok b => .ok (.scaled sh.fmt sh.block (sh.elemBlock n) code b.toNat)

/-- The k-th byte of a source in memory that a read ahead can ask for: that of an element, then of a scale; of a tile, those of an element in turn,
once the tile is to be delivered as it stands. -/
def State.aheadVa (s : State) (c : Nat) (m : CopyCmd) (k : Nat) : Option Int :=
  let sh := m.sides.1
  if recSkind m.rcd = 1 then none
  else if sh.cv then
    let n := k / 2 % sh.count
    match s.tileDue (m.view c) sh m.centS (n / 8192) with
    | .deliver st =>
      if k % 2 = 0 then some (sh.tileVa (recSrc m.rcd) st (n / 8192) (n % 8192))
      else if fmtBlockElem (stampFmt st) then some (sh.tileScaleVa st (n / 8192) (n % 8192)) else none
    | _ => none
  else if k < sh.count then some (sh.elemVa (recSrc m.rcd) k)
  else if sh.bs && k - sh.count < sh.rows * sh.rowBlocks then some ((sh.scales + (k - sh.count) : Nat) : Int)
  else none

/-! ## The units of a destination (R234, R243) -/

/-- How many units a destination has: bytes of rows, blocks, or tiles. -/
def Shape.units (sh : Shape) : Nat :=
  if sh.cv then (sh.count + 8191) / 8192
  else if sh.count = 0 then 0
  else if sh.bs then sh.rows * sh.rowBlocks
  else sh.rows * sh.rowBytes

/-- The elements that unit j depends on. -/
def Shape.unitElems (sh : Shape) (j : Nat) : List Nat :=
  if sh.cv then (List.range (sh.tileCount j)).map fun o => 8192 * j + o
  else if sh.bs then
    let r := j / sh.rowBlocks
    let b := j % sh.rowBlocks * sh.block
    (List.range (Nat.min sh.block (sh.ext0 - b))).map fun i => r * sh.ext0 + b + i
  else
    let r := j / sh.rowBytes
    let b := j % sh.rowBytes
    if 8 ≤ sh.width then [r * sh.ext0 + b / (sh.width / 8)]
    else
      let n := 8 / sh.width
      (List.range (Nat.min n (sh.ext0 - b * n))).map fun i => r * sh.ext0 + b * n + i

/-- The bytes of unit j's elements: where the first goes, and how many. -/
def Shape.unitSpan (sh : Shape) (base : Int) (ent : Word) (j : Nat) : Int × Nat :=
  if sh.cv then (sh.tileBase base j, (sh.tileCount j * fmtWidth (entFmt ent) + 7) / 8)
  else if sh.bs then
    let b := j % sh.rowBlocks * sh.block
    (sh.rowBase base (j / sh.rowBlocks) + ((b * sh.width / 8 : Nat) : Int), (Nat.min sh.block (sh.ext0 - b) * sh.width + 7) / 8)
  else (sh.rowBase base (j / sh.rowBytes) + ((j % sh.rowBytes : Nat) : Int), 1)

/-- The scale bytes of unit j. -/
def Shape.unitScales (sh : Shape) (ent : Word) (j : Nat) : Nat :=
  if sh.cv then (if fmtBlockElem (entFmt ent) then (sh.tileCount j + blockSize (entBsz ent) - 1) / blockSize (entBsz ent) else 0)
  else if sh.bs then 1 else 0

/-- The bytes that all units write, stamps apart. -/
def CopyCmd.totalBytes (m : CopyCmd) : Nat :=
  let sh := m.sides.2
  if !sh.cv && !sh.bs then sh.units
  else ((List.range sh.units).map fun j => (sh.unitSpan 0 m.centD j).2 + sh.unitScales m.centD j).sum

/-- Where byte i of an element span that starts at a goes. -/
def CopyCmd.dstAt (m : CopyCmd) (a : Int) : DstAt :=
  match recDkind m.rcd with
  | 1 => .nvme (a - (recDst m.rcd : Int)).toNat
  | 2 => .base a.toNat
  | _ => .va a

/-- Where the scales of unit j go: a group's at its offset / 64 (R383). -/
def CopyCmd.scaleAt (m : CopyCmd) (a : Int) (j : Nat) : DstAt :=
  let sh := m.sides.2
  if recDkind m.rcd = 2 then .scale (a.toNat / 64)
  else if sh.cv then .va (sh.tileScale j)
  else .va ((sh.scales + j : Nat) : Int)

/-- What a unit writes: the writes, and whether a NaN or infinity was produced. -/
abbrev UnitData := List (DstAt × Byte) × Bool

/-- The writes of unit j once its elements have been read. -/
def CopyCmd.unitWrites (m : CopyCmd) (j : Nat) (es : List Elem) : UnitData :=
  let sh := m.sides.2
  let a := (sh.unitSpan (recDst m.rcd) m.centD j).1
  let put : List Byte → List (DstAt × Byte) := fun bs => (cellsAt a bs).map fun p => (m.dstAt p.1, p.2)
  if sh.cv then
    let (bs, ss, f) := tileBytes m.centD es
    (put bs ++ ss.zipIdx.map (fun (p : Byte × Nat) => (match m.scaleAt a j with
        | .scale o => .scale (o + p.2)
        | .va x => .va (x + (p.2 : Int))
        | d => d, p.1)), f)
  else if sh.bs then
    let (cs, scale, f) := blockOf sh.fmt sh.block es
    (put (packCodes sh.width cs) ++ [(m.scaleAt a j, BitVec.ofNat 8 scale)], f)
  else
    let cs := es.map (Elem.into sh.fmt)
    let f := cs.any (·.2)
    if 8 ≤ sh.width then
      (put [BitVec.ofNat 8 ((cs.headD (0, false)).1 / 2 ^ (8 * (j % sh.rowBytes % (sh.width / 8))))], f)
    else (put (packCodes sh.width (cs.map (·.1))), f)

/-- The elements of a unit, read: none for one that cannot be, and the failures. -/
def State.unitRead (s : State) (c : Nat) (m : CopyCmd) (j : Nat) : List (Option Elem) × List Cause :=
  let rs := (m.sides.2.unitElems j).map fun n => s.srcElem c m n
  (rs.map Except.toOption, rs.filterMap fun r => match r with | .error k => some k | .ok _ => none)

/-- A byte of the destination as it stands. -/
def State.dstByte (s : State) (c : Nat) (m : CopyCmd) : DstAt → Byte
  | .va a => (match s.engineAt (m.view c) a .write with | .ok pa => memGet s.mem pa | .error _ => 0)
  | .nvme o => (match s.lbaAddr (recDslot m.rcd) (recDst m.rcd) with | some a => memGet s.nvmeMem (a + o) | none => 0)
  | _ => 0

/-- The bits of a byte whose elements, of w bits, have been read. -/
def readBits (w : Nat) (es : List (Option Elem)) : Byte :=
  es.zipIdx.foldl (fun (b : Byte) e => if e.1.isSome then b else b &&& ~~~(BitVec.ofNat 8 ((2 ^ w - 1) * 2 ^ (e.2 * w)))) 0xFF

/-- The writes of a unit some of whose elements could not be read (R243): of a byte of an unscaled destination, those of the elements that
could be; of a block, a tile or a unit of a group, none. -/
def State.partWrites (s : State) (c : Nat) (m : CopyCmd) (j : Nat) (es : List (Option Elem)) : UnitData :=
  let sh := m.sides.2
  if sh.cv || sh.bs || 8 ≤ sh.width || recDkind m.rcd = 2 || es.all Option.isNone then ([], false)
  else
    let (ws, f) := m.unitWrites j (es.map fun e => e.getD (.plain sh.fmt 0))
    let keep := readBits sh.width es
    (ws.map fun p => (p.1, (p.2 &&& keep) ||| (s.dstByte c m p.1 &&& ~~~keep)), f)

/-- The units of the piece that the k-th unit still to be written belongs to: a sector's bytes of one row, or the block or tile. A
group destination's piece is a sector of its offsets, whatever rows it takes in (R384-R386). -/
def CopyCmd.piece (m : CopyCmd) (k : Nat) : List Nat :=
  let sh := m.sides.2
  match m.todo[k % m.todo.length]? with
  | none => []
  | some j =>
    if sh.cv || sh.bs then [j]
    else
      let at_ : Nat → Int := fun i => (sh.unitSpan (recDst m.rcd) 0 i).1
      m.todo.filter fun i => (recDkind m.rcd = 2 || i / sh.rowBytes = j / sh.rowBytes) && at_ i / 32 = at_ j / 32

/-- A unit that comes earlier and writes a byte of the piece too is still to be written: of two elements that overlap, the later one
remains (R234). -/
def CopyCmd.overtakes (m : CopyCmd) (ps : List Nat) : Bool :=
  let sh := m.sides.2
  let span : Nat → Int × Nat := fun j => sh.unitSpan (recDst m.rcd) m.centD j
  m.todo.any fun j => !ps.contains j && ps.any fun i => j < i &&
    (span j).1 < (span i).1 + ((span i).2 : Int) && (span i).1 < (span j).1 + ((span j).2 : Int)

/-- The same of a piece that has been formed. -/
def CopyCmd.outBehind (m : CopyCmd) (p : OutPiece) : Bool :=
  let sh := m.sides.2
  let inSpan : Nat → DstAt → Bool := fun j d =>
    let (a, n) := sh.unitSpan (recDst m.rcd) m.centD j
    match d with | .va x => a ≤ x && x < a + (n : Int) | _ => false
  (m.out.any fun q => q.unit < p.unit && q.cells.any fun x => p.cells.any fun y => x.1 = y.1)
    || m.todo.any fun j => j < p.unit && p.cells.any fun x => inSpan j x.1

/-! ## COPY_COMMAND_START (R226, R234) -/

/-- The end of a command: its place is free, its token and counter follow (R234). -/
def State.endCmd (s : State) (c : Nat) (m : CopyCmd) (status : Nat) : State :=
  let s := s.updCore c fun k => { k with cmds := k.cmds.filter fun n => n.id != m.id }
  s.copyEnd c m status

/-- A failure with status 2 sets the pending copy fault of the context, unless one is pending (R244). -/
def State.copyFault (s : State) (uid a : Nat) : State :=
  s.updOwner uid fun t => if t.copyFault.isSome then t else { t with copyFault := some a }

/-- What reading 64 bytes finds (R226): a page to wait for, no window or permission, an error, or the bytes. -/
inductive ReadRes where
  | wait
  | lookup
  | ecc
  | got (b : BitVec 512)

/-- An engine reads a 64-byte record. -/
def State.readRecord (s : State) (v : View) (a : Nat) : ReadRes :=
  match lookupSpan v.wins v.launch s.mod v.c (a : Nat) ((a + 63 : Nat) : Int) .read with
  | some _ => .lookup
  | none =>
    match s.engineBytes v (spanOf (a : Nat) 64) with
    | .ok bs => .got (BitVec.ofNat 512 (bytesNat bs))
    | .error .resid => .wait
    | .error .eccu => .ecc
    | .error _ => .lookup

/-- The sectors of a record at an address that are not among those already read (R235). -/
def sectorsLeft (got : List (Nat × BitVec 256)) (a : Nat) : List Nat := [a, a + 32].filter fun p => (got.lookup p).isNone

/-- A record whose sectors have been read: the second sector's bytes lie above the first's. -/
def recordOf (got : List (Nat × BitVec 256)) (a : Nat) : BitVec 512 :=
  ((got.lookup (a + 32)).getD 0).zeroExtend 512 <<< 256 ||| ((got.lookup a).getD 0).zeroExtend 512

/-- What a command's start comes to: sectors still to be read, with the record each belongs to; a wait; its end with a status, and with the
failing record's address for status 2; or its run. -/
inductive StartRes where
  | reads (l : List (Nat × Nat))
  | wait
  | ends (status : Nat) (fault : Option Nat)
  | runs (m : CopyCmd)

/-- One shape record: its sectors are read, then it is checked. The low six bits of its address are left out of the read, and a failure reports the
address as the record has it (log 72). -/
def State.readShape (s : State) (v : View) (got : List (Nat × BitVec 256)) (va : Nat) : Except StartRes (BitVec 512) :=
  let a := align64 va
  if va = 0 then .ok 0
  else if (lookupSpan v.wins v.launch s.mod v.c (a : Nat) ((a + 63 : Nat) : Int) .read).isSome then .error (.ends 2 (some va))
  else if !(sectorsLeft got a).isEmpty then .error (.reads ((sectorsLeft got a).map fun p => (p, va)))
  else if shapeValid (recordOf got a) then .ok (recordOf got a)
  else .error (.ends 2 (some va))

/-- The Compass entry of a command's side (R281, R282). -/
def State.entry (s : State) (e : Nat) : CompassEntry := tget {} s.compass e

/-- A group's entry (R382). -/
def State.group (s : State) (g : Nat) : Group := tget {} s.groups g
def grpFmt (b : BitVec 256) : FmtCode := b.extractLsb' 167 7
def grpRed (b : BitVec 256) : Bool := b.getLsbD 166
def grpValid (b : BitVec 256) : Bool := b.getLsbD 164
def grpRoot (b : BitVec 256) : Nat := (b.extractLsb' 174 6).toNat
def grpNcon (b : BitVec 256) : Nat := (b.extractLsb' 180 10).toNat + 1
def grpNmem (b : BitVec 256) : Nat := (b.extractLsb' 190 10).toNat + 1
def grpMtab (b : BitVec 256) : Nat := (b.extractLsb' 200 56).toNat

/-- The checks of R384: status 2, or 3 for an offset or a byte count that is not whole units. -/
def State.groupCheck (s : State) (m : CopyCmd) : Option Nat :=
  let g := (s.group (recGrp m.rcd)).raw
  let sh := m.sides.2
  let scaled := (fmtInfo (grpFmt g)).any fun i => i.width = 8
  if !grpValid g || (recGop m.rcd = 0) = grpRed g then some 2
  else if recGop m.rcd = 0 then none
  else if sh.fmt != grpFmt g || sh.bs != scaled || (scaled && sh.bsz != 2) then some 2
  else
    let n := sh.count * sh.width / 8
    let u := if scaled then 64 else 32
    if recDst m.rcd % u != 0 || n % u != 0 || (scaled && sh.ext0 % 64 != 0) then some 3 else none

/-- A whole number of LBAs (R226). -/
def State.lbaCheck (s : State) (m : CopyCmd) : Bool :=
  let n := (m.sides.2.count * m.sides.2.width + 7) / 8
  let ok : Nat → Bool := fun slot => let b := tget 0 s.slots slot; !slotValid b || n % 2 ^ slotLbs b = 0
  (recSkind m.rcd != 1 || ok (recSslot m.rcd)) && (recDkind m.rcd != 1 || ok (recDslot m.rcd))

/-- A transfer record names a barrier object or a sync object that it may not (R226). -/
def State.objsBad (s : State) (v : View) (r : BitVec 512) : Bool :=
  let sobj := align64 (recSobj r)
  ((recArr r || recRpt r) && (s.barLookup v (recBar r / 32 * 32)).isSome)
    || (recRel r && recSo r && ((lookupSpan v.wins v.launch s.mod v.c (sobj : Nat) ((sobj + 63 : Nat) : Int) .both).isSome
      || (match Machine.locate v.wins v.launch s.mod v.c (sobj : Nat) with | some l => l.isScratch | none => true)))

/-- The checks of R226 past the shapes. -/
def State.startChecks (s : State) (c : Nat) (m : CopyCmd) : StartRes :=
  let bad : StartRes := .ends 2 (some m.rva)
  let a := Shape.of m.srcShape
  let b := Shape.of m.dstShape
  if m.srcShape != 0 && m.dstShape != 0 && a.count != b.count then bad
  else if s.objsBad (m.view c) m.rcd then bad
  else if m.srcShape != 0 && a.cv && !entValid (s.entry a.cid).word then bad
  else
    let m := { m with centS := (s.entry a.cid).word, centD := (s.entry b.cid).word, phase := .running }
    let m := { m with todo := List.range m.sides.2.units, total := m.totalBytes }
    match (if recDkind m.rcd = 2 then s.groupCheck m else none) with
    | some 2 => bad
    | some n => .ends n none
    | none => if !s.lbaCheck m then .ends 3 none else .runs m

/-- The kinds and the generations of a transfer record (R226). -/
def recForm (r : BitVec 512) : Bool :=
  recGen0 r = recGen1 r && recSkind r < 2 && recDkind r < 3 && recGop r < 4 && !(recSkind r = 1 && recSshape r != 0)
    && !(recDkind r = 1 && recDshape r != 0)

/-- A command whose transfer record has been read: an acquire waits (R216); then the shape records are read, and all is checked (R226, R234
step 1). -/
def State.startWith (s : State) (c : Nat) (m : CopyCmd) (r : BitVec 512) : StartRes :=
  let v := m.view c
  if recAcq r && !s.ownerDone c m.uid m.seq (recScope r) then .wait
  else if !recForm r then .ends 2 (some m.rva)
  else
    match s.readShape v m.got (recSshape r), s.readShape v m.got (recDshape r) with
    | .error (.reads l), .error (.reads k) => .reads (l ++ k)
    | .error e, _ => e
    | _, .error e => e
    | .ok a, .ok b => s.startChecks c { m with rcd := r, srcShape := a, dstShape := b }

/-- A command that may start (R226, R234 step 1): a chain's record was read by its channel. -/
def State.startRes (s : State) (c : Nat) (m : CopyCmd) : StartRes :=
  let v := m.view c
  if m.chan.isSome then s.startWith c m m.rcd
  else if (lookupSpan v.wins v.launch s.mod v.c (m.rva : Nat) ((m.rva + 63 : Nat) : Int) .read).isSome then .ends 2 (some m.rva)
  else if !(sectorsLeft m.got m.rva).isEmpty then .reads ((sectorsLeft m.got m.rva).map fun p => (p, m.rva))
  else s.startWith c m (recordOf m.got m.rva)

/-- The records that a command still has to read, as far as they are known (R235): the sectors not yet taken. -/
def State.recordBytes (s : State) (c : Nat) (m : CopyCmd) : List Int :=
  let v := m.view c
  let left : Nat → List Int := fun a => (sectorsLeft m.got a).flatMap fun p => spanOf (p : Nat) 32
  let known := m.chan.isSome || (sectorsLeft m.got m.rva).isEmpty
  let r := if m.chan.isSome then m.rcd
    else if known then recordOf m.got m.rva
    else match s.readRecord v m.rva with | .got r => r | _ => 0
  let sh : Nat → List Int := fun a => if a = 0 then [] else left (align64 a)
  (if known then [] else left m.rva) ++ sh (recSshape r) ++ sh (recDshape r)

/-- A command ends at its start. -/
def State.startFails (s : State) (c : Nat) (m : CopyCmd) (status : Nat) (fault : Option Nat) : State :=
  (match fault with | some a => s.copyFault m.uid a | none => s).endCmd c m status

/-- A record's bytes, where its sectors have been read. -/
def gotRecord (got : List (Nat × BitVec 256)) (a : Nat) : Option (BitVec 512) := if (sectorsLeft got a).isEmpty then some (recordOf got a) else none

/-- A command meets an uncorrectable error in a record (R236, R240): where its transfer record is known it ends by step 3 of R234, with status 5 and
nothing written, its total being known where the shape that gives it is (log 72); else at once. -/
def State.startLost (s : State) (c : Nat) (m : CopyCmd) : State :=
  match if m.chan.isSome then some m.rcd else gotRecord m.got m.rva with
  | none => s.startFails c m 5 none
  | some r =>
    if s.objsBad (m.view c) r then s.startFails c m 2 (some m.rva)
    else
      let shape : Nat → BitVec 512 := fun a => if a = 0 then 0 else (gotRecord m.got (align64 a)).getD 0
      let m := { m with rcd := r, srcShape := shape (recSshape r), dstShape := shape (recDshape r), centD := (s.entry (Shape.of (shape (recDshape r))).cid).word }
      let at' := if recDshape r = 0 then recSshape r else recDshape r
      let total := if at' = 0 || (gotRecord m.got (align64 at')).isSome then m.totalBytes else 0
      s.updCmd c m.id fun _ => { m with phase := .firmware, status := 5, slow := true, total := total }

/-- A sector of a record is read at its scope-5 point, once the issuing context's earlier stores to it are performed (R235); a page that is not
there is waited for. -/
def State.readSector (s : State) (c : Nat) (m : CopyCmd) (a rva : Nat) : State :=
  let l := spanOf (a : Nat) 32
  if s.ownerStores c m.uid m.seq (m.view c) l then s
  else
    match s.engineBytes (m.view c) l with
    | .ok bs => s.updCmd c m.id fun m => { m with got := m.got ++ [(a, BitVec.ofNat 256 (bytesNat bs))] }
    | .error .resid => s.engineFill (m.view c) l
    | .error .eccu => s.startLost c m
    | .error _ => s.startFails c m 2 (some rva)

/-- An act of the start of a queued command, those before it having started (R216, R226, R232, R234, R235): one of the sectors that it still has
to read, k choosing which, or, when it has them all, its checks. -/
def State.copyStart (s : State) (c i k : Nat) : State :=
  match (s.core c).cmds[i]? with
  | none => s
  | some m =>
    if m.phase != .queued || ((s.core c).cmds.take i).any (fun n => n.phase = .queued) then s
    else
      match s.startRes c m with
      | .reads l => (match l[k % l.length]? with | some p => s.readSector c m p.1 p.2 | none => s)
      | .wait => s
      | .ends st f => s.startFails c m st f
      | .runs n => s.updCmd c m.id fun _ => n

/-- COPY_COMMAND_START (R234): command i of a core's queue. -/
def execCopyCommandStart (s : State) : Host.Outcome State Fault Refusal := .next (s.copyStart s.focus.c s.focus.i s.focus.k)

/-! ## Writes of a piece -/

/-- The physical object of a command's barrier, when its page is there. -/
def State.cmdBar (s : State) (c : Nat) (m : CopyCmd) : Option Nat :=
  if recArr m.rcd || recRpt m.rcd then
    (Machine.locate m.wins m.launch s.mod c ((recBar m.rcd / 32 * 32 : Nat) : Int)).bind s.resolve
  else none

/-- What a command has written and not reported is, once its barrier object's page is there (R196, R234). -/
def State.report (s : State) (c id : Nat) : State :=
  match (s.core c).cmds.find? fun m => m.id = id with
  | none => s
  | some m =>
    if m.rpt = 0 then s
    else
      match s.cmdBar c m with
      | some pa => (s.barPost pa (.bytes (-(m.rpt : Int)))).updCmd c id fun m => { m with rpt := 0 }
      | none => s.engineFill (m.view c) [((recBar m.rcd / 32 * 32 : Nat) : Int)]

/-- Bytes of a command are performed: its count, its nf, and its report (R234 step 2). -/
def State.wrote (s : State) (c : Nat) (m : CopyCmd) (n : Nat) (nf : Bool) : State :=
  let rpt := if recRpt m.rcd then n else 0
  (s.updCmd c m.id fun m => { m with written := m.written + n, nf := m.nf || nf, rpt := m.rpt + rpt }).report c m.id

/-- The expander has every byte of a command that waits for it. -/
def State.inTier (s : State) (c : Nat) (m : CopyCmd) : Bool := !((s.die (dieOf c)).exp.any fun w => w.ctx = 5 && w.seq = m.id)

/-- The engine of a command writes bytes that have been placed. -/
def State.cmdPut (s : State) (c : Nat) (m : CopyCmd) (cells : List (Nat × Byte)) : State := s.viewPut (m.view c) cells

/-- The units of a piece have been dealt with. -/
def State.dropUnits (s : State) (c : Nat) (m : CopyCmd) (js : List Nat) : State :=
  s.updCmd c m.id fun m => { m with todo := m.todo.filter fun j => !js.contains j }

/-- A command's status rises, as the firmware path reports it (R236, R243). -/
def State.cmdStatus (s : State) (c : Nat) (m : CopyCmd) (k : Cause) : State :=
  s.updCmd c m.id fun m => { m with status := Nat.max m.status (if k = .eccu then 5 else 4), slow := true }

/-- Bytes in the order of their offsets. -/
def sortCells (l : List (Nat × Byte)) : List (Nat × Byte) :=
  l.foldl (fun r p => r.filter (fun q => q.1 ≤ p.1) ++ p :: r.filter fun q => p.1 < q.1) []

/-- The sends of a group destination (R385, R386): a packet, or a contribution with its id. -/
def State.groupSend (s : State) (c : Nat) (m : CopyCmd) (ws : List (DstAt × Byte)) : State :=
  let g := recGrp m.rcd
  let cells := sortCells (ws.filterMap fun p => match p.1 with | .base o => some (o, p.2) | _ => none)
  let scales := ws.filterMap fun p => match p.1 with | .scale o => some (o, p.2) | _ => none
  let s := s.updCmd c m.id fun m => { m with owed := m.owed + 1 }
  if recGop m.rcd = 0 then
    { s with packets := s.packets ++ [{ cmds := [m.id], group := g, cells := cells, scales := scales, latched := none, left := [] }] }
  else
    let k : Contribution :=
      { cmd := m.id, id := (s.mod * 1024 + c) * 4 + m.ctx, order := m.id, group := g, gop := recGop m.rcd
        offset := (cells.headD (0, 0)).1, data := cells.map (·.2), scale := (scales.headD (0, 0)).2 }
    { s with contribs := s.contribs ++ [k] }

/-- The writes of a piece at their places: none where one of them fails. -/
def State.placeWrites (s : State) (c : Nat) (m : CopyCmd) (ws : List (DstAt × Byte)) : Except Cause State :=
  match recDkind m.rcd with
  | 1 =>
    match s.lbaAddr (recDslot m.rcd) (recDst m.rcd) with
    | none => .error .window
    | some a => .ok { s with nvmeMem := memPut s.nvmeMem (ws.filterMap fun p => match p.1 with | .nvme o => some (a + o, p.2) | _ => none) }
  | 2 => .ok (s.groupSend c m ws)
  | _ => (s.enginePlace (m.view c) (ws.filterMap fun p => match p.1 with | .va a => some (a, p.2) | _ => none)).map fun cells => s.cmdPut c m cells

/-- Bytes that reach their places as the piece is performed; a group's are performed later. -/
def performedNow (m : CopyCmd) (ws : List (DstAt × Byte)) : Nat := if recDkind m.rcd = 2 then 0 else ws.length

/-- The sample of a tile that a command writes (R285). -/
def State.sampleTile (s : State) (m : CopyCmd) (j : Nat) (es : List Elem) : State :=
  let sh := m.sides.2
  if !sh.cv || j % 2 ^ entSs m.centD != 0 then s
  else
    match sampleOf m.centD (s.ladder (entLadder m.centD)) ((es.take (blockSize (entBsz m.centD))).map Elem.exact) with
    | none => s
    | some k => { s with compassQ := s.compassQ ++ [.sample m.id sh.cid (entVer m.centD) k] }

/-- What the tiles of the source need before a piece can be read (R242): the first that is not to be delivered as it stands. -/
def State.tilesDue (s : State) (c : Nat) (m : CopyCmd) (js : List Nat) : Option (Nat × TileDue) :=
  let sh := m.sides.1
  if !sh.cv then none
  else
    let ks := ((js.flatMap m.sides.2.unitElems).map (· / 8192)).foldl (fun (l : List Nat) k => if l.contains k then l else l ++ [k]) []
    ks.findSome? fun k => match s.tileDue (m.view c) sh m.centS k with
      | .deliver _ => none
      | d => some (k, d)

/-- The addresses of a unit of the destination. -/
def CopyCmd.unitVas (m : CopyCmd) (j : Nat) : List Int :=
  let sh := m.sides.2
  let (a, n) := sh.unitSpan (recDst m.rcd) m.centD j
  (if sh.cv then spanOf (sh.tileStamp j) 4 else []) ++ (if recDkind m.rcd = 0 then spanOf a n else [])
    ++ (if recDkind m.rcd = 0 && 0 < sh.unitScales m.centD j then
          match m.scaleAt a j with | .va x => spanOf x (sh.unitScales m.centD j) | _ => []
        else [])

/-- The addresses of an element of the source. -/
def CopyCmd.elemVas (m : CopyCmd) (n : Nat) : List Int :=
  let src := m.sides.1
  if src.cv then
    let o := n % 8192
    let a := src.tileBase (recSrc m.rcd) (n / 8192)
    [src.tileStamp (n / 8192), src.tileScale (n / 8192), src.tileScale (n / 8192) + 511, a + ((2 * o : Nat) : Int), a + (o : Int),
     a + ((o / 2 : Nat) : Int), a + ((o / 4 : Nat) : Int)]
  else
    let a := src.elemVa (recSrc m.rcd) n
    [a, a + (((src.width + 7) / 8 - 1 : Nat) : Int)] ++ (if src.bs then [((src.scales + src.elemBlock n : Nat) : Int)] else [])

/-- The addresses that a piece touches, for the fills it asks for. -/
def CopyCmd.pieceVas (m : CopyCmd) (js : List Nat) : List Int :=
  (if recSkind m.rcd = 0 then (js.flatMap m.sides.2.unitElems).flatMap m.elemVas else []) ++ js.flatMap m.unitVas

/-- The engine hands the rest of a command to the firmware path (R243). -/
def State.toFirmware (s : State) (c : Nat) (m : CopyCmd) : State := s.updCmd c m.id fun m => { m with phase := .firmware, slow := true }

/-- A failure of a command's data (R243): the engine hands the rest to the firmware path, which waits for pages and leaves out what it cannot
do, as lose says. -/
def State.dataFails (s : State) (c : Nat) (m : CopyCmd) (k : Cause) (vas : List Int) (lose : State → State) : State :=
  if m.phase = .running then s.toFirmware c m
  else if k = .resid then s.engineFill (m.view c) vas
  else lose (s.cmdStatus c m k)

/-! ### A tile whose stamp the command has set busy (R242) -/

/-- The units that depend on a tile of the source: skipped when it cannot be read or re-encoded. -/
def CopyCmd.unitsOfTile (m : CopyCmd) (t : Nat) : List Nat := m.todo.filter fun j => (m.sides.2.unitElems j).any fun n => n / 8192 = t

/-- The side, the base and the entry of a busy tile. -/
def CopyCmd.tileSide (m : CopyCmd) (w : TileWork) : Shape × Int × Word :=
  if w.src then (m.sides.1, (recSrc m.rcd : Int), m.centS) else (m.sides.2, (recDst m.rcd : Int), m.centD)

/-- The addresses that the work on a tile may touch. -/
def CopyCmd.tileVas (m : CopyCmd) (w : TileWork) : List Int :=
  let (sh, base, _) := m.tileSide w
  spanOf (sh.tileStamp w.tile) 4 ++ [sh.tileScale w.tile, sh.tileScale w.tile + 511] ++
    [0, 8191, 16383].map fun (o : Nat) => sh.tileBase base w.tile + (o : Int)

/-- An act of the work on a busy tile: its writes count where the tile is the destination's (R242). What the firmware path cannot do of a
re-encoding ends it, and leaves out the units that need the tile; of a destination's tile, a piece that it cannot write. -/
def State.busyAct (s : State) (c : Nat) (m : CopyCmd) (w : TileWork) (k : Nat) : State :=
  let (sh, base, ent) := m.tileSide w
  let put : Option TileWork → State → State := fun b s => s.updCmd c m.id fun m => { m with busy := b }
  match s.tileAct (m.view c) sh base ent w k with
  | .next s w' n => (put (some w') s).wrote c m (if w.src then 0 else n) false
  | .done s nf => (put none s).wrote c m 0 nf
  | .fails e =>
    s.dataFails c m e (m.tileVas w) fun s =>
      if w.src then ((put none s).giveUpTile (m.view c) sh base ent w).dropUnits c m (m.unitsOfTile w.tile)
      else if w.out.isEmpty then put none s
      else put (some { w with out := w.out.eraseIdx (k % w.out.length) }) s

/-! ### Pieces (R234) -/

/-- A source's sector is read ahead of the piece that needs it. -/
def State.readAhead (s : State) (c : Nat) (m : CopyCmd) (k : Nat) : State :=
  match s.aheadVa c m k with
  | none => s
  | some a =>
    let l := (spanOf (a / 32 * 32) 32).filter fun p => (m.seen.lookup p).isNone
    match s.engineBytes (m.view c) l with
    | .ok bs => s.updCmd c m.id fun m => { m with seen := m.seen ++ l.zip bs }
    | .error _ => s

/-- A piece that has been formed is written. -/
def State.outAct (s : State) (c : Nat) (m : CopyCmd) (k : Nat) : State :=
  match m.out[k % m.out.length]? with
  | none => s
  | some p =>
    let drop : State → State := fun s => s.updCmd c m.id fun m => { m with out := m.out.eraseIdx (k % m.out.length) }
    if m.outBehind p then s
    else
      match s.placeWrites c m p.cells with
      | .ok s => (drop s).wrote c m (performedNow m p.cells) false
      | .error e => s.dataFails c m e (p.cells.filterMap fun x => match x.1 with | .va a => some a | _ => none) drop

/-- The sector of a byte of a destination. -/
def DstAt.sector : DstAt → Int
  | .va a => a / 32
  | .nvme o => (o / 32 : Nat)
  | .base o => (o / 32 : Nat)
  | .scale o => (o / 32 : Nat)

/-- A block of a destination in memory is formed: its pieces are written one by one. -/
def State.formBlock (s : State) (c : Nat) (m : CopyCmd) (j : Nat) (ws : UnitData) : State :=
  let ps := (sectorRuns DstAt.sector ws.1).map fun cs => ({ unit := j, cells := cs } : OutPiece)
  ((s.updCmd c m.id fun m => { m with out := m.out ++ ps }).dropUnits c m [j]).wrote c m 0 ws.2

/-- A tile of a destination is formed (R242): its stamp is set busy, and its pieces are written one by one, then its stamp; a group's packet is
sent. -/
def State.formTile (s : State) (c : Nat) (m : CopyCmd) (j : Nat) (es : List Elem) : State :=
  let sh := m.sides.2
  let fails : Cause → State := fun k => s.dataFails c m k (spanOf (sh.tileStamp j) 4) fun s => s.dropUnits c m [j]
  match s.tileStamp (m.view c) sh j with
  | .error k => fails k
  | .ok st =>
    if stampBusy st then s
    else
      match s.setBusy (m.view c) sh j st with
      | .error k => fails k
      | .ok s =>
        let (bs, ss, f) := tileBytes m.centD es
        let out := if recDkind m.rcd = 2 then [] else sh.tilePieces (recDst m.rcd) j bs ss
        let s := if recDkind m.rcd = 2 then s.groupSend c m (m.unitWrites j es).1 else s
        let s := s.updCmd c m.id fun m => { m with busy := some { src := false, tile := j, stamp := st, formed := true, out := out } }
        ((s.sampleTile m j es).dropUnits c m [j]).wrote c m 0 f

/-- What reading the units of a piece gave. -/
abbrev PieceRead := List (Nat × List (Option Elem) × List Cause)

/-- The units of a piece, read. -/
def State.readPiece (s : State) (c : Nat) (m : CopyCmd) (js : List Nat) : PieceRead := js.map fun j => (j, s.unitRead c m j)

/-- The writes of a piece: of each unit all, or what can be written of it (R243). -/
def State.pieceWrites (s : State) (c : Nat) (m : CopyCmd) (rs : PieceRead) : UnitData :=
  rs.foldl (fun acc r =>
    let (ws, f) := if r.2.2.isEmpty then m.unitWrites r.1 (r.2.1.filterMap id) else s.partWrites c m r.1 r.2.1
    (acc.1 ++ ws, acc.2 || f)) ([], false)

/-- A piece whose source has been read, as far as it can be, is written or formed. -/
def State.writePiece (s : State) (c : Nat) (m : CopyCmd) (js : List Nat) (rs : PieceRead) : State :=
  let sh := m.sides.2
  let whole : List Elem := rs.flatMap fun r => r.2.1.filterMap id
  let lost := rs.any fun r => !r.2.2.isEmpty
  if lost && (sh.cv || sh.bs || recDkind m.rcd = 2) then s.dropUnits c m js
  else if sh.cv then (match js with | j :: _ => s.formTile c m j whole | [] => s)
  else
    let ws := s.pieceWrites c m rs
    if sh.bs && recDkind m.rcd != 2 then (match js with | j :: _ => s.formBlock c m j ws | [] => s)
    else
      match s.placeWrites c m ws.1 with
      | .ok s => (s.dropUnits c m js).wrote c m (performedNow m ws.1) ws.2
      | .error e => s.dataFails c m e (m.pieceVas js) fun s => s.dropUnits c m js

/-- A piece of a command (R234, R242, R243): a stale tile of its source has its stamp set busy, to be re-encoded first; then its source is read
and it is written or formed. -/
def State.pieceAct (s : State) (c : Nat) (m : CopyCmd) (k : Nat) : State :=
  let js := m.piece k
  if js.isEmpty || m.overtakes js then s
  else
    match s.tilesDue c m js with
    | some (_, .wait) => s
    | some (t, .fails e) => s.dataFails c m e (m.pieceVas js) fun s => s.dropUnits c m (m.unitsOfTile t)
    | some (t, .reencode st) =>
      (match s.setBusy (m.view c) m.sides.1 t st with
      | .ok s => s.updCmd c m.id fun m => { m with busy := some { src := true, tile := t, stamp := st } }
      | .error e => s.dataFails c m e (m.pieceVas js) fun s => s.dropUnits c m (m.unitsOfTile t))
    | _ =>
      let rs := s.readPiece c m js
      match rs.flatMap fun r => r.2.2 with
      | [] => s.writePiece c m js rs
      | e :: es =>
        let k := if (e :: es).contains .resid then .resid else e
        s.dataFails c m k (m.pieceVas js) fun s => (es.foldl (fun s e => s.cmdStatus c m e) s).writePiece c m js rs

/-- An act of a command's data (R234, R242, R243): o = 1 writes a piece that has been formed, o = 2 reads a sector of the source ahead; else the
work on a tile that is busy goes on, or a piece of what is left is taken; k chooses which. -/
def State.dataAct (s : State) (c : Nat) (m : CopyCmd) (o k : Nat) : State :=
  if o = 1 then s.outAct c m k
  else if o = 2 then s.readAhead c m k
  else
    match m.busy with
    | some w => s.busyAct c m w k
    | none => s.pieceAct c m k

/-- COPY_PIECE (R234): an act of running command i. -/
def execCopyPiece (s : State) : Host.Outcome State Fault Refusal :=
  .next (match (s.core s.focus.c).cmds[s.focus.i]? with
    | some m => if m.phase = .running then s.dataAct s.focus.c m s.focus.o s.focus.k else s
    | none => s)

/-- FIRMWARE_PATH (R243): an act of command i on the firmware path, or, where it was cancelled, of the tile that it has still to finish
(R242). -/
def execFirmwarePath (s : State) : Host.Outcome State Fault Refusal :=
  .next (match (s.core s.focus.c).cmds[s.focus.i]? with
    | some m =>
      if m.phase = .firmware then s.dataAct s.focus.c m s.focus.o s.focus.k
      else match m.phase, m.busy with
        | .aborted, some w => s.busyAct s.focus.c m w s.focus.k
        | _, _ => s
    | none => s)

/-! ## COPY_COMPLETION (R234 step 3, R240) -/

/-- The physical place of an address that a completion needs, with its page asked for when it is not there; none where an uncorrectable error or a
place out of reach keeps it from being done, which is then left out (log 72). -/
def State.needPlace (s : State) (c : Nat) (m : CopyCmd) (want : Bool) (a : Nat) : Except State (Option Nat) :=
  if !want then .ok none
  else
    match s.place (Machine.locate m.wins m.launch s.mod c (a : Nat)) with
    | .ok pa => .ok (some pa)
    | .error .resid => .error (s.engineFill (m.view c) [(a : Int)])
    | .error _ => .ok none

/-- What the barrier object of a command is told at its end (R240). -/
def CopyCmd.barEnds (m : CopyCmd) : List BarOp :=
  (if 4 ≤ m.status && recRpt m.rcd then [.bytes (-((m.total - m.written : Nat) : Int))] else [])
    ++ (if 4 ≤ m.status then [.err] else []) ++ (if recArr m.rcd then [.arrive] else [])

/-- Whether a contribution of a command to Compass has not been accepted (R285). -/
def State.samplesOwed (s : State) (id : Nat) : Bool :=
  s.compassQ.any fun q => match q with | .sample m _ _ _ => m = id | _ => false

/-- What a command still has to do before step 3 of R234: writes, a busy tile, packets in flight, samples, bytes on their way to the
expander. -/
def State.cmdOwes (s : State) (c : Nat) (m : CopyCmd) : Bool :=
  !m.todo.isEmpty || !m.out.isEmpty || m.inFlight || s.samplesOwed m.id || !s.inTier c m

/-- Step 3 of R234 of a command whose writes are all performed: release, own, then token, counter and arrival. -/
def State.copyFinish (s : State) (c : Nat) (m : CopyCmd) : State :=
  match s.needPlace c m (recRel m.rcd && recSo m.rcd) (align64 (recSobj m.rcd)) with
  | .error s => s
  | .ok sobj =>
    match s.needPlace c m m.chan.isSome m.rva with
    | .error s => s
    | .ok own =>
      match s.needPlace c m (recArr m.rcd || recRpt m.rcd) (recBar m.rcd / 32 * 32) with
      | .error s => s
      | .ok bar =>
        let s := match sobj with | some pa => s.relObject (dieOf c) pa false | none => s
        let s := match own with
          | some pa => s.homePut (dieOf c) pa 4 (memNat s.mem pa 4 &&& 0xFFFFFEFF)
          | none => s
        let s := match bar with | some pa => m.barEnds.foldl (fun (s : State) o => s.barPost pa o) (s.report c m.id) | none => s
        s.endCmd c m m.status

/-- The completion of command i (R234); one that was cancelled ends with status 1 once its writes in flight are performed (R245). -/
def State.copyComplete (s : State) (c i : Nat) : State :=
  match (s.core c).cmds[i]? with
  | none => s
  | some m =>
    if m.phase = .aborted then (if m.inFlight then s else s.endCmd c m 1)
    else if (m.phase = .running || m.phase = .firmware) && !s.cmdOwes c m then s.copyFinish c m
    else s

/-- COPY_COMPLETION (R234). -/
def execCopyCompletion (s : State) : Host.Outcome State Fault Refusal := .next (s.copyComplete s.focus.c s.focus.i)

/-! ## CHANNEL_STEP (R233) -/

/-- The worker whose channel takes a step, with its core and context (R233, R352): that of a context, or a saved one. -/
def State.chanOwner (s : State) (saved : Bool) (c x i : Nat) : Option (Nat × Nat × Ctx) :=
  if saved then (s.images[i]?).bind fun g => g.saved.map fun t => (g.core, g.x, t)
  else some (c, x, s.ctx c x)

/-- Changes a channel of a worker. -/
def State.updChan (s : State) (uid k : Nat) (f : Channel → Channel) : State :=
  s.updOwner uid fun t => { t with chan := vset t.chan k (f (vget t.chan k {})) }

/-- A channel stops at its head. -/
def State.stopChan (s : State) (uid k : Nat) : State := s.updChan uid k fun ch => { ch with running := false, got := [] }

/-- A channel starts the record at its head as a command once there is room for it (R233), and goes on to the next. -/
def State.chanStart (s : State) (c x : Nat) (w : Worker) (t : Ctx) (k : Nat) (r : BitVec 512) : State :=
  let ch := vget t.chan k {}
  let mine := (s.cores.map fun p => p.2.cmds.countP fun m => m.uid = w.uid && m.chan = some k).sum
  let tok := if recTv r then some (recTok r) else none
  let full := match tok with | some i => 255 ≤ (vget t.tok i {}).count | none => false
  if 16 ≤ mine || 64 ≤ (s.core c).cmds.length || full then s
  else
    let m : CopyCmd := { id := s.nextId, ctx := x, uid := w.uid, rva := ch.head.toNat, rcd := r, chan := some k, tok := tok, seq := ch.seq
                         wins := w.wins, vi := w.vi, launch := w.launch }
    let next : BitVec 48 := recNext r >>> 6 <<< 6
    let s : State := { s with nextId := s.nextId + 1 }
    let s := s.updCore c fun k => { k with cmds := k.cmds ++ [m] }
    s.updOwner w.uid fun t =>
      { t with cnt := { t.cnt with copies := t.cnt.copies + 1 }
               tok := match tok with
                 | some i => vset t.tok i { vget t.tok i {} with count := (vget t.tok i {}).count + 1 }
                 | none => t.tok
               chan := vset t.chan k { ch with head := next, running := next != 0, got := [] } }

/-- A channel's step (R233): an uncorrectable error in its record stops it as a failed lookup does (log 72). It reads a sector of the record at its head, o choosing which; or, the record read, it starts it as a command,
waits, or stops. -/
def State.channelStep (s : State) (c x : Nat) (t : Ctx) (k o : Nat) : State :=
  let ch := vget t.chan k {}
  let a := ch.head.toNat
  let v := t.view c
  match t.worker with
  | none => s
  | some w =>
    if !ch.running then s
    else if (lookupSpan v.wins v.launch s.mod v.c (a : Nat) ((a + 63 : Nat) : Int) .read).isSome then (s.stopChan w.uid k).copyFault w.uid a
    else
      let left := sectorsLeft ch.got a
      match left[o % left.length]? with
      | some p =>
        let l := spanOf (p : Nat) 32
        if s.ownerStores c w.uid ch.seq v l then s
        else
          (match s.engineBytes v l with
          | .ok bs => s.updChan w.uid k fun ch => { ch with got := ch.got ++ [(p, BitVec.ofNat 256 (bytesNat bs))] }
          | .error .resid => s.engineFill v l
          | .error _ => (s.stopChan w.uid k).copyFault w.uid a)
      | none =>
        let r := recordOf ch.got a
        if recGen0 r != recGen1 r then (s.stopChan w.uid k).copyFault w.uid a
        else if !recOwn r then s.stopChan w.uid k
        else s.chanStart c x w t k r

/-- CHANNEL_STEP (R233): channel k of a context, or, with d = 1, of the worker of image i. -/
def execChannelStep (s : State) : Host.Outcome State Fault Refusal :=
  .next (match s.chanOwner (s.focus.d = 1) s.focus.c s.focus.x s.focus.i with
    | some (c, x, t) => s.channelStep c x t s.focus.k s.focus.o
    | none => s)

end Sys2Proof.Machine
end

