-- ==== Sys2Proof/Machine/CopyUnit.lean ====
section
/-!
DEFINITION. The ce unit (R223, R224, R232, R233, R237, R239, R245) and the steps BARRIER_UPDATE and BWAIT_REPLY.
-/

namespace Sys2Proof.Machine

/-- A ce trigger, of weight 4 (R223). -/
def ceTrig (off : Nat) (act : Env → State → Word → State) : Trigger :=
  { unit := .ce, code := 0x2C0 + off, weight := fun _ _ _ => 4, act := fun env s v => act env s (v.truncate 64) }

/-- A result of ce, with latency 2. -/
def State.ceResult (s : State) (env : Env) (w : Word) : State := s.result env .ce (w.zeroExtend 2048) 2 0

/-- The record that cpy and chan name, and its lookup (R224). -/
def ceRecord (env : Env) : Nat := align64 (env.lat.ceO.toNat % 2 ^ 48)
def recordTrap (env : Env) (s : State) : Option Trap := s.spanTrap env (some ((ceRecord env : Nat), ((ceRecord env + 63 : Nat) : Int))) .read

/-- A token's count rises (R232, R256). -/
def Ctx.tokenStart (t : Ctx) (tok : Option Nat) : Ctx :=
  match tok with
  | some i => { t with tok := vset t.tok i { vget t.tok i {} with count := (vget t.tok i {}).count + 1 } }
  | none => t

/-! ## cpy (R232) -/

/-- The token a trigger word names: none with nt. -/
def tokOf (v : Word) : Option Nat := if v.getLsbD 3 then none else some (v.toNat % 8)

/-- cpy blocks while the command queue is full. -/
def cpyWait (env : Env) (s : State) (_ : VWord) : Wait := if (s.core env.c).cmds.length < 64 then .ready else .block

/-- cpy (R232). -/
def State.cpyAct (s : State) (env : Env) (v : Word) : State :=
  let tok := tokOf v
  let full : Bool := match tok with | some i => 255 ≤ (vget (s.ctx env.c env.x).tok i {}).count | none => false
  if full then s.ceResult env 1
  else
    let m : CopyCmd := { id := s.nextId, ctx := env.x, uid := env.t0.uid, rva := ceRecord env, tok := tok, seq := (s.ctx env.c env.x).seq
                         wins := env.t0.wins, vi := env.t0.vi, launch := env.t0.launch }
    let s : State := { s with nextId := s.nextId + 1 }
    let s := s.updCore env.c fun k => { k with cmds := k.cmds ++ [m] }
    let s := s.updCtx env.c env.x fun t =>
      { t.tokenStart tok with seq := t.seq + 1, cnt := { t.cnt with copies := t.cnt.copies + 1 } }
    s.ceResult env 0

/-! ## chan (R233) -/

/-- chan: no effect on a running channel. -/
def State.chanAct (s : State) (env : Env) (v : Word) : State :=
  let k := v.toNat % 2
  let t := s.ctx env.c env.x
  if (vget t.chan k {}).running then s.ceResult env 1
  else
    (s.setCtx env.c env.x { t with chan := vset t.chan k { running := true, head := BitVec.ofNat 48 (ceRecord env), seq := t.seq }
                                   seq := t.seq + 1 }).ceResult env 0

/-! ## cpyq (R237) -/

/-- cpyq: the word as it stands at the end of the bundle, and the clear of a token whose count is 0. -/
def State.cpyqAct (s : State) (env : Env) (v : Word) : State :=
  let t := s.ctx env.c env.x
  if v.getLsbD 4 then s.ceResult env (vget t.chan (v.toNat % 2) {}).word
  else
    let i := v.toNat % 8
    let k := vget t.tok i {}
    let s := s.ceResult env k.word
    if v.getLsbD 3 && k.count = 0 then s.updCtx env.c env.x fun t => { t with tok := vset t.tok i {} } else s

/-! ## bini, bexp, barr (R239) -/

/-- The lookup of an object (R224). -/
def barTrap (env : Env) (s : State) : Option Trap := (s.barLookup (env.t0.view env.c) (barAddr env)).map Mark.trap

/-- A barrier operation takes its place in the SAQ. -/
def State.barPush (s : State) (env : Env) (op : StoreOp) : State := s.updCtx env.c env.x fun t => t.pushStore op (barAddr env) 0

/-- The bytes of an object as an item that is sent to it holds them: they order it among the context's accesses (R120). -/
def State.barCells (s : State) (c : Nat) (t : Ctx) (va : Nat) : List (Nat × Loc × Byte) :=
  (List.range 32).filterMap fun j => (s.locate c t ((va + j : Nat) : Int)).map fun l => (0, l, 0)

/-- The drain of a barrier operation: a barr waits for what it releases; a failure at the object holds it as a store fault. -/
def State.drainBar (s : State) (c x : Nat) (r : StoreReq) (sc : Nat) : State :=
  let t := s.ctx c x
  match s.placeSpan c t r.va 32 with
  | .error m => (s.fillFor c t [(r.va : Int)]).holdStore c x m
  | .ok _ => if sc = 0 || s.storesDone c x r.seq sc then s.sendStore c x r (s.barCells c t r.va) true else s

/-- The update that a SAQ item makes. -/
def StoreOp.barOp : StoreOp → Option BarOp
  | .bini n => some (.init n.toNat)
  | .bexp d => some (.bytes d.toNat)
  | .barr _ => some .arrive
  | _ => none

/-- A store of a worker before place n to an object's bytes is on its way home (R205). -/
def State.storeComing (s : State) (c uid n pa : Nat) : Bool :=
  (s.die (dieOf c)).wt.any fun w => w.uid = uid && w.seq < n && w.cells.any fun p => pa ≤ p.1 && p.1 < pa + 32

/-- A barrier operation that a context has sent arrives, in SAQ order: after those it sent before it, and after its earlier accesses of the
object's bytes (R239). -/
def State.barArrive (s : State) (c x i : Nat) : State :=
  let t := s.ctx c x
  match t.stFlight[i]? with
  | none => s
  | some f =>
    match f.req.op.barOp, (s.locate c t (f.req.va : Int)).bind s.landing with
    | some o, some pa =>
      if ((t.stFlight.take i).any fun g => g.req.op.barOp.isSome) || s.storeWaits c t f.seq f.cells || s.storeComing c t.uid f.seq pa then s
      else (s.barPost pa o).endFlight c x i
    | _, _ => s

/-- BARRIER_UPDATE (R240): item i of those a context has sent arrives; at the end of its cycle the object takes the cycle's updates and is
checked. -/
def execBarrierUpdate (s : State) : Host.Outcome State Fault Refusal := .next (s.barArrive s.focus.c s.focus.x s.focus.i)

/-! ## bwait (R239) -/

/-- The parity and the scope of a bwait. -/
def bwaitScope (v : Word) : Nat := scopeCode (v.extractLsb' 1 3).toNat

/-- Whether a bwait's acquire drops the lines of its die (R208, R239). -/
def bwaitDrops (v : Word) : Bool := 4 ≤ bwaitScope v

/-- The wait of bwait: the reply, then the lines that its acquire drops. -/
def bwaitWait (env : Env) (s : State) (v : VWord) : Wait :=
  match env.t0.request .ce with
  | none => .send fun s => s.ask env { unit := .ce, code := 0x2C7, a := BitVec.ofNat 64 (barAddr env), t := v.truncate 64 }
  | some a =>
    match a.reply with
    | some (.value _) => dropWait env.c s fun _ => bwaitDrops (v.truncate 64)
    | _ => .sent

/-- A bwait as its bundle issues: the lines go. -/
def State.bwaitAct (s : State) (env : Env) (v : Word) : State := s.dropSel (dieOf env.c) fun _ => bwaitDrops v

/-- The traps of bwait: its lookup, then a refusal at home. -/
def bwaitTrap (env : Env) (s : State) : Option Trap :=
  match barTrap env s with
  | some t => some t
  | none => refusedTrap env .ce

/-- A bwait at its home (R211, R239): it is answered once the phase has the other parity; until then it takes a place among the requests that
the home holds. -/
def State.bwaitReply (s : State) (c x : Nat) : State :=
  let t := s.ctx c x
  match t.request .ce with
  | none => s
  | some a =>
    if a.code != 0x2C7 || a.reply.isSome || a.retry then s
    else
      match s.placeSpan c t a.a.toNat 32 with
      | .error k => s.refuse c x .ce k
      | .ok pa =>
        let mine : HomeWaiter → Bool := fun h => h.pa = pa && h.uid = t.uid
        if barPhase (s.barAt pa) != a.t.getLsbD 0 then
          ({ s with waiters := s.waiters.filter fun h => !mine h }.sees c x).updCtx c x fun t =>
            { t.updRequest .ce fun a => { a with reply := some (.value 0), retry := false } with pages := [] }
        else if s.waiters.any mine then s
        else if s.waitRoom pa then { s with waiters := s.waiters ++ [{ pa := pa, uid := t.uid }] }
        else s.updCtx c x fun t => t.updRequest .ce (·.toRetry s.clk)

/-- BWAIT_REPLY (R211, R239): the home looks at a bwait that it holds, or that is sent again after it was answered "retry". -/
def execBwaitReply (s : State) : Host.Outcome State Fault Refusal :=
  let c := s.focus.c
  let x := s.focus.x
  .next ((if s.focus.o = 1 then s.updCtx c x fun t => t.updRequest .ce (·.again s.clk) else s).bwaitReply c x)

/-! ## cabt (R245) -/

/-- cabt: with t[8] every command and both channels. -/
def State.cabtAct (s : State) (env : Env) (v : Word) : State :=
  let all := v.getLsbD 8
  let s := s.cancelCopies env.t0.uid (v.truncate 8) all
  if all then s.updCtx env.c env.x fun t => { t with chan := t.chan.map fun k => { k with running := false, got := [] } } else s

end Sys2Proof.Machine
end

