-- ==== Sys2Proof/Machine/CopyRows.lean ====
section
/-!
DEFINITION. The rows cpy, chan, cpyq, bini, bexp, barr, bwait and cabt (R223, R232-R245).
-/

namespace Sys2Proof.Machine

/-- CPY as a trigger: Queues a copy command on a token (R232). -/
def trigCpy : Trigger := { ceTrig 1 (fun env s v => s.cpyAct env v) with check := fun env s _ => recordTrap env s, wait := cpyWait, results := fun _ => 1 }

/-- CPY: the bundle that holds this move alone issues (R232). -/
def execCpy (g : Guard) (src : Src) (s : State) : Host.Outcome State Fault Refusal :=
  s.issueSolo (soloMove g src (.trig trigCpy))

/-- CHAN as a trigger: Starts a copy channel at a head record (R233). -/
def trigChan : Trigger := { ceTrig 2 (fun env s v => s.chanAct env v) with check := fun env s _ => recordTrap env s, results := fun _ => 1 }

/-- CHAN: the bundle that holds this move alone issues (R233). -/
def execChan (g : Guard) (src : Src) (s : State) : Host.Outcome State Fault Refusal :=
  s.issueSolo (soloMove g src (.trig trigChan))

/-- CPYQ as a trigger: Reads, and optionally clears, a token word or a channel word (R237). -/
def trigCpyq : Trigger := { ceTrig 3 (fun env s v => s.cpyqAct env v) with results := fun _ => 1 }

/-- CPYQ: the bundle that holds this move alone issues (R237). -/
def execCpyq (g : Guard) (src : Src) (s : State) : Host.Outcome State Fault Refusal :=
  s.issueSolo (soloMove g src (.trig trigCpyq))

/-- BINI as a trigger: Initialises a barrier object through the SAQ (R239). -/
def trigBini : Trigger := { ceTrig 4 (fun env s v => s.barPush env (.bini (v.truncate 16))) with check := fun env s _ => barTrap env s, saq := true }

/-- BINI: the bundle that holds this move alone issues (R239). -/
def execBini (g : Guard) (src : Src) (s : State) : Host.Outcome State Fault Refusal :=
  s.issueSolo (soloMove g src (.trig trigBini))

/-- BEXP as a trigger: Adds an adjustment to a barrier's pending bytes (R239). -/
def trigBexp : Trigger := { ceTrig 5 (fun env s v => s.barPush env (.bexp (v.truncate 48))) with check := fun env s _ => barTrap env s, saq := true }

/-- BEXP: the bundle that holds this move alone issues (R239). -/
def execBexp (g : Guard) (src : Src) (s : State) : Host.Outcome State Fault Refusal :=
  s.issueSolo (soloMove g src (.trig trigBexp))

/-- BARR as a trigger: Arrives on a barrier after earlier stores are performed (R239). -/
def trigBarr : Trigger := { ceTrig 6 (fun env s v => s.barPush env (.barr (BitVec.ofNat 3 (scopeCode v.toNat)))) with check := fun env s _ => barTrap env s, saq := true }

/-- BARR: the bundle that holds this move alone issues (R239). -/
def execBarr (g : Guard) (src : Src) (s : State) : Host.Outcome State Fault Refusal :=
  s.issueSolo (soloMove g src (.trig trigBarr))

/-- BWAIT as a trigger: Blocks until the barrier's phase differs from the given parity (R239). -/
def trigBwait : Trigger := { ceTrig 7 (fun env s v => s.bwaitAct env v) with check := fun env s _ => bwaitTrap env s, wait := bwaitWait }

/-- BWAIT: the bundle that holds this move alone issues (R239). -/
def execBwait (g : Guard) (src : Src) (s : State) : Host.Outcome State Fault Refusal :=
  s.issueSolo (soloMove g src (.trig trigBwait))

/-- CABT as a trigger: Cancels the context's copy commands, and its channels when all is set (R245). -/
def trigCabt : Trigger := ceTrig 8 (fun env s v => s.cabtAct env v)

/-- CABT: the bundle that holds this move alone issues (R245). -/
def execCabt (g : Guard) (src : Src) (s : State) : Host.Outcome State Fault Refusal :=
  s.issueSolo (soloMove g src (.trig trigCabt))

end Sys2Proof.Machine
end

