-- ==== Sys2Proof/Machine/Matrix.lean ====
section
/-!
DEFINITION. The matrix engine, part one (14): tiles and control words (R247-R253), the bank allocator (R264, R265), calls (R256,
R262, R405) and the mx unit (R254-R259).
-/

namespace Sys2Proof.Machine

/-! ## Formats and control words -/

/-- The significand width of an operand's format; none where it is not a matrix operand (R247). -/
def matWidth (c : FmtCode) : Option Nat :=
  match fmtInfo c with
  | some (.fp f) =>
    if f.width ≤ 8 then some (if f.prec ≤ 2 then 2 else if f.prec ≤ 4 then 4 else 8)
    else if f = bf16 then some 8
    else if f = f16 then some 16
    else none
  | some (.int 2 _) => some 2
  | some (.int 4 _) => some 4
  | some (.int 8 _) => some 8
  | some (.int 16 _) => some 16
  | _ => none

/-- A tile control word's fields (R251). -/
def tcFmt (w : Word) : FmtCode := w.extractLsb' 0 7
def tcRows (w : Word) : Nat := (w.extractLsb' 12 7).toNat
def tcCols (w : Word) : Nat := (w.extractLsb' 19 12).toNat
def tcBsz (w : Word) : BitVec 2 := w.extractLsb' 34 2
def tcSoff (w : Word) : Nat := (w.extractLsb' 36 15).toNat
def tcStile (w : Word) : Nat := (w.extractLsb' 51 4).toNat
def tcBs (w : Word) : Bool := w.getLsbD 55

/-- Block size, blocks of a row, and bytes of a row. -/
def tcBlock (w : Word) : Nat := blockSize (tcBsz w)
def tcBlocks (w : Word) : Nat := (tcCols w + tcBlock w - 1) / tcBlock w
def tcRowBytes (w : Word) : Nat := (tcCols w * fmtWidth (tcFmt w) + 7) / 8

/-- A control word is valid for a tile of a mask (R249, R252). -/
def tcValid (tiles : BitVec 16) (t : Nat) (w : Word) : Bool :=
  tiles.getLsbD t && fmtAssigned (tcFmt w) && tcFmt w != fmtF64 && tcFmt w != fmtSc8
    && 1 ≤ tcRows w && tcRows w ≤ 64 && 1 ≤ tcCols w && tcCols w * fmtWidth (tcFmt w) ≤ 4096
    && (!tcBs w || (fmtBlockElem (tcFmt w) && tiles.getLsbD (tcStile w) && tcSoff w + tcRows w * tcBlocks w ≤ 32768
        && (tcStile w != t || 512 * tcRows w ≤ tcSoff w)))

/-! ## Tiles and accumulators of a worker (R249, R250, R253) -/

/-- The keys under which a worker's tile bytes and accumulator values stand. -/
def tileKey (uid t i : Nat) : Nat := (uid * 16 + t) * 32768 + i
def accKey (uid a i j : Nat) : Nat := ((uid * 4 + a) * 64 + i) * 64 + j

/-- A byte of a tile. -/
def Core.tile (k : Core) (uid t i : Nat) : Byte := tget 0 k.tileB (tileKey uid t i)

/-- Bytes of a tile written. -/
def Core.setTile (k : Core) (uid t : Nat) (l : List (Nat × Byte)) : Core :=
  { k with tileB := l.foldl (fun m p => if p.2 = 0 then m.filter (fun q => q.1 != tileKey uid t p.1) else tset m (tileKey uid t p.1) p.2) k.tileB }

/-- An accumulator's element, and elements written. -/
def Core.acc (k : Core) (uid a i j : Nat) : BitVec 32 := tget 0 k.accW (accKey uid a i j)
def Core.setAcc (k : Core) (uid a : Nat) (l : List (Nat × Nat × BitVec 32)) : Core :=
  { k with accW := l.foldl (fun m p =>
      let key := accKey uid a p.1 p.2.1
      if p.2.2 = 0 then m.filter (fun q => q.1 != key) else tset m key p.2.2) k.accW }

/-- Every element of an accumulator is +0. -/
def Core.zeroAcc (k : Core) (uid a : Nat) : Core :=
  { k with accW := k.accW.filter fun p => p.1 < accKey uid a 0 0 || accKey uid (a + 1) 0 0 ≤ p.1 }

/-- n bytes of a tile. -/
def Core.tileBytes (k : Core) (uid t i n : Nat) : List Byte := (List.range n).map fun j => k.tile uid t (i + j)

/-- Val(T, r, c) of R271, for a tile under its control word. -/
def Core.tileVal (k : Core) (uid t : Nat) (w : Word) (r c : Nat) : XR :=
  let f := tcFmt w
  let b := fmtWidth f
  let bs := k.tileBytes uid t (512 * r + c * b / 8) ((b + 7) / 8)
  let code := if 8 ≤ b then bytesNat bs else bytesNat bs / 2 ^ (c * b % 8) % 2 ^ b
  if tcBs w then scaleBy (fmtDecode f code) (k.tile uid (tcStile w) (tcSoff w + r * tcBlocks w + c / tcBlock w)).toNat
  else fmtDecode f code

/-! ## The bank allocator (R264, R265) -/

/-- The banks of a mask, and how many they are. -/
def bankCount (m : BitVec 16) : Nat := (List.range 16).countP fun i => m.getLsbD i

/-- The n lowest-numbered banks of a mask. -/
def lowBanks (n : Nat) (m : BitVec 16) : BitVec 16 :=
  ((List.range 16).foldl (fun (acc : BitVec 16 × Nat) i =>
    if m.getLsbD i && acc.2 < n then (acc.1 ||| (1#16 <<< i), acc.2 + 1) else acc) (0, 0)).1

/-- What a holding holds, and the request it waits with. -/
def Core.hold (k : Core) (uid : Nat) : BitVec 16 := tget 0 k.holds uid
def Core.request (k : Core) (uid : Nat) : Option Nat := ((k.bankQ ++ k.bankNew).find? fun r => r.uid = uid).map (·.n)

/-- Free banks: neither held nor released in this cycle. -/
def Core.freeBanks (k : Core) : BitVec 16 := ~~~(k.holds.foldl (fun m h => m ||| h.2) k.bankRel)

/-- A holding keeps its n lowest-numbered banks (R264, R265). -/
def Core.trim (k : Core) (uid n : Nat) : Core :=
  let h := k.hold uid
  let keep := lowBanks n h
  { k with holds := if keep = 0 then k.holds.filter (fun p => p.1 != uid) else tset k.holds uid keep
           bankRel := k.bankRel ||| (h &&& ~~~keep) }

/-- A holding asks for a total of n banks: what it covers it has at once, else it releases all and waits (R264). -/
def Core.wantBanks (k : Core) (uid ctx n : Nat) : Core :=
  if n ≤ bankCount (k.hold uid) then k.trim uid n
  else
    let k := k.trim uid 0
    { k with bankNew := k.bankNew ++ [{ uid := uid, ctx := ctx, n := n }] }

/-- A call that waits for banks: it keeps an outstanding request, runs on what it holds, or asks (R264). -/
def Core.callBanks (k : Core) (m : MatCall) : Core :=
  if m.phase != .waiting || (k.request m.uid).isSome then k
  else
    let k' := k.wantBanks m.uid m.ctx m.need
    if (k'.request m.uid).isSome then k'
    else { k' with calls := k'.calls.map fun n => if n.id = m.id then { n with phase := .running } else n }

/-- Grants while the FIFO's head can be served: at most one a request. -/
def Core.grants : Nat → Core → Core
  | 0, k => k
  | f + 1, k =>
    match k.bankQ with
    | [] => k
    | r :: rs =>
      if bankCount k.freeBanks < r.n then k
      else ({ k with bankQ := rs, holds := tset k.holds r.uid (lowBanks r.n k.freeBanks) } : Core).grants f

/-- Requests sorted by context number. -/
def sortReqs (l : List BankReq) : List BankReq := [0, 1, 2, 3].flatMap fun x => l.filter fun r => r.ctx = x

/-- The end of a cycle at the allocator (R264): releases, new requests, grants; a granted call runs from the next cycle. -/
def Core.allocate (k : Core) : Core :=
  let k := { k with bankRel := 0, bankQ := k.bankQ ++ sortReqs k.bankNew, bankNew := [] }
  let k := k.grants k.bankQ.length
  k.calls.foldl (fun k m => k.callBanks m) k

/-- BANK_GRANT (R264): the last act of a cycle at a core's allocator. -/
def execBankGrant (s : State) : Host.Outcome State Fault Refusal := .next (s.updCore s.focus.c Core.allocate)

/-! ## The store and the routine table (R258, R260) -/

/-- A table entry, and a store word. -/
def Core.routine (k : Core) (ctx idx : Nat) : Word := tget 0 k.rtab (routineKey ctx idx)
def Core.storeWord (k : Core) (i : Nat) : Word := tget 0 k.mstore i

/-- An entry's fields. -/
def rtValid (w : Word) : Bool := w.getLsbD 0
def rtEntry (w : Word) : Nat := (w.extractLsb' 12 10).toNat
def rtBanks (w : Word) : Nat := (w.extractLsb' 23 5).toNat
def rtWb (w : Word) : Nat := 2 ^ ((w.extractLsb' 28 2).toNat + 1)
def rtWa (w : Word) : Nat := 2 ^ ((w.extractLsb' 30 2).toNat + 1)
def rtMaxk (w : Word) : Nat := (w.extractLsb' 32 16).toNat + 1
def rtRo (w : Word) (t : Nat) : Bool := w.getLsbD (48 + t)

/-! ## Calls (R256, R262) -/

/-- The fields of an mcall's t. -/
def callIdx (t : Word) : Nat := (t.extractLsb' 0 8).toNat
def callAcq (t : Word) : Bool := t.getLsbD 12
def callScope (t : Word) : Nat := scopeCode (t.extractLsb' 14 3).toNat
def callRel (t : Word) : Bool := t.getLsbD 13
def callNan (t : Word) : Bool := t.getLsbD 17
def callA (t : Word) : Option Nat := if t.getLsbD 30 then some (t.extractLsb' 18 12).toNat else none
def callB (t : Word) : Option Nat := if t.getLsbD 43 then some (t.extractLsb' 31 12).toNat else none

/-- Changes a call of a core, by its number. -/
def State.updCall (s : State) (c id : Nat) (f : MatCall → MatCall) : State :=
  s.updCore c fun k => { k with calls := k.calls.map fun m => if m.id = id then f m else m }

/-- Where a call's accesses are translated; what it writes in the CXL tier is followed to the expander, for its SIGNALs and its release (R204). -/
def MatCall.view (m : MatCall) (c : Nat) : View := { c := c, wins := m.wins, launch := m.launch, tier := some m.id }

/-- The end of a call (R262): its token and counter; the last call of an ended worker frees what that worker held (R405). -/
def State.endCall (s : State) (c : Nat) (m : MatCall) (status : Nat) : State :=
  let s := s.updCore c fun k => { k with calls := k.calls.filter fun n => n.id != m.id }
  let s := s.callEnd m status
  if m.orphan then s.updCore c fun k => if k.calls.any fun n => n.uid = m.uid then k else k.freeMatrix m.uid else s

/-- The banks a call needs (R262). -/
def callNeed (e : Word) (wa wb : Nat) : Nat :=
  let eff := wa / 2 * (wb / 2)
  let decl := rtWa e / 2 * (rtWb e / 2)
  Nat.min 16 (Nat.max 1 ((rtBanks e * eff + decl - 1) / decl))

/-- A queued call starts once the context's previous call has ended and its acquire is satisfied (R216, R262): it reads its entry and
its Compass entries and asks for its banks. An entry that is not valid any more ends it with status 2 (log 73). -/
def State.callStart (s : State) (c i : Nat) : State :=
  match (s.core c).calls[i]? with
  | none => s
  | some m =>
    if m.phase != .queued || ((s.core c).calls.take i).any (fun n => n.uid = m.uid) then s
    else if callAcq m.t && !s.ownerDone c m.uid m.seq (callScope m.t) then s
    else
      let e := (s.core c).routine m.ctx (callIdx m.t)
      let ca := match callA m.t with | some k => (s.entry k).word | none => 0
      let cb := match callB m.t with | some k => (s.entry k).word | none => 0
      let bad : Option Nat → Word → Bool := fun o w => o.isSome && !entValid w
      if !rtValid e || bad (callA m.t) ca || bad (callB m.t) cb then s.endCall c m 2
      else
        let wa := if (callA m.t).isSome then (matWidth (entFmt ca)).getD (rtWa e) else rtWa e
        let wb := if (callB m.t).isSome then (matWidth (entFmt cb)).getD (rtWb e) else rtWb e
        let m := { m with phase := .waiting, entry := e, ca := ca, cb := cb, need := callNeed e wa wb, upc := rtEntry e
                          lc := Vector.replicate 4 0, depth := Vector.replicate 4 0 }
        (s.updCall c m.id fun _ => m).updCore c fun k => k.callBanks m

/-- MATRIX_CALL_START (R262): call i of a core's queue. -/
def execMatrixCallStart (s : State) : Host.Outcome State Fault Refusal := .next (s.callStart s.focus.c s.focus.i)

/-! ## The mx unit (R254-R259) -/

/-- A mx trigger, of weight 2 (R171). -/
def mxTrig (off : Nat) (act : Env → State → Word → State) : Trigger :=
  { unit := .mx, code := 0x300 + off, weight := fun _ _ _ => 2, act := fun env s v => act env s (v.truncate 64) }

/-- A result of mx, with latency 2. -/
def State.mxResult (s : State) (env : Env) (w : Word) : State := s.result env .mx (w.zeroExtend 2048) 2 0

/-- The weight of an mcall: 24, and 8 for each bank that the routine wants (R171). -/
def mcallWeight (env : Env) (s : State) (v : Word) : Nat :=
  let e := (s.core env.c).routine env.x (callIdx v)
  24 + if rtValid e then 8 * rtBanks e else 0

/-- mcall blocks while the call queue is full. -/
def mcallWait (env : Env) (s : State) (_ : VWord) : Wait := if (s.core env.c).calls.length < 16 then .ready else .block

/-- mcall (R255, R256). -/
def State.mcallAct (s : State) (env : Env) (v : Word) : State :=
  let tok := if v.getLsbD 11 then none else some (v.extractLsb' 8 3).toNat
  let full : Bool := match tok with | some i => 255 ≤ (vget (s.ctx env.c env.x).tok i {}).count | none => false
  if !rtValid ((s.core env.c).routine env.x (callIdx v)) then s.mxResult env 2
  else if full then s.mxResult env 1
  else
    let w := env.t0.worker
    let m : MatCall :=
      { id := s.nextId, ctx := env.x, uid := env.t0.uid, tiles := env.t0.tiles, accs := env.t0.accs, t := v
        seq := (s.ctx env.c env.x).seq, phase := .queued, mp := env.lat.mp, tc := env.lat.tc, wins := env.t0.wins, vi := env.t0.vi
        launch := env.t0.launch, die := dieOf env.c, dieRank := match w with | some k => k.dieRank | none => 0 }
    let s : State := { s with nextId := s.nextId + 1 }
    let s := s.updCore env.c fun k => { k with calls := k.calls ++ [m] }
    let s := s.updCtx env.c env.x fun t =>
      { t.tokenStart tok with seq := t.seq + 1, cnt := { t.cnt with tiles := t.cnt.tiles + 1 } }
    s.mxResult env 0

/-- The number of banks that mgrant and mrel name. -/
def bankArg (v : Word) : Nat := v.toNat % 32

/-- mgrant (R264, R265). -/
def State.mgrantAct (s : State) (env : Env) (v : Word) : State :=
  let n := bankArg v
  if n = 0 || 16 < n || ((s.core env.c).request env.t0.uid).isSome then s.mxResult env 1
  else (s.updCore env.c fun k => k.wantBanks env.t0.uid env.x n).mxResult env 0

/-- mrel (R264, R265). -/
def State.mrelAct (s : State) (env : Env) (v : Word) : State :=
  let n := bankArg v
  s.updCore env.c fun k =>
    if (k.request env.t0.uid).isSome || bankCount (k.hold env.t0.uid) ≤ n then k else k.trim env.t0.uid n

/-- The word that mstat reads (R257). -/
def State.mstat (s : State) (env : Env) (sel : Nat) : Nat :=
  let k := s.core env.c
  let uid := env.t0.uid
  let t := s.ctx env.c env.x
  if sel < 16 then (if t.tiles.getLsbD sel then (vget env.lat.tc sel 0).toNat else 0)
  else if sel = 0x10 then
    let n := (k.request uid).getD 0
    bankCount (k.hold uid) + n * 2 ^ 5 + (if (k.request uid).isSome then 2 ^ 10 else 0) + (k.hold uid).toNat * 2 ^ 16
  else if sel = 0x11 then
    let cs := k.calls.filter fun m => m.uid = uid
    let run := cs.find? fun m => m.phase = .running
    cs.length % 32 + (if run.isSome then 2 ^ 5 else 0) + (if cs.any fun m => m.phase = .suspended then 2 ^ 6 else 0)
      + match run with | some m => callIdx m.t * 2 ^ 7 + m.upc % 2 ^ 10 * 2 ^ 15 | none => 0
  else if sel = 0x12 then t.mxnan.toNat
  else if sel = 0x13 then bankCount k.freeBanks + Nat.min 7 k.bankQ.length * 2 ^ 5
  else 0

/-- mstat (R257). -/
def State.mstatAct (s : State) (env : Env) (v : Word) : State := s.mxResult env (BitVec.ofNat 64 (s.mstat env (v.toNat % 256)))

/-- mwr (R258): the address is the system context's mp0. -/
def State.mwrAct (s : State) (env : Env) (v : Word) : State :=
  let a := vget env.lat.mp 0 0
  s.updCore env.c fun k =>
    if a.getLsbD 13 then { k with rtab := tset k.rtab (routineKey (a.extractLsb' 11 2).toNat (a.toNat % 256)) (routineLoad v) }
    else { k with mstore := tset k.mstore (a.toNat % 4096) v }

/-- mabt (R259). -/
def State.mabtAct (s : State) (env : Env) (v : Word) : State :=
  s.cancelCalls env.t0.uid (v.truncate 8) (v.getLsbD 8)

end Sys2Proof.Machine
end

