-- ==== Sys2Proof/Machine/MatrixRows.lean ====
section
/-!
DEFINITION. The rows mcall, mgrant, mrel, mstat, mwr and mabt (R254-R259, R265).
-/

namespace Sys2Proof.Machine

/-- MCALL as a trigger: Queues a matrix microprogram call (R256). -/
def trigMcall : Trigger := { mxTrig 24 (fun env s v => s.mcallAct env v) with weight := mcallWeight, wait := mcallWait, results := fun _ => 1 }

/-- MCALL: the bundle that holds this move alone issues (R256). -/
def execMcall (g : Guard) (src : Src) (s : State) : Host.Outcome State Fault Refusal :=
  s.issueSolo (soloMove g src (.trig trigMcall))

/-- MGRANT as a trigger: Requests or shrinks a bank holding (R264). -/
def trigMgrant : Trigger := { mxTrig 25 (fun env s v => s.mgrantAct env v) with results := fun _ => 1 }

/-- MGRANT: the bundle that holds this move alone issues (R264). -/
def execMgrant (g : Guard) (src : Src) (s : State) : Host.Outcome State Fault Refusal :=
  s.issueSolo (soloMove g src (.trig trigMgrant))

/-- MREL as a trigger: Releases banks down to n (R265). -/
def trigMrel : Trigger := mxTrig 26 (fun env s v => s.mrelAct env v)

/-- MREL: the bundle that holds this move alone issues (R265). -/
def execMrel (g : Guard) (src : Src) (s : State) : Host.Outcome State Fault Refusal :=
  s.issueSolo (soloMove g src (.trig trigMrel))

/-- MSTAT as a trigger: Returns a tile word or the grant, call, MXNAN or allocator status (R257). -/
def trigMstat : Trigger := { mxTrig 27 (fun env s v => s.mstatAct env v) with results := fun _ => 1 }

/-- MSTAT: the bundle that holds this move alone issues (R257). -/
def execMstat (g : Guard) (src : Src) (s : State) : Host.Outcome State Fault Refusal :=
  s.issueSolo (soloMove g src (.trig trigMstat))

/-- MWR as a trigger: The system context writes a microprogram store word or a routine-table entry (R258). -/
def trigMwr : Trigger := mxTrig 28 (fun env s v => s.mwrAct env v)

/-- MWR: the bundle that holds this move alone issues (R258). -/
def execMwr (g : Guard) (src : Src) (s : State) : Host.Outcome State Fault Refusal :=
  s.issueSolo (soloMove g src (.trig trigMwr))

/-- MABT as a trigger: Cancels the context's matrix calls (R259). -/
def trigMabt : Trigger := mxTrig 29 (fun env s v => s.mabtAct env v)

/-- MABT: the bundle that holds this move alone issues (R259). -/
def execMabt (g : Guard) (src : Src) (s : State) : Host.Outcome State Fault Refusal :=
  s.issueSolo (soloMove g src (.trig trigMabt))

end Sys2Proof.Machine
end

