-- ==== Sys2Proof/Machine/Micro.lean ====
section
/-!
DEFINITION. The matrix engine, part two (14): the micro-operations (R266-R275), MXNAN (R276, R277), suspension (R278) and read-only
staging (R279). Each step is of the running call at a place of its core's queue, and does something only when that call stands at
a micro-operation of the step's kind.
-/

namespace Sys2Proof.Machine

/-! ## A call's next micro-operation -/

/-- The micro-word at a call's micro-address; none outside its region (R266). -/
def Core.microWord (k : Core) (m : MatCall) : Option Word :=
  if callIdx m.t < 64 then (if m.upc ≤ 1023 then some (k.storeWord m.upc) else none)
  else if m.upc ≤ 767 then some (k.storeWord (1024 + 768 * m.ctx + m.upc)) else none

/-- Whether a call is at a retirement point (R278): its depth counters are 0, and no TLD is under way. -/
def MatCall.retired (m : MatCall) : Bool := (m.depth.all fun d => d = 0) && m.got.isEmpty && m.lost.isEmpty && m.busy.isNone

/-- The worker of a call is being saved. -/
def State.callSaving (s : State) (c : Nat) (m : MatCall) : Bool := !m.orphan && (s.ctx c m.ctx).saving

/-- A call is suspended at a retirement point and releases its banks (R278). -/
def State.suspendCall (s : State) (c : Nat) (m : MatCall) : State :=
  s.updCore c fun k => ({ k with calls := k.calls.map fun n => if n.id = m.id then { n with phase := .suspended, sync := none } else n } : Core).releaseBanks m.uid

/-- What a micro-operation does to its call. -/
inductive MicroRes where
  /-- it waits: its state is given with what it has asked for -/
  | wait (s : State)
  /-- the next micro-operation, or the one at an address -/
  | next (s : State)
  | jump (s : State) (upc : Nat)
  /-- the call ends with a status -/
  | ends (s : State) (status : Nat)

/-- A step of the micro-operation of opcode op: f is what it does. A call outside its region, or at an opcode from 11 on, ends with
status 2, whatever step finds it; one whose context is being saved is suspended at a retirement point. -/
def State.microStep (s : State) (c i op : Nat) (f : State → MatCall → Word → MicroRes) : State :=
  match (s.core c).calls[i]? with
  | none => s
  | some m =>
    if m.phase != .running then s
    else if m.retired && s.callSaving c m then s.suspendCall c m
    else
      let finish : State → Nat → State := fun s st =>
        match ((s.core c).calls.find? fun n => n.id = m.id) with
        | some n => s.endCall c n st
        | none => s
      match (s.core c).microWord m with
      | none => finish s 2
      | some w =>
        if 11 ≤ w.toNat / 2 ^ 60 then finish s 2
        else if w.toNat / 2 ^ 60 != op then s
        else
          match f s m w with
          | .wait s => s
          | .next s => s.updCall c m.id fun n => { n with upc := n.upc + 1 }
          | .jump s u => s.updCall c m.id fun n => { n with upc := u }
          | .ends s st => finish s st

/-- A parameter of a call. -/
def MatCall.par (m : MatCall) (i : Nat) : Word := vget m.mp i 0

/-- A field of a micro-word. -/
def fld (w : Word) (hi lo : Nat) : Nat := w.toNat / 2 ^ lo % 2 ^ (hi - lo + 1)

/-- Marks a call slow, or with nf (R243, R262). -/
def State.callSlow (s : State) (c : Nat) (m : MatCall) : State := s.updCall c m.id fun n => { n with slow := true }
def State.callNf (s : State) (c : Nat) (m : MatCall) (f : Bool) : State := s.updCall c m.id fun n => { n with nf := n.nf || f }

/-- The status that failures give a call: 5 for an uncorrectable error, else 4 (R243). -/
def failStatus (es : List Cause) : Nat := if es.contains .eccu then 5 else 4

/-- The failures of some accesses, but for pages to wait for. -/
def State.accessFails (s : State) (v : View) (need : Need) (l : List Int) : List Cause :=
  l.filterMap fun a => match s.engineAt v a need with | .error k => some k | .ok _ => none

/-! ## HALT (R275) -/

/-- Bytes that a call has written in the CXL tier are on their way to the expander (R204, R262). -/
def State.callInTier (s : State) (c : Nat) (m : MatCall) : Bool := (s.die (dieOf c)).exp.any fun w => w.ctx = 5 && w.seq = m.id

/-- HALT ends the call with status 0, once its writes are performed as its release requires (R216, R262). -/
def State.halt (s : State) (c : Nat) (m : MatCall) : MicroRes := if callRel m.t && callScope m.t = 6 && s.callInTier c m then .wait s else .ends s 0

/-- HALT (R275). -/
def execHalt (s : State) : Host.Outcome State Fault Refusal :=
  .next (s.microStep s.focus.c s.focus.i 0 fun s m _ => s.halt s.focus.c m)

/-! ## Tiles and memory (R267, R268) -/

/-- The spans of a tile in memory: address, place in a tile, and bytes, by row; its scales follow when it is block-scaled. -/
def tileSpans (t : Nat) (w : Word) (a st q : Word) : List (Int × Nat × Nat × Nat) :=
  let row : Nat → Int := fun r => (a.toNat : Int) + (r : Int) * st.toInt
  ((List.range (tcRows w)).map fun r => (row r, t, 512 * r, tcRowBytes w))
    ++ if tcBs w then
        (List.range (tcRows w)).map fun r =>
          (((q.toNat + r * tcBlocks w : Nat) : Int), tcStile w, tcSoff w + r * tcBlocks w, tcBlocks w)
      else []

/-- The bytes of spans: address, tile, and place in it. -/
def spanBytes (l : List (Int × Nat × Nat × Nat)) : List (Int × Nat × Nat) :=
  l.flatMap fun e => (List.range e.2.2.2).map fun (j : Nat) => (e.1 + (j : Int), e.2.1, e.2.2.1 + j)

/-- The bytes of a tile's rows past what a load reads (R267). -/
def tileRest (w : Word) : List (Nat × Byte) :=
  (List.range (tcRows w)).flatMap fun r => (List.range (512 - tcRowBytes w)).map fun j => (512 * r + tcRowBytes w + j, 0)

/-- How the tiles that a TLD writes came to be staged (R279): its own, and the one that takes its scales; each is kept when the routine marks it
read-only. -/
def State.stageTile (s : State) (m : MatCall) (t : Nat) (cm : BitVec 2) (pa ps pq tc ent : Word) : State :=
  let wrote := if tcBs tc && tcStile tc != t then [t, tcStile tc] else [t]
  let mk : Nat → RoTile := fun i => { tile := i, load := t, cm := cm, pa := pa, ps := ps, pq := pq, tc := tc, entry := ent }
  s.updOwner m.uid fun k =>
    { k with roTiles := (k.roTiles.filter fun r => !wrote.contains r.tile) ++ (wrote.filter fun i => rtRo m.entry i).map mk }

/-- What an act of a TLD comes to, with the call as it then is. -/
inductive TldRes where
  | wait (s : State) (m : MatCall)
  | next (s : State) (m : MatCall)
  | ends (s : State) (m : MatCall) (status : Nat)

/-- A TLD waits for pages. -/
def State.tldFill (s : State) (c : Nat) (m : MatCall) (vas : List Int) : TldRes :=
  .wait (s.engineFill (m.view c) vas) { m with slow := true }

/-- The end of a TLD: the call goes on, or ends with the status of what the firmware path could not do (R243). -/
def tldEnd (s : State) (m : MatCall) (es : List Cause) : TldRes :=
  let m := { m with got := [], lost := [] }
  if es.isEmpty then .next s m else .ends s { m with slow := true } (failStatus es)

/-- What a plain TLD writes whole or not at all (R243): the bytes of an element; a block with its scale. -/
def tileUnits (t : Nat) (w a st q : Word) : List (List (Int × Nat × Nat)) :=
  let row : Nat → Int := fun r => (a.toNat : Int) + (r : Int) * st.toInt
  (List.range (tcRows w)).flatMap fun r =>
    if tcBs w then
      (List.range (tcBlocks w)).map fun j =>
        let lo := j * tcBlock w * fmtWidth (tcFmt w) / 8
        let n := (Nat.min (tcBlock w) (tcCols w - j * tcBlock w) * fmtWidth (tcFmt w) + 7) / 8
        spanBytes [(row r + (lo : Int), t, 512 * r + lo, n),
          (((q.toNat + r * tcBlocks w + j : Nat) : Int), tcStile w, tcSoff w + r * tcBlocks w + j, 1)]
    else
      let n := Nat.max 1 (fmtWidth (tcFmt w) / 8)
      (List.range (tcRowBytes w / n)).map fun j => spanBytes [(row r + ((n * j : Nat) : Int), t, 512 * r + n * j, n)]

/-- The plain form of TLD: what depends on a sector that cannot be read leaves the tile as it is, and the call ends. -/
def State.tldPlain (s : State) (c : Nat) (m : MatCall) (t : Nat) (w a st q : Word) : TldRes :=
  let v := m.view c
  let bs := spanBytes (tileSpans t w a st q)
  let es := s.accessFails v .read (bs.map (·.1))
  if es.contains .resid then s.tldFill c m (bs.map (·.1))
  else
    let bad := (bs.filter fun p => match s.engineAt v p.1 .read with | .error _ => true | .ok _ => false).map fun p => sectorAt p.1
    let bs := if es.isEmpty then bs else ((tileUnits t w a st q).filter fun u => !(u.any fun p => bad.contains (sectorAt p.1))).flatten
    let got := bs.filterMap fun p => match s.engineByte v p.1 with | .ok b => some (p.2.1, p.2.2, b) | .error _ => none
    let put : Core → Core := fun k =>
      let k := k.setTile m.uid t (tileRest w)
      got.foldl (fun k p => k.setTile m.uid p.1 [(p.2.1, p.2.2)]) k
    tldEnd ((s.updCore c put).stageTile m t 0 a st q w 0) m es

/-- An element of a bound tile: outside the tensor, or its tile of the tensor and its place there. -/
def boundElem (sh : Shape) (row0 col0 r c : Nat) : Option (Nat × Nat) :=
  let i0 := col0 + c
  let i1 := row0 + r
  if sh.ext0 ≤ i0 || sh.exts.getD 1 1 ≤ i1 then none
  else
    let n := i1 * sh.ext0 + i0
    some (n / 8192, n % 8192)

/-- The stamp of an element's tile, its tile and its place; none outside the tensor; the failure of a tile that is lost. -/
def State.stampOf (s : State) (v : View) (sh : Shape) (lost : List (Nat × Cause)) : Option (Nat × Nat) → Except Cause (Option (Nat × Nat × Nat))
  | none => .ok none
  | some (k, o) =>
    match lost.lookup k with
    | some e => .error e
    | none => (s.tileStamp v sh k).map fun st => some (st, k, o)

/-- A run of a bound tile's row that becomes one block, or one element where there are no blocks: its codes, its scale, and whether an
encoding produced a NaN or infinity (R267). -/
def State.boundRun (s : State) (v : View) (sh : Shape) (base : Int) (ent : Word) (aligned : Bool) (lost : List (Nat × Cause))
    (es : List (Option (Nat × Nat))) : Except Cause (List Nat × Nat × Bool) :=
  let f := entFmt ent
  match collect (es.map (s.stampOf v sh lost)) with
  | .error k => .error k
  | .ok es =>
    let same := es.all fun e => match e with
      | some (st, _, _) => stampFmt st = f && (!fmtBlockElem f || stampBsz st = entBsz ent)
      | none => true
    if es.all Option.isNone then .ok (es.map fun _ => 0, 0, false)
    else
      match collect (es.map fun e => match e with | some (st, k, o) => (s.tileElem v sh base st k o).map some | none => .ok none) with
      | .error k => .error k
      | .ok xs =>
        let val : Option Elem → XR := fun x => match x with | some e => e.exact | none => .fin false 0 0
        if same && (aligned || !fmtBlockElem f) then
          .ok (xs.map (fun x => match x with | some (.plain _ c) => c | some (.scaled _ _ _ c _) => c | _ => 0),
            (xs.findSome? fun x => match x with | some (.scaled _ _ _ _ sc) => some sc | _ => none).getD 0, false)
        else if fmtBlockElem f then
          let k := encodeBlock (xs.map val) f 0 0
          .ok (k.codes, k.scale, k.nfs && fmtIsFp f)
        else
          let rs := xs.map fun x => roundFmt f 0 0 (val x).toRV
          .ok (rs.map (·.bits), 0, fmtIsFp f && rs.any (·.nfs))

/-- The control word of a bound tile: the entry's format and block size, block-scaled exactly where R81 allows it. -/
def boundWord (w ent : Word) : Word :=
  let keep := w &&& ~~~(BitVec.ofNat 64 (2 ^ 55 + 3 * 2 ^ 34 + 0x7F))
  keep ||| BitVec.ofNat 64 ((if fmtBlockElem (entFmt ent) then 2 ^ 55 else 0) + (entBsz ent).toNat * 2 ^ 34 + (entFmt ent).toNat)

/-- The elements of a block of a bound tile's row, or of one element where there are no blocks: how many. -/
def boundLen (w : Word) : Nat := if tcBs w then tcBlock w else 1

/-- The runs of a row of a bound tile, with the columns of each. -/
def State.boundRow (s : State) (v : View) (sh : Shape) (base : Int) (ent w : Word) (lost : List (Nat × Cause)) (row0 col0 r : Nat) :
    List (Nat × Except Cause (List Nat × Nat × Bool)) :=
  let b := boundLen w
  (List.range ((tcCols w + b - 1) / b)).map fun j =>
    let n := Nat.min b (tcCols w - j * b)
    (n, s.boundRun v sh base ent (col0 % b = 0) lost ((List.range n).map fun i => boundElem sh row0 col0 r (j * b + i)))

/-- The 512 bytes of a row as its runs leave them: what could not be formed stays (R243); bytes past the row's become zero, as R267 says of the
plain form (log 73). -/
def boundRowBytes (w : Word) (runs : List (Nat × Except Cause (List Nat × Nat × Bool))) (old : List Byte) : List Byte :=
  let f := fmtWidth (tcFmt w)
  let cs : List (Option Nat) := runs.flatMap fun e => match e.2 with | .ok x => x.1.map some | .error _ => List.replicate e.1 none
  let new := packCodes f (cs.map fun x => x.getD 0)
  let keep := packCodes f (cs.map fun x => if x.isSome then 0 else 2 ^ f - 1)
  (List.range 512).map fun j => (new.getD j 0 &&& ~~~(keep.getD j 0)) ||| (old.getD j 0 &&& keep.getD j 0)

/-- A row of a bound tile is written: its codes, and the scales of the blocks that could be formed. -/
def Core.putRow (k : Core) (uid t : Nat) (w : Word) (r : Nat) (runs : List (Nat × Except Cause (List Nat × Nat × Bool))) : Core :=
  let bs := boundRowBytes w runs (k.tileBytes uid t (512 * r) 512)
  let k := k.setTile uid t (bs.zipIdx.map fun x => (512 * r + x.2, x.1))
  if tcBs w then
    k.setTile uid (tcStile w) (runs.zipIdx.filterMap fun x => match x.1.2 with
      | .ok y => some (tcSoff w + r * tcBlocks w + x.2, BitVec.ofNat 8 y.2.1)
      | .error _ => none)
  else k

/-- The addresses that a bound TLD touches in a tensor's tile, for the fills it asks for. -/
def boundVas (sh : Shape) (base : Int) (k : Nat) : List Int :=
  [sh.tileStamp k, sh.tileScale k, sh.tileScale k + 511, sh.tileBase base k, sh.tileBase base k + (if sh.tw then 16383 else 8191)]

/-- A failure of a micro-operation's access: a page is waited for, another failure ends the call (R243). -/
def State.boundFail (s : State) (c : Nat) (m : MatCall) (e : Cause) (vas : List Int) : MicroRes :=
  if e = .resid then .wait ((s.engineFill (m.view c) vas).callSlow c m) else .ends (s.callSlow c m) (failStatus [e])

/-- A tile of the tensor cannot be delivered: a page is waited for, or the tile is lost to this TLD (R243). -/
def State.tileLost (s : State) (c : Nat) (m : MatCall) (k : Nat) (e : Cause) (vas : List Int) : TldRes :=
  if e = .resid then s.tldFill c m vas else .wait s { m with busy := none, lost := m.lost ++ [(k, e)], slow := true }

/-- An act of the work on the tile whose stamp a call has set busy (R242). -/
def State.tldWork (s : State) (c : Nat) (m : MatCall) (sh : Shape) (base : Int) (ent : Word) (w : TileWork) (i : Nat) : TldRes :=
  match s.tileAct (m.view c) sh base ent w i with
  | .next s w _ => .wait s { m with busy := some w }
  | .done s nf => .wait s { m with busy := none, nf := m.nf || nf }
  | .fails e =>
    let s := if e = .resid then s else s.giveUpTile (m.view c) sh base ent w
    s.tileLost c m w.tile e (boundVas sh base w.tile)

/-- The bound form of TLD (R267), once its shape record has been read and checked: a stale tile of the tensor is re-encoded first (R242), i
choosing among the pieces of that work; then the rows are read and written. -/
def State.tldBound (s : State) (c : Nat) (m : MatCall) (i t : Nat) (w : Word) (cm : BitVec 2) (sh : Shape) (a p q ent : Word) : TldRes :=
  let v := m.view c
  let base : Int := (q.toNat : Int)
  let row0 := p.toNat % 2 ^ 32
  let col0 := p.toNat / 2 ^ 32
  let ks := ((List.range (tcRows w)).flatMap fun r => (List.range (tcCols w)).filterMap fun j => (boundElem sh row0 col0 r j).map (·.1)).foldl
    (fun (l : List Nat) k => if l.contains k then l else l ++ [k]) []
  match m.busy with
  | some b => s.tldWork c m sh base ent b i
  | none =>
    match (ks.filter fun k => (m.lost.lookup k).isNone).findSome? fun k => match s.tileDue v sh ent k with | .deliver _ => none | d => some (k, d) with
    | some (_, .wait) => .wait s m
    | some (k, .fails e) => s.tileLost c m k e (boundVas sh base k)
    | some (k, .reencode st) =>
      (match s.setBusy v sh k st with
      | .ok s => .wait s { m with busy := some { src := true, tile := k, stamp := st } }
      | .error e => s.tileLost c m k e (boundVas sh base k))
    | _ =>
      let rows := (List.range (tcRows w)).map fun r => s.boundRow v sh base ent w m.lost row0 col0 r
      let es := rows.flatMap fun l => l.filterMap fun e => match e.2 with | .error k => some k | .ok _ => none
      if es.contains .resid then s.tldFill c m (ks.flatMap (boundVas sh base))
      else
        let nf := rows.any fun l => l.any fun e => match e.2 with | .ok x => x.2.2 | .error _ => false
        let s := s.updCore c fun k => rows.zipIdx.foldl (fun k e => k.putRow m.uid t w e.2 e.1) k
        tldEnd (s.stageTile m t cm a p q w ent) { m with tc := vset m.tc t w, nf := m.nf || nf } es

/-- A sector of a bound TLD's shape record is read (R235, R267). -/
def State.tldSector (s : State) (c : Nat) (m : MatCall) (a : Nat) : TldRes :=
  let l := spanOf (a : Nat) 32
  match s.engineBytes (m.view c) l with
  | .ok bs => .wait s { m with got := m.got ++ [(a, BitVec.ofNat 256 (bytesNat bs))] }
  | .error .resid => s.tldFill c m l
  | .error e => tldEnd s m [e]

/-- The parameters of a call's TLD: tile, and the words at pa, ps and pq. -/
def MatCall.tldArgs (m : MatCall) (w : Word) : Nat × Word × Word × Word :=
  (fld w 59 56, m.par (fld w 55 53), m.par (fld w 52 50), m.par (fld w 49 47))

/-- The Compass entry that a form binds, and its word. -/
def MatCall.bound (m : MatCall) (cm : Nat) : Option (Nat × Word) :=
  if cm = 1 then (callA m.t).map (·, m.ca) else if cm = 2 then (callB m.t).map (·, m.cb) else none

/-- An act of a TLD; i chooses among sectors and pieces. The shape record lies at mp[pa] with its low 6 bits clear, and an operand that is not
bound or a record that fails its checks ends the call with status 2 (log 73). -/
def State.tldAct (s : State) (c : Nat) (m : MatCall) (i : Nat) (w : Word) : TldRes :=
  let (t, a, p, q) := m.tldArgs w
  let v := m.view c
  let tc := vget m.tc t 0
  let cm := fld w 46 45
  if !tcValid m.tiles t tc then .ends s m 2
  else if cm = 0 then s.tldPlain c m t tc a p q
  else
    match m.bound cm with
    | none => .ends s m 2
    | some (id, ent) =>
      let va := align64 a.toNat
      if (lookupSpan v.wins v.launch s.mod v.c (va : Nat) ((va + 63 : Nat) : Int) .read).isSome then tldEnd s m [.window]
      else
        let left := sectorsLeft m.got va
        match left[i % left.length]? with
        | some p => s.tldSector c m p
        | none =>
          let r := recordOf m.got va
          let sh := Shape.of r
          let tc' := boundWord tc ent
          if !shapeValid r || !sh.cv || sh.cid != id || shapeDims r < 2 || !tcValid m.tiles t tc' then .ends s m 2
          else s.tldBound c m i t tc' (BitVec.ofNat 2 cm) sh a p q ent

/-- TLD (R267). -/
def State.tld (s : State) (c : Nat) (m : MatCall) (w : Word) : MicroRes :=
  match s.tldAct c m s.focus.k w with
  | .wait s m' => .wait (s.updCall c m.id fun _ => m')
  | .next s m' => .next (s.updCall c m.id fun _ => m')
  | .ends s m' st => .ends (s.updCall c m.id fun _ => m') st

/-- A call that was cancelled while a tile's stamp was busy finishes that tile, and ends with status 1 (R242, R259). -/
def State.tldFinish (s : State) (c : Nat) (m : MatCall) : State :=
  match m.phase, m.busy, (s.core c).microWord m with
  | .ended, some b, some w =>
    let (_, a, _, q) := m.tldArgs w
    let ent := match m.bound (fld w 46 45) with | some e => e.2 | none => 0
    (match s.tldWork c m (Shape.of (recordOf m.got (align64 a.toNat))) (q.toNat : Int) ent b s.focus.k with
    | .wait s m' => if m'.busy.isSome then s.updCall c m.id fun _ => m' else s.endCall c m' 1
    | .next s m' => s.endCall c m' 1
    | .ends s m' _ => s.endCall c m' 1)
  | _, _, _ => s

/-- TLD (R267). -/
def execTld (s : State) : Host.Outcome State Fault Refusal :=
  .next (match (s.core s.focus.c).calls[s.focus.i]? with
    | some m => if m.phase = .ended then s.tldFinish s.focus.c m else s.microStep s.focus.c s.focus.i 1 fun s m w => s.tld s.focus.c m w
    | none => s)

/-- A call's writes: those of a sector that cannot be written are skipped; the bytes written are counted; none where a page must be
waited for (R243, R262). -/
def State.callWrite (s : State) (c : Nat) (m : MatCall) (cells : List (Int × Byte)) : Except State (State × List Cause) :=
  let v := m.view c
  let es := s.accessFails v .write (cells.map (·.1))
  if es.contains .resid then .error ((s.engineFill v (cells.map (·.1))).callSlow c m)
  else
    let bad := (cells.filter fun p => match s.engineAt v p.1 .write with | .error _ => true | .ok _ => false).map fun p => p.1 / 32
    let ok := cells.filterMap fun p => if bad.contains (p.1 / 32) then none
      else match s.engineAt v p.1 .write with | .ok pa => some (pa, p.2) | .error _ => none
    let s := (s.viewPut v ok).updCall c m.id fun n => { n with bytes := n.bytes + ok.length, slow := n.slow || !es.isEmpty }
    .ok (s, es)

/-- The bytes that TST writes: the unused bits of a row's partial final byte are zero (R229, R268). -/
def Core.tstCells (k : Core) (uid t : Nat) (w a st q : Word) : List (Int × Byte) :=
  let last : Byte := BitVec.ofNat 8 (2 ^ ((tcCols w * fmtWidth (tcFmt w) + 7) % 8 + 1) - 1)
  (tileSpans t w a st q).zipIdx.flatMap fun e =>
    (List.range e.1.2.2.2).map fun (j : Nat) =>
      let b := k.tile uid e.1.2.1 (e.1.2.2.1 + j)
      (e.1.1 + (j : Int), if e.2 < tcRows w && j + 1 = e.1.2.2.2 then b &&& last else b)

/-- TST (R268). -/
def State.tst (s : State) (c : Nat) (m : MatCall) (w : Word) : MicroRes :=
  let (t, a, p, q) := m.tldArgs w
  let tc := vget m.tc t 0
  if !tcValid m.tiles t tc then .ends s 2
  else
    match s.callWrite c m ((s.core c).tstCells m.uid t tc a p q) with
    | .error s => .wait s
    | .ok (s, es) => if es.isEmpty then .next s else .ends s (failStatus es)

/-- TST (R268). -/
def execTst (s : State) : Host.Outcome State Fault Refusal :=
  .next (s.microStep s.focus.c s.focus.i 2 fun s m w => s.tst s.focus.c m w)

/-! ## Accumulators (R268-R271) -/

/-- TZERO (R269). -/
def State.tzero (s : State) (c : Nat) (m : MatCall) (w : Word) : MicroRes :=
  let k := fld w 59 56
  if (List.range 4).any fun a => k.testBit a && !m.accs.getLsbD a then .ends s 2
  else
    let s := s.updCore c fun co => (List.range 4).foldl (fun co a => if k.testBit a then co.zeroAcc m.uid a else co) co
    .next (s.updCall c m.id fun n =>
      { n with depth := (List.range 4).foldl (fun d a => if k.testBit a then vset d a 0 else d) n.depth })

/-- TZERO (R269). -/
def execTzero (s : State) : Host.Outcome State Fault Refusal :=
  .next (s.microStep s.focus.c s.focus.i 3 fun s m w => s.tzero s.focus.c m w)

/-- The aligned 64-column k-blocks of a range (R271): at most 65 of them. -/
def kBlocks : Nat → Nat → Nat → List (Nat × Nat)
  | 0, _, _ => []
  | n + 1, kb, kend =>
    if kend ≤ kb then []
    else
      let ke := Nat.min kend (64 * (kb / 64 + 1))
      (kb, ke) :: kBlocks n ke kend

/-- An accumulator's f32 value. -/
def accVal (w : BitVec 32) : XR := f32.decode w.toNat

/-- Element (i, j) after a k-block (R271): the exact sum of the products, added and rounded once. -/
def Core.mmaElem (k : Core) (uid ta tb ac : Nat) (wa wb : Word) (kb ke i j : Nat) : BitVec 32 :=
  let ps := (List.range (ke - kb)).map fun d => (k.tileVal uid ta wa i (kb + d)).mul (k.tileVal uid tb wb j (kb + d))
  let sum := match ps with | [] => XR.fin false 0 0 | p :: ps => ps.foldl XR.add p
  BitVec.ofNat 32 (f32.round 0#2 0 ((accVal (k.acc uid ac i j)).add sum).toRV).bits

/-- A NaN or infinity of f32. -/
def nonFinite (w : BitVec 32) : Bool := !(accVal w).isFin

/-- The report of an MXNAN (R277). -/
def mxReport (core ctx idx ac row col k : Nat) : Word :=
  BitVec.ofNat 64 (2 ^ 63 + core % 2 ^ 10 * 2 ^ 53 + ctx % 4 * 2 ^ 51 + idx % 2 ^ 8 * 2 ^ 43 + ac % 4 * 2 ^ 41 + row % 64 * 2 ^ 35
    + col % 64 * 2 ^ 29 + k % 2 ^ 12 * 2 ^ 17)

/-- The k-blocks of an MMA, one after the other: where nan is enabled, a block that would create a NaN is not applied and stops the
call; the element it names is the lowest in row-major order (R276). -/
def mmaBlocks (uid ta tb ac : Nat) (wa wb : Word) (nan : Bool) : List (Nat × Nat) → Core → Bool → Core × Bool × Option (Nat × Nat × Nat)
  | [], k, f => (k, f, none)
  | (kb, ke) :: bs, k, f =>
    let new := (List.range (tcRows wa)).flatMap fun i => (List.range (tcRows wb)).map fun j =>
      (i, j, k.mmaElem uid ta tb ac wa wb kb ke i j)
    let f' := f || new.any fun e => nonFinite e.2.2
    match (if nan then new.find? fun e => (accVal e.2.2).isNaN && !(accVal (k.acc uid ac e.1 e.2.1)).isNaN else none) with
    | some e => (k, true, some (e.1, e.2.1, kb))
    | none => mmaBlocks uid ta tb ac wa wb nan bs (k.setAcc uid ac new) f'

/-- The pending MXNAN of a call's context, unless one is pending (R276). -/
def State.raiseMxnan (s : State) (c : Nat) (m : MatCall) (ac : Nat) (e : Nat × Nat × Nat) : State :=
  s.updOwner m.uid fun t =>
    if t.mxnanPend then t
    else { t with mxnanPend := true, mxnan := mxReport c m.ctx (callIdx m.t) ac e.1 e.2.1 e.2.2 }

/-- MMA (R270, R271): its charge counts the k-steps of the blocks that were applied (R172). With kn = 0, a k0 past K counts as no k-steps past K,
which ends the call (log 73). -/
def State.mma (s : State) (c : Nat) (m : MatCall) (w : Word) : MicroRes :=
  let ta := fld w 59 56
  let tb := fld w 55 52
  let ac := fld w 51 50
  let k0 := fld w 49 38
  let wa := vget m.tc ta 0
  let wb := vget m.tc tb 0
  let kn := if fld w 37 26 = 0 then tcCols wa - k0 else fld w 37 26
  if !m.accs.getLsbD ac || !tcValid m.tiles ta wa || !tcValid m.tiles tb wb || (matWidth (tcFmt wa)).isNone
      || (matWidth (tcFmt wb)).isNone || tcCols wb != tcCols wa || tcCols wa < k0 + kn || rtMaxk m.entry < vget m.depth ac 0 + kn then .ends s 2
  else
    let (k, f, bad) := mmaBlocks m.uid ta tb ac wa wb (callNan m.t) (kBlocks 65 k0 (k0 + kn)) (s.core c) false
    let s := (s.setCore c k).callNf c m f
    let s := s.updCall c m.id fun n => { n with depth := vset n.depth ac (vget n.depth ac 0 + kn) }
    let ran := match bad with | some e => e.2.2 - k0 | none => kn
    let s := s.chargeLaunch c m.launch (bankCount (k.hold m.uid) * ran)
    match bad with
    | some e => .ends (s.raiseMxnan c m ac e) 1
    | none => .next s

/-- MMA (R270, R271). -/
def execMma (s : State) : Host.Outcome State Fault Refusal :=
  .next (s.microStep s.focus.c s.focus.i 4 fun s m w => s.mma s.focus.c m w)

/-- The bytes that RETIRE writes (R268), and whether a conversion produced a NaN or infinity. -/
def Core.retireCells (k : Core) (uid ac : Nat) (f : FmtCode) (bs : Bool) (b mr mc : Nat) (a st q : Word) : List (Int × Byte) × Bool :=
  (List.range (mr + 1)).foldl (fun (acc : List (Int × Byte) × Bool) i =>
    let xs := (List.range (mc + 1)).map fun j => k.acc uid ac i j
    let row : Int := (a.toNat : Int) + (i : Int) * st.toInt
    if bs then
      let (cs, ss, g) := encodeRun f b xs.length (xs.map fun x => Elem.val (accVal x))
      let sc : Int := ((q.toNat + i * ((mc + b) / b) : Nat) : Int)
      (acc.1 ++ cellsAt row (packCodes (fmtWidth f) cs) ++ cellsAt sc (ss.map fun e => BitVec.ofNat 8 e), acc.2 || g)
    else
      let rs := xs.map fun x => conv x.toNat fmtF32 f 0 0
      (acc.1 ++ cellsAt row (packCodes (fmtWidth f) (rs.map (·.bits))), acc.2 || (fmtIsFp f && rs.any (·.nfs)))) ([], false)

/-- RETIRE (R268): the write-back, after which the depth is 0 and, with z, the accumulator +0. -/
def State.retire (s : State) (c : Nat) (m : MatCall) (w : Word) : MicroRes :=
  let ac := fld w 59 58
  let f : FmtCode := BitVec.ofNat 7 (fld w 48 42)
  let bs := w.getLsbD 39
  if !m.accs.getLsbD ac || !fmtAssigned f || f = fmtF64 || f = fmtSc8 || (bs && !fmtBlockElem f) then .ends s 2
  else
    let (cells, nf) := (s.core c).retireCells m.uid ac f bs (blockSize (BitVec.ofNat 2 (fld w 41 40))) (fld w 37 32) (fld w 31 26)
      (m.par (fld w 57 55)) (m.par (fld w 54 52)) (m.par (fld w 51 49))
    match s.callWrite c m cells with
    | .error s => .wait s
    | .ok (s, es) =>
      let s := (s.callNf c m nf).updCall c m.id fun n => { n with depth := vset n.depth ac 0 }
      let s := if w.getLsbD 38 then s.updCore c fun k => k.zeroAcc m.uid ac else s
      if es.isEmpty then .next s else .ends s (failStatus es)

/-- RETIRE (R268). -/
def execRetire (s : State) : Host.Outcome State Fault Refusal :=
  .next (s.microStep s.focus.c s.focus.i 5 fun s m w => s.retire s.focus.c m w)

/-- SCALE (R269). -/
def State.scaleAcc (s : State) (c : Nat) (m : MatCall) (w : Word) : MicroRes :=
  let ac := fld w 59 58
  if !m.accs.getLsbD ac then .ends s 2
  else
    let x := f32.decode ((m.par (fld w 57 55)).toNat % 2 ^ 32)
    let k := s.core c
    let new := (List.range 64).flatMap fun i => (List.range 64).map fun j =>
      (i, j, BitVec.ofNat 32 (f32.round 0#2 0 ((accVal (k.acc m.uid ac i j)).mul x).toRV).bits)
    .next ((s.setCore c (k.setAcc m.uid ac new)).callNf c m (new.any fun e => nonFinite e.2.2))

/-- SCALE (R269). -/
def execScale (s : State) : Host.Outcome State Fault Refusal :=
  .next (s.microStep s.focus.c s.focus.i 6 fun s m w => s.scaleAcc s.focus.c m w)

/-! ## Control (R272-R274) -/

/-- LOOP (R272). -/
def State.microLoop (s : State) (c : Nat) (m : MatCall) (w : Word) : MicroRes :=
  let j := fld w 59 58
  let n := vget m.lc j 0 + 1
  if n < Nat.max (fld w 47 32) 1 then .jump (s.updCall c m.id fun k => { k with lc := vset k.lc j n }) (fld w 57 48)
  else .next (s.updCall c m.id fun k => { k with lc := vset k.lc j 0 })

/-- MICRO_LOOP (R272). -/
def execMicroLoop (s : State) : Host.Outcome State Fault Refusal :=
  .next (s.microStep s.focus.c s.focus.i 7 fun s m w => s.microLoop s.focus.c m w)

/-- PADD (R272), with the block row and column of R274. -/
def State.padd (s : State) (c : Nat) (m : MatCall) (w : Word) : MicroRes :=
  let imm : Int := (w.truncate 32 : BitVec 32).toInt
  let v : Int := match fld w 56 55 with
    | 0 => imm
    | 1 => (m.par (fld w 54 52)).toNat
    | 2 => imm * (m.dieRank / 16 : Nat)
    | _ => imm * (m.dieRank % 16 : Nat)
  let p := fld w 59 57
  .next (s.updCall c m.id fun n => { n with mp := vset n.mp p (m.par p + BitVec.ofInt 64 v) })

/-- PADD (R272). -/
def execPadd (s : State) : Host.Outcome State Fault Refusal :=
  .next (s.microStep s.focus.c s.focus.i 8 fun s m w => s.padd s.focus.c m w)

/-- SIGNAL (R273): the call's writes are performed at home as they are made; at scope 6 it waits for the expander to have those of the CXL tier. -/
def State.signal (s : State) (c : Nat) (m : MatCall) (w : Word) : MicroRes :=
  let a := (m.par (fld w 59 57)).toNat % 2 ^ 48 / 32 * 32
  match s.barLookup (m.view c) a with
  | some _ => .ends s 2
  | none =>
    if scopeCode (fld w 56 54) = 6 && s.callInTier c m then .wait s
    else
    match s.place (Machine.locate m.wins m.launch s.mod c (a : Nat)) with
    | .ok pa => .next (s.barPost pa .arrive)
    | .error e => s.boundFail c m e [(a : Int)]

/-- SIGNAL (R273). -/
def execSignal (s : State) : Host.Outcome State Fault Refusal :=
  .next (s.microStep s.focus.c s.focus.i 9 fun s m w => s.signal s.focus.c m w)

/-- Every call of the module, those of saved workers among them. -/
def State.allCalls (s : State) : List MatCall := s.cores.flatMap (fun p => p.2.calls) ++ s.images.flatMap fun i => i.calls

/-- Every current member of a die team has a call that has reached a TEAMSYNC of an id (R274). -/
def State.syncDone (s : State) (launch die id : Nat) : Bool :=
  match (s.launch? launch).bind fun l => l.team? (some die) with
  | some t => t.members.all fun u => s.allCalls.any fun m => m.uid = u && m.sync = some id
  | none => true

/-- A call released from a TEAMSYNC goes on past it. -/
def MatCall.release (launch die id : Nat) (m : MatCall) : MatCall :=
  if m.launch = launch && m.die = die && m.sync = some id then { m with sync := none, upc := m.upc + 1 } else m

/-- TEAMSYNC (R274): the call registers; when every member has, all go on together. -/
def State.teamsync (s : State) (c : Nat) (m : MatCall) (w : Word) : MicroRes :=
  let id := fld w 59 52
  if !m.retired then .ends s 2
  else
    let s := s.updCall c m.id fun n => { n with sync := some id }
    if !s.syncDone m.launch m.die id then .wait s
    else
      let rel := MatCall.release m.launch m.die id
      .wait { s with cores := s.cores.map fun p => (p.1, { p.2 with calls := p.2.calls.map rel })
                     images := s.images.map fun i => { i with calls := i.calls.map rel } }

/-- TEAMSYNC (R274). -/
def execTeamsync (s : State) : Host.Outcome State Fault Refusal :=
  .next (s.microStep s.focus.c s.focus.i 10 fun s m w => s.teamsync s.focus.c m w)

end Sys2Proof.Machine
end

