-- ==== Sys2Proof/Machine/Compass.lean ====
section
/-!
DEFINITION. Compass (15): entries and ladders (R281-R284), measurements (R285, R286), the decision (R287), what it accepts (R288,
R290), and the xu operations on it (R289-R293).
-/

namespace Sys2Proof.Machine

/-! ## Entries (R282-R284) -/

/-- Changes an entry. -/
def State.updEntry (s : State) (e : Nat) (f : CompassEntry → CompassEntry) : State := { s with compass := tset s.compass e (f (s.entry e)) }

/-- A field of a word replaced: n bits from bit lo on. -/
def putField (w : Word) (lo n v : Nat) : Word :=
  (w &&& ~~~(BitVec.ofNat 64 ((2 ^ n - 1) * 2 ^ lo))) ||| BitVec.ofNat 64 (v % 2 ^ n * 2 ^ lo)

/-- The other fields of an entry word. -/
def entPin (w : Word) : Bool := w.getLsbD 31
def entHn (w : Word) : Nat := (w.extractLsb' 23 2).toNat
def entHb (w : Word) : Nat := (w.extractLsb' 21 2).toNat

/-- An entry word with some of its fields replaced. -/
def setVer (w : Word) (v : Nat) : Word := putField w 32 32 v
def setPin (w : Word) (b : Bool) : Word := putField w 31 1 b.toNat
def setPos (w : Word) (v : Nat) : Word := putField w 25 2 v
def setHn (w : Word) (v : Nat) : Word := putField w 23 2 v
def setHb (w : Word) (v : Nat) : Word := putField w 21 2 v
def setBsz (w : Word) (v : Nat) : Word := putField w 7 2 v
def setFmt (w : Word) (f : FmtCode) : Word := putField w 0 7 f.toNat

/-- An entry lies in the range of a virtual interface (R284). -/
def State.inCrange (s : State) (v e : Nat) : Bool := (s.vi v).crange.1 ≤ e && e < (s.vi v).crange.1 + (s.vi v).crange.2

/-- A runtime write of an entry word (R282): hn, hb and fmt are not written; pos is limited to the ladder's last position, and fmt is
the ladder's format there. -/
def State.entryWrite (s : State) (e : Nat) (w : Word) : State :=
  s.updEntry e fun k =>
    let lad := s.ladder (entLadder w)
    let pos := Nat.min (entPos w) (ladLast lad)
    let w := w &&& ~~~0x3FE00#64
    { k with word := setFmt (setPos (setHb (setHn w (entHn k.word)) (entHb k.word)) pos) (ladFmt lad pos) }

/-- A format that a ladder may hold (R283). -/
def ladderFmtOk (f : FmtCode) : Bool := fmtAssigned f && f != fmtF32 && f != 0x08 && f != fmtF64 && f != fmtSc8 && fmtWidth f ≤ 16

/-- A write of a ladder register (R283): refused when a format within the length is not allowed. -/
def State.ladderWrite (s : State) (l : Nat) (w : Word) : State :=
  if (List.range (ladLast w + 1)).all fun p => ladderFmtOk (ladFmt w p) then
    { s with ladders := tset s.ladders l (w &&& 0x3FFFFFFF#64) }
  else s

/-! ## Accumulators (R285, R290) -/

/-- An addition to an f64 accumulator, rounded to nearest even. -/
def addF64 (a : BitVec 64) (x : XR) : BitVec 64 := BitVec.ofNat 64 (f64.round 0#2 0 ((f64.decode a.toNat).add x).toRV).bits

/-- The larger of PR and a peak-to-RMS ratio (R285 step 5): the largest magnitude over the square root of the sum over b. -/
def maxRatio (pr : BitVec 64) (mx sq : XR) (b : Nat) : BitVec 64 :=
  match mx, sq with
  | .fin _ m e, .fin _ n f =>
    if n = 0 then pr
    else
      let r := (f64.round 0#2 0 (.fin false (.root (m * m * b) n (2 * e - f)))).bits
      if (f64.decode pr.toNat).lt (f64.decode r) then BitVec.ofNat 64 r else pr
  | _, _ => pr

/-- An entry after a sample. -/
def CompassEntry.sample (k : CompassEntry) (x : Sample) : CompassEntry :=
  { k with q := addF64 k.q x.q
           ec := addF64 k.ec x.ec
           en := match x.en with | some y => addF64 k.en y | none => k.en
           pr := match x.b with | some b => maxRatio k.pr x.mx x.q b | none => k.pr
           n := k.n + 1 }

/-- COMPASS_CONTRIBUTION (R285): contribution i is accepted, or discarded when its tag is not the entry's version. -/
def execCompassContribution (s : State) : Host.Outcome State Fault Refusal :=
  .next (match s.compassQ[s.focus.i]? with
    | some (.sample _ e ver x) =>
      let s : State := { s with compassQ := s.compassQ.eraseIdx s.focus.i }
      if entVer (s.entry e).word = ver then s.updEntry e fun k => k.sample x else s
    | _ => s)

/-- A gvobs as Compass accepts it (R290). -/
def CompassEntry.obs (k : CompassEntry) (kind : Nat) (v : BitVec 32) : CompassEntry :=
  let x := f32.decode v.toNat
  let ok := x.isFin && (x.isZero || !x.sign)
  if !entValid k.word then k
  else
    match kind with
    | 0 => if ok then { k with sv := addF64 k.sv x } else k
    | 1 => if ok then { k with sm := addF64 k.sm x } else k
    | 2 => { k with b := v }
    | _ => k

/-- COMPASS_OBS_ACCEPT (R290): item i of those a context has sent is accepted, and has then taken effect. -/
def execCompassObsAccept (s : State) : Host.Outcome State Fault Refusal :=
  let c := s.focus.c
  let x := s.focus.x
  .next (match (s.ctx c x).stFlight[s.focus.i]? with
    | some f =>
      match f.req.op with
      | .gvobs e kind v =>
        let s1 := if s.inCrange (s.ctx c x).vi e then s.updEntry e fun k => k.obs kind.toNat v else s
        s1.endFlight c x s.focus.i
      | _ => s
    | none => s)

/-! ## The epoch (R286, R287) -/

/-- A Q16.16 value: truncated, saturated. -/
def q16 (m : Mag) : BitVec 32 := BitVec.ofNat 32 (Nat.min (m.floorScaled 16).1 0xFFFFFFFF)

/-- A finite accumulator as a dyadic; none once it has overflowed. -/
def finiteAcc (a : BitVec 64) : Option (Nat × Int) :=
  match f64.decode a.toNat with
  | .fin _ m e => some (m, e)
  | _ => none

/-- The square root of a quotient of accumulators (R286). -/
def rootRatio (a b : BitVec 64) : Option (BitVec 32) :=
  match finiteAcc a, finiteAcc b with
  | some (m, e), some (n, f) => if n = 0 then none else some (q16 (.root m n (e - f)))
  | _, _ => none

/-- The epoch's rho, eps_c, eps_n and P (R286). -/
def CompassEntry.rhoNow (k : CompassEntry) : Option (BitVec 32) :=
  match finiteAcc k.sv, finiteAcc k.sm with
  | some (m, e), some (n, f) => if k.b = 0 || n = 0 then none else some (q16 (.quo m (k.b.toNat * n) (e - f)))
  | _, _ => none
def CompassEntry.epsC (k : CompassEntry) : Option (BitVec 32) := if k.n = 0 then none else rootRatio k.ec k.q
def CompassEntry.epsN (k : CompassEntry) (last : Nat) : Option (BitVec 32) :=
  if k.n = 0 || entPos k.word = last then none else rootRatio k.en k.q
def CompassEntry.peak (k : CompassEntry) : Option (BitVec 32) :=
  if k.n = 0 || !fmtBlockElem (entFmt k.word) then none
  else (finiteAcc k.pr).map fun p => q16 (.dy p.1 p.2)

/-- The accumulators cleared; B stays (R287). -/
def CompassEntry.clear (k : CompassEntry) : CompassEntry := { k with sv := 0, sm := 0, q := 0, ec := 0, en := 0, pr := 0, n := 0 }

/-- What an epoch did to an entry. -/
inductive EpochRes where
  | none | narrowed | widened | block
deriving DecidableEq, Repr

/-- The entry word after an epoch's decision, and what it decided (R287): a position has 2 bits, in which one less than 0 is 3 (R5). -/
def epochWord (w lad : Word) (rho ec en p : Option (BitVec 32)) : Word × EpochRes :=
  let last := ladLast lad
  let pos := entPos w
  let bsz := (entBsz w).toNat
  let change : Word → Word := fun w =>
    let w := setFmt w (ladFmt lad (entPos w))
    setHb (setHn (setVer w ((entVer w).toNat + 1)) 0) 0
  let wid : Bool := match rho, ec with | some r, some c => r.toNat < 2 * c.toNat && 0 < pos | _, _ => false
  let nok : Bool := match rho, en with | some r, some n => pos < last && 8 * n.toNat ≤ r.toNat | _, _ => false
  if wid then (change (setPos w (Nat.min pos last + 3)), .widened)
  else
    let hn := if nok then Nat.min (entHn w + 1) 3 else 0
    let w := setHn w hn
    if hn = 3 then (change (setPos w (pos + 1)), .narrowed)
    else
      let above : Bool := match p with | some p => 16 * 2 ^ 16 < p.toNat | none => false
      let below : Bool := match p with | some p => p.toNat < 4 * 2 ^ 16 | none => false
      if above && !nok && 0 < bsz then (change (setBsz w (bsz - 1)), .block)
      else
        let hb := if below then Nat.min (entHb w + 1) 3 else 0
        let w := setHb w hb
        if hb = 3 && bsz < 3 then (change (setBsz w (bsz + 1)), .block) else (w, .none)

/-- An epoch closed on a valid entry (R287): the values are kept for gvget, a pinned entry's too. -/
def State.epochEntry (s : State) (e : Nat) : State × EpochRes :=
  let k := s.entry e
  let lad := s.ladder (entLadder k.word)
  let en := k.epsN (ladLast lad)
  let (w, r) := if entPin k.word then (k.word, .none) else epochWord k.word lad k.rhoNow k.epsC en k.peak
  (s.updEntry e fun k => { k.clear with word := w, rho := k.rhoNow, lec := k.epsC, len := en, lp := k.peak }, r)

/-- The counts of a reply: changed, narrowed, widened, skipped outside the range. -/
structure EpochSum where
  changed : Nat := 0
  narrowed : Nat := 0
  widened : Nat := 0
  skipped : Nat := 0
deriving DecidableEq, Repr

/-- An epoch over a range of entries (R292). -/
def State.epochRange (s : State) (v first n : Nat) : State × EpochSum :=
  ((List.range n).filter fun i => first + i < 4096).foldl (fun (acc : State × EpochSum) i =>
    let (s, k) := acc
    let e := first + i
    if !s.inCrange v e then (s, { k with skipped := k.skipped + 1 })
    else if !entValid (s.entry e).word then (s, k)
    else
      let (s, r) := s.epochEntry e
      (s, { k with changed := k.changed + (if r = .none then 0 else 1)
                   narrowed := k.narrowed + (if r = .narrowed then 1 else 0)
                   widened := k.widened + (if r = .widened then 1 else 0) })) (s, {})

/-- The reply of a request goes to the worker that sent it, if it still waits for it (R292, R306, R324). -/
def State.replyTo (s : State) (uid rid : Nat) (w : Word) : State :=
  s.updOwner uid fun t => { t with awaiting := t.awaiting.map fun a => if a.rid = rid then { a with reply := some (.value w) } else a }

/-- COMPASS_EPOCH (R287, R292): request i is served. -/
def execCompassEpoch (s : State) : Host.Outcome State Fault Refusal :=
  .next (match s.compassQ[s.focus.i]? with
    | some (.epoch rid uid v t) =>
      let s : State := { s with compassQ := s.compassQ.eraseIdx s.focus.i }
      let (s, k) := s.epochRange v (t.extractLsb' 0 12).toNat ((t.extractLsb' 12 12).toNat + 1)
      s.replyTo uid rid (BitVec.ofNat 64
        (k.changed + k.narrowed * 2 ^ 16 + k.widened * 2 ^ 32 + k.skipped * 2 ^ 48))
    | _ => s)

/-! ## gvpin (R293) -/

/-- What gvpin does to a valid entry, and its reply. -/
def State.pinEntry (s : State) (e : Nat) (t : Word) : State × Word :=
  let k := s.entry e
  let lad := s.ladder (entLadder k.word)
  let pos := (t.extractLsb' 14 2).toNat
  let bsz := (t.extractLsb' 16 2).toNat
  match (t.extractLsb' 12 2).toNat with
  | 0 => (s.updEntry e fun k => { k with word := setPin k.word false }, 0)
  | 1 => (s.updEntry e fun k => { k with word := setPin k.word true }, 0)
  | 2 =>
    if ladLast lad < pos then (s, 2)
    else
      let w := setPin (setBsz (setPos k.word pos) bsz) (t.getLsbD 18)
      if ladFmt lad pos = entFmt k.word && bsz = (entBsz k.word).toNat then (s.updEntry e fun k => { k with word := w }, 0)
      else
        let w := setHb (setHn (setVer (setFmt w (ladFmt lad pos)) ((entVer w).toNat + 1)) 0) 0
        (s.updEntry e fun k => { k.clear with word := w }, 0)
  | _ => (s, 1)

/-- COMPASS_PIN_ACCEPT (R293): request i is served. -/
def execCompassPinAccept (s : State) : Host.Outcome State Fault Refusal :=
  .next (match s.compassQ[s.focus.i]? with
    | some (.pin rid uid v t) =>
      let s : State := { s with compassQ := s.compassQ.eraseIdx s.focus.i }
      let e := (t.extractLsb' 0 12).toNat
      let (s, r) := if s.inCrange v e && entValid (s.entry e).word then s.pinEntry e t else (s, 1)
      s.replyTo uid rid r
    | _ => s)

/-! ## The xu operations (R289-R293) -/

/-- A xu trigger, of weight 6. -/
def xuTrig (off : Nat) (act : Env → State → Word → State) : Trigger :=
  { unit := .xu, code := 0x380 + off, weight := fun _ _ _ => 6, act := fun env s v => act env s (v.truncate 64) }

/-- A result of xu. -/
def State.xuResult (s : State) (env : Env) (w : Word) (lat : Nat) : State := s.result env .xu (w.zeroExtend 2048) lat 0

/-- gvobs takes its place in the SAQ (R290). -/
def State.gvobsAct (s : State) (env : Env) (v : Word) : State :=
  s.updCtx env.c env.x fun t =>
    t.pushStore (.gvobs (v.toNat % 4096) (v.extractLsb' 12 2) (env.lat.xuO.truncate 32)) 0 0

/-- The word that gvget reads (R291). -/
def CompassEntry.read (k : CompassEntry) (sel : Nat) : Nat :=
  let v : Option (BitVec 32) → Nat := fun o => match o with | some x => x.toNat | none => 0
  match sel with
  | 0 => k.word.toNat
  | 1 => v k.rho + v k.lec * 2 ^ 32
  | 2 => v k.len + v k.lp * 2 ^ 32
  | _ => k.b.toNat + Nat.min k.n 0xFFFF * 2 ^ 32 + k.rho.isSome.toNat * 2 ^ 48 + k.lec.isSome.toNat * 2 ^ 49
      + k.len.isSome.toNat * 2 ^ 50 + k.lp.isSome.toNat * 2 ^ 51

/-- gvget (R289, R291). -/
def State.gvgetAct (s : State) (env : Env) (v : Word) : State :=
  let e := v.toNat % 4096
  s.xuResult env (if s.inCrange env.t0.vi e then BitVec.ofNat 64 ((s.entry e).read (v.extractLsb' 12 2).toNat) else 0) 4

/-- A gvobs of the context has not been performed (R292). -/
def Ctx.obsOwed (t : Ctx) : Bool :=
  let is : StoreReq → Bool := fun r => match r.op with | .gvobs .. => true | _ => false
  t.saq.any is || t.stFlight.any fun f => is f.req

/-- The wait of gvepoch and gvpin (R292): once every earlier gvobs has been performed and
every other wait of the bundle is satisfied the request is sent, and its reply awaited. -/
def compassWait (code : Nat) (req : Nat → Nat → Nat → Word → CompassReq) (env : Env) (_ : State) (v : VWord) : Wait :=
  match env.t0.request .xu with
  | some a => if a.reply.isSome then .ready else .sent
  | none =>
    if env.t0.obsOwed then .block
    else .sendLast fun s =>
      let rid := s.nextId
      let s := s.ask env { unit := .xu, code := code, a := 0, t := v.truncate 64 }
      { s with compassQ := s.compassQ ++ [req rid env.t0.uid env.t0.vi (v.truncate 64)] }

/-- The reply that a bundle's request of xu has received. -/
def Env.xuReply (env : Env) : Word := match (env.t0.request .xu).bind (·.reply) with | some (.value w) => w | _ => 0

/-- gvepoch and gvpin as their bundle issues: the reply, with latency 1 (R289). -/
def State.compassDone (s : State) (env : Env) (_ : Word) : State := s.xuResult env env.xuReply 1

end Sys2Proof.Machine
end

