-- ==== Sys2Proof/Machine/CompassRows.lean ====
section
/-!
DEFINITION. The rows gvobs, gvget, gvepoch and gvpin (R289-R293).
-/

namespace Sys2Proof.Machine

/-- GVOBS as a trigger: Queues a gradient statistic or a batch size for a Compass entry (R290). -/
def trigGvobs : Trigger := { xuTrig 10 (fun env s v => s.gvobsAct env v) with saq := true }

/-- GVOBS: the bundle that holds this move alone issues (R290). -/
def execGvobs (g : Guard) (src : Src) (s : State) : Host.Outcome State Fault Refusal :=
  s.issueSolo (soloMove g src (.trig trigGvobs))

/-- GVGET as a trigger: Reads a Compass entry word or its last epoch values (R291). -/
def trigGvget : Trigger := { xuTrig 11 (fun env s v => s.gvgetAct env v) with results := fun _ => 1 }

/-- GVGET: the bundle that holds this move alone issues (R291). -/
def execGvget (g : Guard) (src : Src) (s : State) : Host.Outcome State Fault Refusal :=
  s.issueSolo (soloMove g src (.trig trigGvget))

/-- GVEPOCH as a trigger: Closes an epoch on a range of Compass entries and waits for the reply (R292). -/
def trigGvepoch : Trigger := { xuTrig 12 (fun env s v => s.compassDone env v) with wait := compassWait 0x38C .epoch }

/-- GVEPOCH: the bundle that holds this move alone issues (R292). -/
def execGvepoch (g : Guard) (src : Src) (s : State) : Host.Outcome State Fault Refusal :=
  s.issueSolo (soloMove g src (.trig trigGvepoch))

/-- GVPIN as a trigger: Pins, unpins or sets a Compass entry (R293). -/
def trigGvpin : Trigger := { xuTrig 13 (fun env s v => s.compassDone env v) with wait := compassWait 0x38D .pin }

/-- GVPIN: the bundle that holds this move alone issues (R293). -/
def execGvpin (g : Guard) (src : Src) (s : State) : Host.Outcome State Fault Refusal :=
  s.issueSolo (soloMove g src (.trig trigGvpin))

end Sys2Proof.Machine
end

