-- ==== Sys2Proof/Machine/Guyline.lean ====
section
/-!
DEFINITION. Guyline (17): grid descriptors (R299-R301), their storage and regions (R302-R304), gbind, gstep, gwait and gqry (R305-R310),
the slabs and local fills of a published step (R307, R308), and the check of a step-checked load (R311-R313).
-/

namespace Sys2Proof.Machine

/-! ## Descriptors (R300) -/

/-- The 128 bytes of a descriptor. -/
abbrev GridBits := BitVec 1024

def gdRamp (r : GridBits) : Nat := (r.extractLsb' 968 48).toNat
def gdPtab (r : GridBits) : Nat := (r.extractLsb' 920 48).toNat
def gdSbase (r : GridBits) (b : Nat) : Nat := (r.extractLsb' (824 + 48 * b) 48).toNat
def gdBase (r : GridBits) (b : Nat) : Nat := (r.extractLsb' (728 + 48 * b) 48).toNat
def gdRstride (r : GridBits) : Nat := (r.extractLsb' 672 32).toNat
def gdPc (r : GridBits) (k : Nat) : Nat := (r.extractLsb' (648 + 8 * k) 8).toNat
def gdPg (r : GridBits) (k : Nat) : Nat := (r.extractLsb' (624 + 8 * k) 8).toNat
def gdExt (r : GridBits) (k : Nat) : Nat := (r.extractLsb' (576 + 16 * k) 16).toNat + 1
def gdFmt (r : GridBits) : FmtCode := r.extractLsb' 57 7
def gdBs (r : GridBits) : Bool := r.getLsbD 56
def gdBsz (r : GridBits) : BitVec 2 := r.extractLsb' 54 2
def gdNdim (r : GridBits) : Nat := (r.extractLsb' 52 2).toNat
def gdGw (r : GridBits) : Nat := (r.extractLsb' 49 3).toNat + 1
def gdD (r : GridBits) : Nat := (r.extractLsb' 46 3).toNat + 1
def gdTex (r : GridBits) : Nat := (r.extractLsb' 41 5).toNat
def gdStl (r : GridBits) : Bool := r.getLsbD 40
/-- The rule of face f: 2 k and 2 k + 1 are the low and the high face of dimension k. -/
def gdRule (r : GridBits) (f : Nat) : Nat := (r.extractLsb' (22 + 3 * f) 3).toNat

/-- The ghost depth. -/
def gdG (r : GridBits) : Nat := gdGw r * gdD r

/-- The ghost depth of dimension k, and its padded extent (R302). -/
def gdGk (r : GridBits) (k : Nat) : Nat := if k < gdNdim r then gdG r else 0
def gdP (r : GridBits) (k : Nat) : Nat := gdExt r k + 2 * gdGk r k

/-- Bytes of an element, and elements of a block. -/
def gdBytes (r : GridBits) : Nat := fmtWidth (gdFmt r) / 8
def gdBlock (r : GridBits) : Nat := blockSize (gdBsz r)

/-- Bytes of a buffer, and of a scale array. -/
def gdSize (r : GridBits) : Nat := gdRstride r * gdP r 1 * gdP r 2
def gdScales (r : GridBits) : Nat := gdP r 0 / gdBlock r * gdP r 1 * gdP r 2

/-- The formats of a grid (R301). -/
def gridFmt (c : FmtCode) : Bool :=
  match fmtInfo c with
  | some (.fp f) => f.width ≤ 32 && 8 ≤ f.width
  | _ => false

/-- An 8-bit binaryKpP format. -/
def gridByte (c : FmtCode) : Bool :=
  match fmtInfo c with
  | some (.fp f) => f.width = 8
  | _ => false

/-- A format without a sign. -/
def fmtUnsigned (c : FmtCode) : Bool :=
  match fmtInfo c with
  | some (.fp f) => f.unsigned
  | _ => false

/-- A window that may hold a grid's data (R301): neither paged nor first-touch, in HBM of this module or in the core's own scratch. -/
def gridWindow (mod c : Nat) (w : Window) : Bool :=
  !w.paged && w.place != 2
    && (w.isSelf || (paMod w.targetPa = mod && (paRegion w.targetPa = 0 || (paRegion w.targetPa = 1 && paCore w.targetPa = c))))

/-- A run of bytes lies wholly in one such window, with a permission. -/
def gridSpan (v : View) (mod a n : Nat) (need : Need) : Bool :=
  match findWindow v.wins (a : Nat) with
  | none => false
  | some w => gridWindow mod v.c w && (lookupSpan v.wins v.launch mod v.c (a : Nat) ((a + n - 1 : Nat) : Int) need).isNone

/-- The rule of a face fits the descriptor (R301). -/
def faceOk (r : GridBits) (f : Nat) : Bool :=
  let k := f / 2
  match gdRule r f with
  | 0 => if f % 2 = 0 then gdPc r k != 0 else gdPc r k != gdPg r k
  | 4 => !fmtUnsigned (gdFmt r)
  | n => n < 6

/-- A descriptor is valid for a binding context (R301). -/
def gridValid (v : View) (mod : Nat) (r : GridBits) : Bool :=
  let n := gdNdim r
  let g := gdG r
  let gen := (r.extractLsb' 0 8).toNat
  let faces := List.range (2 * n)
  (r.extractLsb' 512 8).toNat = gen && (r.extractLsb' 1016 8).toNat = gen
    && r.extractLsb' 704 24 = 0 && r.extractLsb' 520 56 = 0 && r.extractLsb' 64 448 = 0 && r.extractLsb' 8 14 = 0
    && n != 0 && 10 ≤ gdTex r && gdTex r ≤ 30
    && gridFmt (gdFmt r)
    && (!gdBs r || (gridByte (gdFmt r) && g % gdBlock r = 0 && gdExt r 0 % gdBlock r = 0))
    && (List.range n).all (fun k => g ≤ gdExt r k && gdPc r k ≤ gdPg r k)
    && faces.all (faceOk r)
    && (!(faces.any fun f => gdRule r f = 5) || (lookupSpan v.wins v.launch mod v.c (gdRamp r : Nat) ((gdRamp r + 4 * g - 1 : Nat) : Int) .read).isNone)
    && gdP r 0 * gdBytes r ≤ gdRstride r && gdRstride r % 32 = 0
    && [0, 1].all (fun b => gridSpan v mod (gdBase r b) (gdSize r) .both
        && (!gdBs r || gridSpan v mod (gdSbase r b) (gdScales r) .both))
    && gridSpan v mod (gdPtab r) (8 * (gdPg r 0 + 1) * (gdPg r 1 + 1) * (gdPg r 2 + 1)) .read

/-! ## Regions (R302, R303) -/

/-- The direction of region n in dimension k. -/
def regDir (n k : Nat) : Int := ((n / 3 ^ k % 3 : Nat) : Int) - 1

/-- A region of an object: not the interior, and flat in the dimensions it does not have. -/
def regPresent (r : GridBits) (n : Nat) : Bool := n < 27 && n != 13 && [0, 1, 2].all fun k => k < gdNdim r || regDir n k = 0

/-- The present regions. -/
def gridRegions (r : GridBits) : List Nat := (List.range 27).filter (regPresent r)

/-- The rule of the face on region n's side in dimension k. -/
def regRule (r : GridBits) (n k : Nat) : Nat := gdRule r (2 * k + if regDir n k = 1 then 1 else 0)

/-- The dimensions of a region whose faces are filled locally (R304). -/
def regLocal (r : GridBits) (n : Nat) : List Nat := [0, 1, 2].filter fun k => regDir n k != 0 && 2 ≤ regRule r n k

/-- A region with some dimensions set flat. -/
def regFlat (n : Nat) (ks : List Nat) : Nat := ([0, 1, 2].map fun k => if ks.contains k then 3 ^ k else n / 3 ^ k % 3 * 3 ^ k).sum

/-- The interior indices of region n in dimension k, from the first. -/
def regSpan (r : GridBits) (n k : Nat) : Int × Nat :=
  if regDir n k = 0 then (0, gdExt r k)
  else if regDir n k = 1 then ((gdExt r k : Nat), gdGk r k) else (-((gdGk r k : Nat) : Int), gdGk r k)

/-- The interior indices of the slab that a region's partition sends, on its own side (R307). -/
def slabSpan (r : GridBits) (n k : Nat) : Int × Nat :=
  if regDir n k = 0 then (0, gdExt r k)
  else if regDir n k = 1 then (((gdExt r k : Nat) : Int) - (gdGk r k : Nat), gdGk r k) else (0, gdGk r k)

/-- The interior indices of a box, x fastest. -/
def boxOf (x y z : Int × Nat) : List (Int × Int × Int) :=
  (List.range z.2).flatMap fun (c : Nat) => (List.range y.2).flatMap fun (b : Nat) => (List.range x.2).map fun (a : Nat) =>
    (x.1 + (a : Int), y.1 + (b : Int), z.1 + (c : Int))

/-- The elements of region n. -/
def regElems (r : GridBits) (n : Nat) : List (Int × Int × Int) := boxOf (regSpan r n 0) (regSpan r n 1) (regSpan r n 2)

/-- The elements of the slab of region n. -/
def slabElems (r : GridBits) (n : Nat) : List (Int × Int × Int) := boxOf (slabSpan r n 0) (slabSpan r n 1) (slabSpan r n 2)

/-- The first byte of an element, and its scale's (R302). -/
def elemAddr (r : GridBits) (b : Nat) (i : Int × Int × Int) : Int :=
  ((gdBase r b : Nat) : Int) + (i.2.2 + gdGk r 2) * gdRstride r * gdP r 1 + (i.2.1 + gdGk r 1) * gdRstride r + (i.1 + gdGk r 0) * gdBytes r
def scaleAddr (r : GridBits) (b : Nat) (i : Int × Int × Int) : Int :=
  ((gdSbase r b : Nat) : Int) + ((i.2.2 + gdGk r 2) * gdP r 1 + (i.2.1 + gdGk r 1)) * (gdP r 0 / gdBlock r : Nat) + (i.1 + gdGk r 0) / gdBlock r

/-- The first element of each block of a list of elements: those whose scale an object with bs = 1 keeps. -/
def blockHeads (r : GridBits) (l : List (Int × Int × Int)) : List (Int × Int × Int) :=
  if gdBs r then l.filter fun i => (i.1 + gdGk r 0) % gdBlock r = 0 else []

/-! ## Objects -/

/-- Where an object's engine translates addresses. -/
def GridObj.view (g : GridObj) : View := { c := g.core, wins := g.wins, launch := g.launch }

/-- The die and place of a bound object, by its descriptor's address. -/
def State.gridAt (s : State) (desc : Nat) : Option (Nat × Nat) :=
  s.dies.findSome? fun d => (d.2.grids.findIdx? fun g => g.desc = desc).map fun i => (d.1, i)

/-- An object of a die. -/
def State.gridObj (s : State) (d i : Nat) : Option GridObj := (s.die d).grids[i]?

/-- Changes an object of a die; one whose worker has ended is unbound once its work is done (R306). -/
def State.updGrid (s : State) (d i : Nat) (f : GridObj → GridObj) : State :=
  s.updDie d fun k => { k with grids := (k.grids.modify i f).filter fun g => !(g.closing && g.slabs.isEmpty && g.fills.isEmpty) }

/-- The object that a handle of a context binds. -/
def State.gridOf (s : State) (c : Nat) (t : Ctx) (h : Nat) : Option (Nat × Nat × GridObj) :=
  (vget t.grid h none).bind fun a =>
    match (s.die (dieOf c)).grids.findIdx? fun g => g.desc = a with
    | some i => (s.gridObj (dieOf c) i).map fun g => (dieOf c, i, g)
    | none => none

/-- A tag as a word, and none (R306). -/
def tagWord : Option Nat → Nat
  | some n => n
  | none => 0xFFFFFFFF

/-- A physical address of a view's byte, when it is served. -/
def State.viewPa (s : State) (v : View) (a : Int) : Option Nat := (Machine.locate v.wins v.launch s.mod v.c a).bind s.resolve

/-- Bytes of an object's memory, read at their scope-5 points: a byte that lies nowhere reads as memory's unlisted byte. -/
def State.gridNat (s : State) (g : GridObj) (a : Int) (n : Nat) : Nat :=
  bytesNat ((spanOf a n).map fun b => match s.viewPa g.view b with | some pa => memGet s.mem pa | none => memZero)

/-- Numbers written to an object's memory, each at its address and of its bytes. -/
def State.gridPut (s : State) (g : GridObj) (l : List (Int × Nat × Nat)) : State :=
  s.enginePut (dieOf g.core) (l.flatMap fun (e : Int × Nat × Nat) =>
    ((spanOf e.1 e.2.1).zip (natBytes e.2.1 e.2.2)).filterMap fun (p : Int × Byte) => (s.viewPa g.view p.1).map fun pa => (pa, p.2))

/-! ## gbind (R306) -/

/-- The descriptor's address, and the handle, of a gbind. -/
def gbindVa (env : Env) : Nat := env.lat.xuO.toNat % 2 ^ 48 / 128 * 128
def gridHandle (v : Word) : Nat := v.toNat % 4

/-- The lookup of a gbind that binds. -/
def gbindTrap (env : Env) (s : State) (v : VWord) : Option Trap :=
  if v.getLsbD 2 then none else s.spanTrap env (some ((gbindVa env : Nat), ((gbindVa env + 127 : Nat) : Int))) .read

/-- The sectors of a descriptor that have not been read (R300). -/
def gridLeft (got : List (Nat × BitVec 256)) (a : Nat) : List Nat := [a, a + 32, a + 64, a + 96].filter fun p => (got.lookup p).isNone

/-- A descriptor whose sectors have been read. -/
def gridOf4 (got : List (Nat × BitVec 256)) (a : Nat) : GridBits :=
  (recordOf got (a + 64)).zeroExtend 1024 <<< 512 ||| (recordOf got a).zeroExtend 1024

/-- The engine reads a sector of a descriptor for a waiting gbind (R300), keeping with the first its physical address, which names the descriptor
(R304); a page that is not there is asked for. -/
def State.gbindRead (s : State) (c x : Nat) (w : View) (a : Nat) : State :=
  match s.engineBytes w (spanOf (a : Nat) 32) with
  | .ok bs => s.updCtx c x fun t => t.updRequest .xu fun r =>
      { r with got := r.got ++ [(a, BitVec.ofNat 256 (bytesNat bs))]
               a := if a % 128 = 0 then BitVec.ofNat 64 ((s.viewPa w (a : Nat)).getD 0) else r.a }
  | .error _ => s.engineFill w (spanOf (a : Nat) 32)

/-- A sector of a descriptor cannot be read, and not for want of its page. -/
def State.gbindLost (s : State) (w : View) (l : List Nat) : Bool :=
  l.any fun a => match s.engineBytes w (spanOf (a : Nat) 32) with | .error .resid => false | .error _ => true | .ok _ => false

/-- The wait of gbind: the engine's reply, once it has read the descriptor's four sectors, one at a time (the focus of the step chooses among
them); to unbind, the end of the object's reads and fills. -/
def gbindWait (env : Env) (s : State) (v : VWord) : Wait :=
  if v.getLsbD 2 then
    match s.gridOf env.c env.t0 (v.toNat % 4) with
    | some (_, _, g) => if g.slabs.isEmpty && g.fills.isEmpty then .ready else .block
    | none => .ready
  else
    let w := env.t0.view env.c
    match env.t0.request .xu with
    | none => .send fun s => s.ask env { unit := .xu, code := 0x381, a := 0, t := v.truncate 64 }
    | some r =>
      let left := gridLeft r.got (gbindVa env)
      if left.isEmpty || s.gbindLost w left then .ready
      else
        .send fun s => match left[s.focus.k % left.length]? with
          | some a => s.gbindRead env.c env.x w a
          | none => s

/-- The status of a gbind that binds, and the object it makes. -/
def State.gbindTry (s : State) (env : Env) (h : Nat) : Nat × Option GridObj :=
  let t := s.ctx env.c env.x
  let w := t.view env.c
  if (vget t.grid h none).isSome then (1, none)
  else
    let (got, pa) := match env.t0.request .xu with | some r => (r.got, r.a.toNat) | none => ([], 0)
    match gridLeft got (gbindVa env) with
    | [] =>
      let r := gridOf4 got (gbindVa env)
      if !gridValid w s.mod r then (2, none)
      else if 256 ≤ (s.die (dieOf env.c)).grids.length then (3, none)
      else if (s.gridAt pa).isSome then (4, none)
      else
        (0, some { desc := pa, uid := t.uid, core := env.c, handle := h, closing := false, launch := t.launch, raw := r, wins := t.wins
                   tags := List.replicate 27 none, own := none, sent := none, mismatched := false, timedOut := false
                   slabs := [], fills := [], gates := [] })
    | _ => (2, none)

/-- gbind as its bundle issues: its status with latency 1. -/
def State.gbindAct (s : State) (env : Env) (v : Word) : State :=
  let h := gridHandle v
  if v.getLsbD 2 then
    match s.gridOf env.c (s.ctx env.c env.x) h with
    | none => s.xuResult env 1 1
    | some (d, _, g) =>
      let s := s.updDie d fun k => { k with grids := k.grids.filter fun o => o.desc != g.desc }
      (s.updCtx env.c env.x fun t => { t with grid := vset t.grid h none }).xuResult env 0 1
  else
    match s.gbindTry env h with
    | (n, none) => s.xuResult env (BitVec.ofNat 64 n) 1
    | (n, some g) =>
      let s := s.updDie (dieOf env.c) fun k => { k with grids := k.grids ++ [g] }
      (s.updCtx env.c env.x fun t => { t with grid := vset t.grid h (some g.desc) }).xuResult env (BitVec.ofNat 64 n) 1

/-! ## gstep (R307) -/

/-- A step that an object may publish: a multiple of d above the own step, or any when the own step is none. -/
def GridObj.mayStep (g : GridObj) (n : Nat) : Bool := match g.own with | some o => n % gdD g.raw = 0 && o < n | none => true

/-- The work of a published step: a slab for each exchanged region, a fill for each other. -/
def GridObj.publish (g : GridObj) (n seq : Nat) : GridObj :=
  let (far, near) := (gridRegions g.raw).partition fun k => (regLocal g.raw k).isEmpty
  { g with own := some n, slabs := g.slabs ++ far.map fun k => (n, k), fills := g.fills ++ near.map fun k => (n, k)
           gates := g.gates ++ [(n, seq)] }

/-- gstep: its status with latency 2. -/
def State.gstepAct (s : State) (env : Env) (v : Word) : State :=
  let n := env.lat.xuO.toNat % 2 ^ 32
  let t := s.ctx env.c env.x
  match s.gridOf env.c t (gridHandle v) with
  | none => s.xuResult env 1 2
  | some (d, i, g) =>
    if g.mayStep n then (s.updGrid d i fun g => g.publish n t.seq).xuResult env 0 2 else s.xuResult env 2 2

/-! ## gwait, gqry (R309, R310) -/

/-- A tag is not none and has reached a step. -/
def tagAt (n : Nat) : Option Nat → Bool
  | some t => n ≤ t
  | none => false

/-- The condition of a gwait. -/
def GridObj.reached (g : GridObj) (sent : Bool) (y : Nat) : Bool :=
  if sent then tagAt y g.sent else (gridRegions g.raw).all fun n => tagAt y (g.tags.getD n none)

/-- The wait of gwait. -/
def gwaitWait (env : Env) (s : State) (v : VWord) : Wait :=
  match s.gridOf env.c env.t0 (v.toNat % 4) with
  | none => .ready
  | some (_, _, g) => if g.reached (v.getLsbD 2) (env.lat.xuO.toNat % 2 ^ 32) then .ready else .block

/-- The word that gqry reads. -/
def GridObj.query (g : GridObj) (sel : Nat) : Nat :=
  if sel = 13 then tagWord g.own
  else if sel < 27 then if regPresent g.raw sel then tagWord (g.tags.getD sel none) else 0xFFFFFFFE
  else if sel = 27 then tagWord g.sent
  else if sel = 28 then 1 + g.mismatched.toNat * 2 + g.timedOut.toNat * 4
  else 0

/-- gqry, with latency 4. -/
def State.gqryAct (s : State) (env : Env) (v : Word) : State :=
  let n := match s.gridOf env.c (s.ctx env.c env.x) (gridHandle v) with
    | some (_, _, g) => g.query (v.extractLsb' 2 6).toNat
    | none => 0
  s.xuResult env (BitVec.ofNat 64 n) 4

/-! ## The work of a published step (R307, R308) -/

/-- Whether an object's work of a step may be done: all of earlier steps is, and the step's gate is open. -/
def State.gridServes (s : State) (g : GridObj) (n : Nat) : Bool :=
  (g.slabs ++ g.fills).all (fun w => n ≤ w.1)
    && match g.gates.lookup n with | some q => s.ownerStored g.core g.uid q 5 | none => true

/-- The sent step once work has been done: the last published step with none of its work, nor of an earlier step's, left. -/
def GridObj.settle (g : GridObj) : GridObj :=
  let left := (g.slabs ++ g.fills).map (·.1)
  match (g.gates.filter fun p => left.all fun n => p.1 < n).getLast? with
  | some p => { g with sent := some p.1, gates := g.gates.filter fun q => p.1 < q.1 }
  | none => g

/-- The descriptor's address of the partition that receives a region's slab (R304). -/
def State.gridPeer (s : State) (g : GridObj) (n : Nat) : Nat :=
  let r := g.raw
  let q : Nat → Nat := fun k =>
    let m : Int := (gdPg r k : Nat) + 1
    ((((gdPc r k : Nat) : Int) + regDir n k) % m).toNat
  let p := q 0 + (gdPg r 0 + 1) * (q 1 + (gdPg r 1 + 1) * q 2)
  s.gridNat g ((gdPtab r + 8 * p : Nat) : Int) 8 % 2 ^ 56

/-- A number of a slab's memory: bytes that were read ahead for it, the others as they stand. -/
def State.slabNat (s : State) (g : GridObj) (key : Nat × Nat) (a : Int) (n : Nat) : Nat :=
  bytesNat ((spanOf a n).map fun b => match g.seen.find? fun e => e.1 = key && e.2.1 = b with
    | some e => e.2.2
    | none => BitVec.ofNat 8 (s.gridNat g b 1))

/-- The slab of a region at a step, as its elements and scales are read (R307). -/
def State.slabOf (s : State) (g : GridObj) (dest n reg : Nat) : Slab :=
  let r := g.raw
  let l := slabElems r reg
  { src := dieOf g.core, dest := dest, region := 26 - reg, step := n, fmt := gdFmt r, bs := gdBs r, bsz := gdBsz r, gw := gdGw r, d := gdD r
    elems := l.map fun e => s.slabNat g (n, reg) (elemAddr r (n % 2) e) (gdBytes r)
    scales := (blockHeads r l).map fun e => s.slabNat g (n, reg) (scaleAddr r (n % 2) e) 1 }

/-- A sector of a slab is read ahead: that of its v-th element, or scale (R307). -/
def State.slabRead (s : State) (d i : Nat) (g : GridObj) (n reg v : Nat) : State :=
  let r := g.raw
  let l := slabElems r reg
  let at' := l.map (elemAddr r (n % 2)) ++ (blockHeads r l).map (scaleAddr r (n % 2))
  match at'[v]? with
  | none => s
  | some a =>
    let new := (spanOf (a / 32 * 32) 32).filter fun b => !(g.seen.any fun e => e.1 = (n, reg) && e.2.1 = b)
    s.updGrid d i fun g => { g with seen := g.seen ++ new.map fun b => ((n, reg), b, BitVec.ofNat 8 (s.gridNat g b 1)) }

/-- The gate of a slab of step n (R307): the receiver's own step has reached it. That of a receiver in another module the step's focus gives; one
that cannot be reached never gets it (R363). -/
def State.slabGate (s : State) (dest n : Nat) : Bool :=
  if paMod dest = s.mod then
    match (s.gridAt dest).bind fun p => s.gridObj p.1 p.2 with
    | some o => tagAt n o.own
    | none => false
  else !s.reachable (paMod dest) || s.focus.x = 1

/-- SLAB_SEND (R307): slab k of object i of a die is read and sent, once its step may be served and its gate is open; with ahead, a sector of it is
read first. -/
def State.slabSend (s : State) (d i k : Nat) (ahead : Option Nat) : State :=
  match s.gridObj d i with
  | none => s
  | some g =>
    match g.slabs[k]? with
    | none => s
    | some (n, reg) =>
      let dest := s.gridPeer g reg
      if !s.gridServes g n || !s.slabGate dest n then s
      else
        match ahead with
        | some v => s.slabRead d i g n reg v
        | none =>
          let b := s.slabOf g dest n reg
          let s : State := { s with slabs := s.slabs ++ [b] }
          s.updGrid d i fun g => { g with slabs := g.slabs.eraseIdx k, seen := g.seen.filter fun e => e.1 != (n, reg) }.settle

/-- SLAB_SEND (R307). -/
def execSlabSend (s : State) : Host.Outcome State Fault Refusal :=
  .next (s.slabSend s.focus.d s.focus.i s.focus.k (if s.focus.o = 1 then some s.focus.v else none))

/-- An earlier slab to the same region of the same object is still on its way: steps are served in ascending order (R307). -/
def State.slabBehind (s : State) (i : Nat) (b : Slab) : Bool := (s.slabs.take i).any fun e => e.dest = b.dest && e.region = b.region

/-- A slab from another module comes over the rack ring, piece by piece (R380): with o = 1 its head, for the region k of the descriptor i at step x,
whose other fields v gives; with o = 2 the next d elements, of k bytes each, and with o = 3 the next d scales, of the slab i; with o = 4 it is whole. -/
def State.slabComes (s : State) (f : Focus) : State :=
  let nums : Nat → List Nat := fun n => (List.range f.d).map fun j => f.w.toNat / 2 ^ (8 * n * j) % 2 ^ (8 * n)
  let put : (Slab → Slab) → State := fun h => { s with slabs := lmod s.slabs f.i fun b => if b.whole then b else h b }
  match f.o with
  | 1 =>
    let b : Slab := { src := 8, dest := f.i, region := f.k, step := f.x, fmt := BitVec.ofNat 7 f.v, bs := f.v.testBit 7, bsz := BitVec.ofNat 2 (f.v / 2 ^ 8)
                      gw := f.v / 2 ^ 10 % 16, d := f.v / 2 ^ 14 % 16, elems := [], scales := [], whole := false }
    if paMod f.i = s.mod then { s with slabs := s.slabs ++ [b] } else s
  | 2 => put fun b => { b with elems := b.elems ++ nums f.k }
  | 3 => put fun b => { b with scales := b.scales ++ nums 1 }
  | _ => put fun b => { b with whole := true }

/-- SLAB_DELIVERY (R308): slab i arrives; one for another module leaves this one (R363, R380); one for this module is held while its receiver is not bound or behind its step, and behind an earlier one to
its region; discarded on a mismatch; else written, the region's tag becoming its step. -/
def State.slabDeliver (s : State) (i : Nat) : State :=
  match s.slabs[i]? with
  | none => s
  | some b =>
    if paMod b.dest != s.mod then { s with slabs := s.slabs.eraseIdx i }
    else if !b.whole then s
    else
    match s.gridAt b.dest with
    | none => s
    | some (d, j) =>
      match s.gridObj d j with
      | none => s
      | some g =>
        let r := g.raw
        let l := regElems r b.region
        let s1 : State := { s with slabs := s.slabs.eraseIdx i }
        if !tagAt b.step g.own || s.slabBehind i b then s
        else if !regPresent r b.region || l.length != b.elems.length || b.fmt != gdFmt r || b.bs != gdBs r || b.bsz != gdBsz r
            || b.gw != gdGw r || b.d != gdD r then s1.updGrid d j fun g => { g with mismatched := true }
        else
          let es := (l.zip b.elems).map fun (p : (Int × Int × Int) × Nat) => (elemAddr r (b.step % 2) p.1, gdBytes r, p.2)
          let ss := ((blockHeads r l).zip b.scales).map fun (p : (Int × Int × Int) × Nat) => (scaleAddr r (b.step % 2) p.1, 1, p.2)
          (s1.gridPut g (es ++ ss)).updGrid d j fun g => { g with tags := g.tags.set b.region (some b.step) }

/-- SLAB_DELIVERY (R308): slab i arrives; or, with o from 1 to 4, a piece of one comes from another module. -/
def execSlabDelivery (s : State) : Host.Outcome State Fault Refusal := .next (if s.focus.o = 0 then s.slabDeliver s.focus.i else s.slabComes s.focus)

/-! ## Local fills (R304) -/

/-- A code with its sign flipped: zero and NaN of a binaryKpP format stay as they are. -/
def flipSign (c : FmtCode) (b : Nat) : Nat :=
  let v := fmtDecode c b
  if gridByte c && (v.isZero || v.isNaN) then b else b ^^^ 2 ^ (fmtWidth c - 1)

/-- The depth of an index in dimension k of a ghost region (R303). -/
def ghostDepth (r : GridBits) (n k : Nat) (i : Int) : Nat :=
  if regDir n k = 1 then (i - (gdExt r k : Nat) + 1).toNat else (-i).toNat

/-- The source index of a ghost index in a dimension filled locally. -/
def mirrorIdx (r : GridBits) (n k : Nat) (i : Int) : Int :=
  let d : Int := ghostDepth r n k i
  if regDir n k = 1 then (gdExt r k : Nat) - d else d - 1

/-- The component of an index. -/
def idxAt (i : Int × Int × Int) (k : Nat) : Int := if k = 0 then i.1 else if k = 1 then i.2.1 else i.2.2

/-- The source element of a ghost element. -/
def mirrorElem (r : GridBits) (n : Nat) (ks : List Nat) (i : Int × Int × Int) : Int × Int × Int :=
  let f : Nat → Int := fun k => if ks.contains k then mirrorIdx r n k (idxAt i k) else idxAt i k
  (f 0, f 1, f 2)

/-- The ramp's coefficient of a depth (R300). -/
def State.rampAt (s : State) (g : GridObj) (d : Nat) : XR := f32.decode (s.gridNat g ((gdRamp g.raw + 4 * (d - 1) : Nat) : Int) 4)

/-- A rule of a dimension applied to a run of elements with their scale: one block where bs = 1, else one element. -/
def State.applyRule (s : State) (g : GridObj) (n k : Nat) (l : List (Int × Int × Int)) (cs : List Nat) (sc : Nat) : List Nat × Nat :=
  let r := g.raw
  let c := gdFmt r
  match regRule r n k with
  | 2 => (cs.map fun _ => 0, 0)
  | 4 => (cs.map (flipSign c), sc)
  | 5 =>
    let xs := (l.zip cs).map fun (p : (Int × Int × Int) × Nat) =>
      (s.rampAt g (ghostDepth r n k (idxAt p.1 k))).mul (if gdBs r then scaleBy (fmtDecode c p.2) sc else fmtDecode c p.2)
    if gdBs r then
      let b := encodeBlock xs c 0 0
      (b.codes, b.scale)
    else (xs.map fun x => (roundFmt c 0 0 x.toRV).bits, sc)
  | _ => (cs, sc)

/-- A run of ghost elements filled: its codes and its scale, from the source elements, the rules applied lowest dimension first. -/
def State.fillRun (s : State) (g : GridObj) (n buf : Nat) (ks : List Nat) (l : List (Int × Int × Int)) : List Nat × Nat :=
  let r := g.raw
  let src := l.map (mirrorElem r n ks)
  let cs := src.map fun e => s.gridNat g (elemAddr r buf e) (gdBytes r)
  let sc := match src with | e :: _ => if gdBs r then s.gridNat g (scaleAddr r buf e) 1 else 0 | [] => 0
  ks.foldl (fun (acc : List Nat × Nat) k => s.applyRule g n k l acc.1 acc.2) (cs, sc)

/-- Elements in runs of n. -/
def runsOf {α : Type} (n : Nat) : Nat → List α → List (List α)
  | 0, _ => []
  | _, [] => []
  | f + 1, l => l.take n :: runsOf n f (l.drop n)

/-- Whether a fill reads data, and where from. -/
def fillReads (r : GridBits) (n : Nat) : Bool := (regLocal r n).any fun k => regRule r n k != 2

/-- The bytes of the ramp that a fill reads and whose page is not there (R196, R301). -/
def State.rampLeft (s : State) (g : GridObj) (n : Nat) : List Int :=
  if (regLocal g.raw n).any fun k => regRule g.raw n k = 5 then
    (spanOf ((gdRamp g.raw : Nat) : Int) (4 * gdG g.raw)).filter fun a => (s.viewPa g.view a).isNone
  else []

/-- LOCAL_FILL (R304, R307): fill k of object i of a die is done, once its step may be served and its source region, when it is a
ghost, holds the step; a page of the ramp that is not there is filled first. -/
def State.localFill (s : State) (d i k : Nat) : State :=
  match s.gridObj d i with
  | none => s
  | some g =>
    match g.fills[k]? with
    | none => s
    | some (n, reg) =>
      let r := g.raw
      let ks := regLocal r reg
      let from_ := regFlat reg ks
      if !s.gridServes g n || (fillReads r reg && from_ != 13 && g.tags.getD from_ none != some n) then s
      else if !(s.rampLeft g reg).isEmpty then s.engineFill g.view (s.rampLeft g reg)
      else
        let l := regElems r reg
        let runs := runsOf (if gdBs r then gdBlock r else 1) l.length l
        let out := runs.flatMap fun l =>
          let (cs, sc) := s.fillRun g reg (n % 2) ks l
          let es := (l.zip cs).map fun (p : (Int × Int × Int) × Nat) => (elemAddr r (n % 2) p.1, gdBytes r, p.2)
          match l with
          | e :: _ => if gdBs r then (scaleAddr r (n % 2) e, 1, sc) :: es else es
          | [] => es
        (s.gridPut g out).updGrid d i fun g =>
          { g with fills := g.fills.eraseIdx k, tags := g.tags.set reg (some n) }.settle

/-- LOCAL_FILL (R304). -/
def execLocalFill (s : State) : Host.Outcome State Fault Refusal := .next (s.localFill s.focus.d s.focus.i s.focus.k)

/-! ## Step-checked loads (R311-R313) -/

/-- The fields of an ldh. -/
def ldhStep (x : Word) : BitVec 32 := x.extractLsb' 32 32
def ldhHandle (x : Word) : BitVec 2 := x.extractLsb' 24 2

/-- ldh: a contiguous vector load with its step and its handle. -/
def haloLoad : Trigger :=
  loadTrig 17 12 .read (fun env v => imgSpan (imgRange (auBase env v) 0 (xLen env.lat.auX))) fun env v t =>
    t.pushLoad (.ldh (ldhStep env.lat.auX) (ldhHandle env.lat.auX) none) (auBase env v)
      (imgRange (auBase env v) 0 (xLen env.lat.auX)) 256 (xLen env.lat.auX) true env.ldqf 0

/-- What the check of a step-checked load says: no check is due; current; or stale, with the object and the lowest stale byte. -/
inductive LdhFate where
  | plain
  | current
  | stale (d i : Nat) (addr : Nat)
deriving DecidableEq, Repr

/-- The element of a buffer that a byte at an offset belongs to: none for padding. -/
def elemOf (r : GridBits) (o : Nat) : Option (Int × Int × Int) :=
  let row := gdRstride r
  let col := o % row
  if gdP r 0 * gdBytes r ≤ col then none
  else
    some ((((col / gdBytes r : Nat) : Int) - (gdGk r 0 : Nat)), (((o / row % gdP r 1 : Nat) : Int) - (gdGk r 1 : Nat)),
      (((o / row / gdP r 1 : Nat) : Int) - (gdGk r 2 : Nat)))

/-- The region of an element, and its depth (R303). -/
def elemRegion (r : GridBits) (i : Int × Int × Int) : Nat :=
  ([0, 1, 2].map fun (k : Nat) => (if idxAt i k < 0 then 0 else if idxAt i k < (gdExt r k : Nat) then 1 else 2) * 3 ^ k).sum
def elemDepth (r : GridBits) (i : Int × Int × Int) : Nat :=
  let n := elemRegion r i
  ([0, 1, 2].map fun k => if regDir n k = 0 then 0 else ghostDepth r n k (idxAt i k)).foldl Nat.max 0

/-- A ghost element is current for step u (R312). -/
def GridObj.currentAt (g : GridObj) (u : Nat) (i : Int × Int × Int) : Bool :=
  let r := g.raw
  let n := elemRegion r i
  if n = 13 then true
  else
    match g.tags.getD n none with
    | none => false
    | some t => 1 ≤ u && t ≤ u - 1 && u - 1 - t ≤ gdD r - 1 && elemDepth r i + (u - 1 - t) * gdGw r ≤ gdG r

/-- The check of a request (R311, R312). -/
def State.ldhFate (s : State) (c : Nat) (t : Ctx) (q : LoadReq) (u : BitVec 32) (h : BitVec 2) : LdhFate :=
  match s.gridOf c t h.toNat with
  | none => .plain
  | some (d, i, g) =>
    let base := gdBase g.raw ((u.toNat + 1) % 2)
    if q.va < base || base + gdSize g.raw < q.va + q.len then .plain
    else
      let bad : Nat → Bool := fun (j : Nat) => match elemOf g.raw (q.va + j - base) with
        | some e => !g.currentAt u.toNat e
        | none => false
      match (List.range q.len).find? bad with
      | some j => .stale d i (q.va + j)
      | none => .current

/-- A step-checked load of a context that waits for its check: one pending again in the LDQ, by its place, or the head of the LAQ
with room in the LDQ. -/
def Ctx.ldhNext (t : Ctx) : Option (Option Nat × LoadReq) :=
  match t.ldq.findIdx? fun e => !e.landed && match e.req.op with | .ldh .. => true | _ => false with
  | some i => (t.ldq[i]?).map fun e => (some i, e.req)
  | none =>
    match t.laq with
    | q :: _ => match q.op with | .ldh .. => if t.ldq.length < 32 then some (none, q) else none | _ => none
    | [] => none

/-- Replaces the request that was checked, or sends it to the LDQ. -/
def Ctx.ldhPut (t : Ctx) (at_ : Option Nat) (e : LdqEntry) : Ctx :=
  match at_ with
  | some i => { t with ldq := t.ldq.set i { e with held := true } }
  | none => { t with laq := t.laq.drop 1, ldq := t.ldq ++ [e] }

/-- A stale request lands marked STALEHALO; the loads counter falls the first time (R123, R313). -/
def Ctx.ldhMark (t : Ctx) (at_ : Option Nat) (q : LoadReq) (a : Nat) : Ctx :=
  let t' := t.ldhPut at_ { req := q, mark := some { cause := .stalehalo, addr := a }, landed := true }
  if at_.isSome then t' else { t' with cnt := { t'.cnt with loads := t'.cnt.loads - 1 } }

/-- A stale request waits: the clk of its first check is kept (R313). -/
def Ctx.ldhWait (t : Ctx) (at_ : Option Nat) (q : LoadReq) : Ctx :=
  match at_ with
  | some i => { t with ldq := lmod t.ldq i fun e => { e with req := q } }
  | none => { t with laq := match t.laq with | _ :: r => q :: r | [] => [] }

/-- A request whose time is out lands marked, and its object says so (R313). -/
def State.ldhExpire (s : State) (c x d i : Nat) (at_ : Option Nat) (q : LoadReq) (a : Nat) : State :=
  (s.updGrid d i fun g => { g with timedOut := true }).setCtx c x ((s.ctx c x).ldhMark at_ q a)

/-- LDH_CHECK (R311-R313): a request that is stale when its time is out lands marked. -/
def State.ldhCheck (s : State) (c x : Nat) : State :=
  let t := s.ctx c x
  match t.ldhNext with
  | none => s
  | some (p, q) =>
    match q.op with
    | .ldh u h since =>
      match s.ldhFate c t q u h with
      | .stale d i a =>
        match s.gridObj d i with
        | some g =>
          if gdStl g.raw then s.setCtx c x (t.ldhMark p q a)
          else if since.any fun n => n + 2 ^ gdTex g.raw ≤ s.clk then s.ldhExpire c x d i p q a
          else s.setCtx c x (t.ldhWait p { q with op := .ldh u h (some (since.getD s.clk)) })
        | none => s
      | _ => s.setCtx c x (t.ldhPut p { req := { q with op := .plain } })
    | _ => s

/-- LDH_CHECK (R312). -/
def execLdhCheck (s : State) : Host.Outcome State Fault Refusal := .next (s.ldhCheck s.focus.c s.focus.x)

/-- STALEHALO_TIMEOUT (R313): a request still stale 2^tex clk after its first check lands marked, and the object says so. -/
def State.ldhTimeout (s : State) (c x : Nat) : State :=
  let t := s.ctx c x
  match t.ldhNext with
  | none => s
  | some (p, q) =>
    match q.op with
    | .ldh u h (some n) =>
      match s.ldhFate c t q u h with
      | .stale d i a =>
        match s.gridObj d i with
        | some g =>
          if s.clk < n + 2 ^ gdTex g.raw then s else s.ldhExpire c x d i p q a
        | none => s
      | _ => s
    | _ => s

/-- The step-checked loads whose time is out as clk pass (R313). -/
def State.ldhDue (s : State) : State :=
  s.cores.foldl (fun (s : State) k => [0, 1, 2, 3].foldl (fun (s : State) x => s.ldhTimeout k.1 x) s) s

/-- STALEHALO_TIMEOUT (R313). -/
def execStalehaloTimeout (s : State) : Host.Outcome State Fault Refusal := .next (s.ldhTimeout s.focus.c s.focus.x)

end Sys2Proof.Machine
end

