-- ==== Sys2Proof/Machine/GuyRows.lean ====
section
/-!
DEFINITION. The rows ldh, gbind, gstep, gwait and gqry (R305-R311).
-/

namespace Sys2Proof.Machine

/-- LDH as a trigger: Pushes a step-checked halo vector load (R311). -/
def trigLdh : Trigger := haloLoad

/-- LDH: the bundle that holds this move alone issues (R311). -/
def execLdh (g : Guard) (src : Src) (s : State) : Host.Outcome State Fault Refusal :=
  s.issueSolo (soloMove g src (.trig trigLdh))

/-- GBIND as a trigger: Binds or unbinds a grid object to a handle (R306). -/
def trigGbind : Trigger := { xuTrig 1 (fun env s v => s.gbindAct env v) with check := gbindTrap, wait := gbindWait, results := fun _ => 0 }

/-- GBIND: the bundle that holds this move alone issues (R306). -/
def execGbind (g : Guard) (src : Src) (s : State) : Host.Outcome State Fault Refusal :=
  s.issueSolo (soloMove g src (.trig trigGbind))

/-- GSTEP as a trigger: Publishes a step and starts the slab reads and local fills (R307). -/
def trigGstep : Trigger := { xuTrig 2 (fun env s v => s.gstepAct env v) with results := fun _ => 1 }

/-- GSTEP: the bundle that holds this move alone issues (R307). -/
def execGstep (g : Guard) (src : Src) (s : State) : Host.Outcome State Fault Refusal :=
  s.issueSolo (soloMove g src (.trig trigGstep))

/-- GWAIT as a trigger: Blocks until the ghost tags or the sent step reach a step (R309). -/
def trigGwait : Trigger := { xuTrig 3 (fun _ s _ => s) with wait := gwaitWait }

/-- GWAIT: the bundle that holds this move alone issues (R309). -/
def execGwait (g : Guard) (src : Src) (s : State) : Host.Outcome State Fault Refusal :=
  s.issueSolo (soloMove g src (.trig trigGwait))

/-- GQRY as a trigger: Returns a region tag, a step or the grid status (R310). -/
def trigGqry : Trigger := { xuTrig 4 (fun env s v => s.gqryAct env v) with results := fun _ => 1 }

/-- GQRY: the bundle that holds this move alone issues (R310). -/
def execGqry (g : Guard) (src : Src) (s : State) : Host.Outcome State Fault Refusal :=
  s.issueSolo (soloMove g src (.trig trigGqry))

end Sys2Proof.Machine
end

