-- ==== Sys2Proof/Machine/Larder.lean ====
section
/-!
DEFINITION. Larder, part one (18): the expert residency table and its fills (R314-R318, R331, R332), and routing: proposals, heaps and
the round's barrier (R319-R324).
-/

namespace Sys2Proof.Machine

/-! ## Entries (R314, R315) -/

/-- The state an entry reads: 3 while it is resident with pins (R315). -/
def Expert.stateCode (e : Expert) : Nat := if e.state = 2 && 0 < e.pins then 3 else e.state

/-- An expert of a virtual interface's range (R314): another is treated as invalid. -/
def State.inLrange (s : State) (v e : Nat) : Bool :=
  let (base, count) := (s.vi v).lrange
  base ≤ e && e < base + count

/-- An entry that an operation of a virtual interface may name. -/
def State.expertOk (s : State) (v e : Nat) : Bool := (s.expert e).valid && s.inLrange v e

/-- The first byte of an entry's slot, and its length. -/
def State.slotBase (s : State) (e : Expert) : Nat := s.mod * 2 ^ 50 + e.die * 2 ^ 37 + e.res % 2 ^ 16 * 2 ^ 21
def Expert.bytes (e : Expert) : Nat := 2 ^ 21 * (e.size + 1)

/-- Two slots overlap (R316). -/
def Expert.overlaps (a b : Expert) : Bool := a.res ≤ b.res + b.size && b.res ≤ a.res + a.size

/-- The other entries whose slots overlap an entry's. -/
def State.sharers (s : State) (e : Nat) : List (Nat × Expert) := s.larder.filter fun p => p.1 != e && p.2.overlaps (s.expert e)

/-- An entry's 256 bits as they read (R315): pre reads 0, and whead is 0xFFFF where the waiter list is empty. -/
def Expert.bits (k : Expert) (e : Nat) : BitVec 256 :=
  let f : Nat → Nat → BitVec 256 := fun v lo => BitVec.ofNat 256 v <<< lo
  f k.src 208 ||| f k.nvme.toNat 207 ||| f k.res 188 ||| f k.size 176 ||| f k.cap 164 ||| f k.home 154 ||| f k.hoff 142 ||| f k.last.toNat 96
    ||| f k.pins 80 ||| f (match k.waiters with | h :: _ => h.node | [] => 0xFFFF) 64 ||| f (e % 8192) 51 ||| f k.err.toNat 4
    ||| f k.valid.toNat 3 ||| f k.stateCode 0

/-! ## Writes of entries (R316) -/

/-- The software's fields of an entry's 256 bits. -/
def Expert.ofBits (b : BitVec 256) (old : Expert) : Expert :=
  { old with src := (b.extractLsb' 208 48).toNat, nvme := b.getLsbD 207, res := (b.extractLsb' 188 19).toNat
             size := (b.extractLsb' 176 12).toNat, cap := (b.extractLsb' 164 12).toNat, home := (b.extractLsb' 154 10).toNat
             hoff := (b.extractLsb' 142 12).toNat }

/-- An entry's fields may be written: it is absent, with no pin and no waiter. -/
def Expert.idle (e : Expert) : Bool := e.state = 0 && e.pins = 0 && e.waiters.isEmpty

/-- A slot and a heap area fit (R316). -/
def Expert.fits (e : Expert) : Bool := e.res % 2 ^ 16 + e.size + 1 ≤ 61035 && e.hoff * 512 + 16 * (e.cap + 1) ≤ 2 ^ 21

/-- A write of entry e, by the physical function (R314, R316): one that makes it resident raises the pins that xpref owes it (R331). -/
def State.larderWrite (s : State) (e : Nat) (b : BitVec 256) : State :=
  let old := s.expert e
  let new := Expert.ofBits b old
  let keep := if old.idle then new else old
  let busy := s.larder.any fun p => p.1 != e && p.2.overlaps new && p.2.state != 0
  if b.getLsbD 3 then
    if !new.fits || (b.getLsbD 2 && (!old.idle || busy)) then s
    else
      s.updExpert e fun _ =>
        let keep := { keep with valid := true, heap := [] }
        if b.getLsbD 2 then { keep.pinBy keep.prefPins with state := 2, prefPins := 0 } else keep
  else s.updExpert e fun _ => { keep with valid := false, heap := [] }

/-! ## Fills (R317, R318) -/

/-- A fill is requested: nothing for an entry that is filling or resident. Requests are ordered by clk, then by id. -/
def State.requestFill (s : State) (e : Nat) : State :=
  if (s.expert e).state != 0 then s
  else s.updExpert e fun k => { k with state := 1, reqOrder := s.clk * 8192 + e, copying := false, failed := false }

/-- A run of bytes from a chunk of a backing slot on lies in the slot's namespace (R317). -/
def State.inNamespace (s : State) (slot chunk n : Nat) : Bool :=
  let b := tget 0 s.slots slot
  slotLba b * 2 ^ slotLbs b + chunk * 2 ^ 21 + n ≤ Config.nsLbas (slotPort b) (slotNs b) * 2 ^ slotLbs b

/-- The first byte of an entry's source among the bytes of memory or of NVMe: none where it cannot be reached (R315, R317, R401). -/
def State.fillSource (s : State) (k : Expert) : Option Nat :=
  if k.nvme then
    let slot := k.src / 2 ^ 27 % 256
    let chunk := k.src % 2 ^ 27
    if s.inNamespace slot chunk k.bytes then s.chunkAddr slot chunk else none
  else if k.src + k.bytes ≤ 2 ^ 44 then some (s.mod * 2 ^ 50 + 2 * 2 ^ 48 + k.src) else none

/-- A filling entry may start to copy (R317): those overlapping it that asked earlier have settled, and none is pinned. -/
def State.fillReady (s : State) (e : Nat) : Bool :=
  let k := s.expert e
  k.state = 1 && !k.copying
    && (s.sharers e).all fun p => !(p.2.state = 1 && (p.2.copying || p.2.reqOrder < k.reqOrder)) && p.2.stateCode != 3

/-- EXPERT_FILL_START (R317): entry i starts to copy, the overlapping resident entries being evicted: at most 16 copies run, and they
start in the order of the requests. -/
def execExpertFillStart (s : State) : Host.Outcome State Fault Refusal :=
  let e := s.focus.i
  let k := s.expert e
  .next (if !s.fillReady e || 16 ≤ (s.larder.countP fun p => p.2.copying)
      || (s.larder.any fun p => p.2.reqOrder < k.reqOrder && s.fillReady p.1) then s
    else
      let s : State := ((s.sharers e).filter fun p => p.2.state = 2).foldl (fun (s : State) p =>
        (s.dropFrame (s.slotBase p.2) p.2.bytes).updExpert p.1 fun k => { k with state := 0 }) s
      s.updExpert e fun k => { k with copying := true })

/-- A block leaves the parked ones of its walk. -/
def Walk.unpark (w : Walk) (i : Nat) : Walk := { w with parked := w.parked.filter fun b => b.idx != i }

/-- A parked block is requeued at the end of the dispatch order (R330). -/
def State.requeue (s : State) (h : Waiter) : State :=
  s.updWalk h.walk fun w =>
    let b := w.parked.filter fun b => b.idx = h.idx
    { w.unpark h.idx with order := w.order ++ b.map fun b => { b with requeued := true } }

/-- A parked block is released after a fill that failed twice (R330). -/
def State.release (s : State) (h : Waiter) : State :=
  match s.walk? h.walk with
  | none => s
  | some w =>
    let s := (s.setBlockSt w h.idx 3 true).bumpDone w
    let s := s.vaMask w.wins w.launch w.emitter w.header 1 2 2
    (s.updWalk h.walk fun w => { w.unpark h.idx with done := w.done + 1 }).walkDone h.walk

/-- The last byte of entry e's copy is performed (R317, R318, R330, R331). -/
def State.expertResident (s : State) (e : Nat) : State :=
  let k := s.expert e
  let ws := k.waiters
  let s := ws.foldl State.requeue s
  let s := s.updExpert e fun k =>
    { k.pinBy (ws.length + k.prefPins) with state := 2, copying := false, failed := false, err := false, waiters := [], prefPins := 0 }
  { s with nodesUsed := s.nodesUsed - ws.length }

/-- EXPERT_FILL_COMPLETE (R317): entry i's copy ends, when its source can be read without an uncorrectable error. -/
def execExpertFillComplete (s : State) : Host.Outcome State Fault Refusal :=
  let e := s.focus.i
  let k := s.expert e
  .next (if k.state != 1 || !k.copying then s
    else
      match s.fillSource k with
      | none => s
      | some a =>
        let base := s.slotBase k
        if k.nvme then ({ s with mem := memPaste s.mem base k.bytes (cellsMoved s.nvmeMem a k.bytes base) } : State).expertResident e
        else if s.badEcc.any fun p => a ≤ p && p < a + k.bytes then s
        else ({ s with mem := memMove s.mem a k.bytes base } : State).expertResident e)

/-- EXPERT_FILL_FAIL (R317): entry i's copy meets an error. It is started once more; then the entry is absent with err, and its
parked blocks are released. -/
def execExpertFillFail (s : State) : Host.Outcome State Fault Refusal :=
  let e := s.focus.i
  let k := s.expert e
  .next (if k.state != 1 || !k.copying then s
    else if !k.failed then s.updExpert e fun k => { k with failed := true }
    else
      let s := s.updExpert e fun k => { k with state := 0, copying := false, failed := false, err := true, waiters := [] }
      k.waiters.foldl State.release { s with nodesUsed := s.nodesUsed - k.waiters.length })

/-! ## xpref, xqry (R331, R332) -/

/-- xpref: an unpin; or a request, with a pin at once or when the entry becomes resident. -/
def State.xprefAct (s : State) (env : Env) (v : Word) : State :=
  let e := v.toNat % 8192
  if !s.expertOk env.t0.vi e then s
  else if v.getLsbD 14 then s.updExpert e fun k => { k with pins := k.pins - 1 }
  else
    let s := s.requestFill e
    if !v.getLsbD 13 then s
    else s.updExpert e fun k => if k.state = 2 then k.pinBy 1 else { k with prefPins := k.prefPins + 1 }

/-- The walk and the record of the block a context runs (R332). -/
def State.blockOf (s : State) (t : Ctx) : Option (Walk × Nat) :=
  t.worker.bind fun w => if w.phase != .iteration then none else w.walk.bind fun p => p.block.bind fun b => (s.walk? p.walk).map fun k => (k, b)

/-- The word that xqry reads. -/
def State.xqry (s : State) (t : Ctx) (v : Word) : Word :=
  let e := (v.extractLsb' 4 13).toNat
  let k := s.expert e
  match v.toNat % 16 with
  | 0 => match s.blockOf t with | some (w, b) => BitVec.ofNat 64 (w.recVa b) | none => 0
  | 1 => match s.blockOf t with | some (w, b) => (w.emitted.getD b 0).extractLsb' 0 64 | none => 0
  | 2 => match s.blockOf t with | some (w, b) => (w.emitted.getD b 0).extractLsb' 64 64 | none => 0
  | 3 => if s.expertOk t.vi e then BitVec.ofNat 64 (k.stateCode + k.err.toNat * 4 + k.pins * 2 ^ 16 + k.last.toNat * 2 ^ 32) else 0
  | 4 => if s.expertOk t.vi e then BitVec.ofNat 64 k.settledSize else 0
  | _ => 0

/-- xqry, with latency 4. -/
def State.xqryAct (s : State) (env : Env) (v : Word) : State := s.xuResult env (s.xqry (s.ctx env.c env.x) v) 4

/-! ## Proposals and heaps (R319-R323) -/

/-- better(p, q) (R322). -/
def Proposal.better (p q : Proposal) : Bool :=
  let a := f32.decode p.score.toNat
  let b := f32.decode q.score.toNat
  b.lt a || (a.eq b && p.token < q.token)

/-- The held proposal that is better than no other. -/
def worst : List Proposal → Option Proposal
  | [] => none
  | p :: ps =>
    match worst ps with
    | some q => if p.better q then some q else some p
    | none => some p

/-- A token is dropped in its round (R322, R324). -/
def State.dropToken (s : State) (p : Proposal) : State :=
  s.updLaunch p.launch fun l => if l.settle.gen = p.round then { l with dropped := l.dropped + 1 } else l

/-- The proposal of rank n and those that follow, over n of the record's choices left: one for an expert that is invalid falls at once;
past the last the token is dropped (R321, R322). -/
def State.propose : Nat → State → Proposal → State
  | 0, s, p => s.dropToken p
  | f + 1, s, p =>
    if memNat s.mem (p.rcd + 3) 1 % 8 ≤ p.rank then s.dropToken p
    else
      let w := memNat s.mem (p.rcd + 8 + 8 * p.rank) 8
      let q := { p with score := BitVec.ofNat 32 w, expert := w / 2 ^ 32 % 8192 }
      if s.expertOk p.vi q.expert then { s with proposals := s.proposals ++ [q] } else s.propose f { q with rank := q.rank + 1 }

/-- A proposal falls (R322). -/
def State.fall (s : State) (p : Proposal) : State := s.propose 8 { p with rank := p.rank + 1 }

/-- The port writes the heap area of an expert, whose layout the spec leaves open (R322, log 5): each of its bytes takes a free
value. -/
def State.scribbleHeap (s : State) (k : Expert) : State :=
  let n := 16 * (k.cap + 1)
  let base := scratchBase s.mod k.home + k.hoff * 512
  { s with mem := memWrite s.mem base ((List.range n).map fun j => Config.freeByte (s.freeCtr + j)), freeCtr := s.freeCtr + n }

/-- A proposal arrives at its expert's heap (R322). -/
def State.arrive (s : State) (p : Proposal) : State :=
  let k := s.expert p.expert
  if !s.expertOk p.vi p.expert || (f32.decode p.score.toNat).isNaN then s.fall p
  else if k.heap.length < k.cap + 1 then
    (s.scribbleHeap k).updExpert p.expert fun k => { k with heap := k.heap ++ [p] }
  else
    match worst k.heap with
    | none => s.fall p
    | some m =>
      if p.better m then
        ((s.scribbleHeap k).updExpert p.expert fun k => { k with heap := k.heap.erase m ++ [p] }).fall m
      else s.fall p

/-- PROPOSAL_ARRIVE (R322): proposal i of those in flight arrives; the round it belongs to may then be over. -/
def execProposalArrive (s : State) : Host.Outcome State Fault Refusal :=
  .next (match s.proposals[s.focus.i]? with
    | none => s
    | some p =>
      let s := ({ s with proposals := s.proposals.eraseIdx s.focus.i } : State).arrive p
      s.launches.foldl (fun (s : State) l => s.settleRound l.id) s)

/-- The record's address of an xscore, and its lookup (R321). -/
def scoreVa (env : Env) (v : VWord) : Nat := (env.lat.xuO.toNat + v.toNat % 2 ^ 64) % 2 ^ 48 / 64 * 64
def scoreTrap (env : Env) (s : State) (v : VWord) : Option Trap :=
  s.spanTrap env (some ((scoreVa env v : Nat), ((scoreVa env v + 63 : Nat) : Int))) .read

/-- xscore takes its place in the SAQ (R321). -/
def State.xscoreAct (s : State) (env : Env) (v : Word) : State :=
  s.updCtx env.c env.x fun t => t.pushStore .xscore (scoreVa env (v.zeroExtend 2048)) 0

/-- An xscore at the SAQ head (R321): once every earlier store and amo is performed at scope 5 the record is read and the proposal of
rank 0 sent; a byte of it that fails holds it as a store fault. -/
def State.drainScore (s : State) (c x : Nat) (r : StoreReq) : State :=
  let t := s.ctx c x
  if !s.storesDone c x r.seq 5 then s
  else
    match s.storeMark c t (imgRange r.va 0 64) fun _ => none with
    | some m => (s.fillFor c t ((imgRange r.va 0 64).map (·.1))).holdStore c x m
    | none =>
      match (s.locate c t (r.va : Int)).bind s.landing with
      | none => s
      | some pa =>
        let gen := match s.launch? t.launch with | some l => l.settle.gen | none => 0
        (s.sendStore c x r [] false).propose 8
          { token := memNat s.mem pa 3, rank := 0, score := 0, expert := 0, rcd := pa, vi := t.vi, launch := t.launch, round := gen }

/-! ## xsettle (R324) -/

/-- An xscore of a context has not left the SAQ. -/
def Ctx.scoreOwed (t : Ctx) : Bool := t.saq.any fun r => r.op = .xscore

/-- The arrival of an xsettle's bundle. -/
def State.settleSend (s : State) (c x : Nat) : State :=
  let t := s.ctx c x
  match s.launch? t.launch with
  | none => s
  | some l =>
    let s := s.updLaunch l.id fun l => { l with settle := l.settle.arrive t.uid }
    (s.updCtx c x fun t => { t with settleReg := some l.settle.gen }).settleRound l.id

/-- The wait of xsettle: its arrival is made once every other wait of the bundle is satisfied; a one-member team's round that is over completes in the cycle of arrival. -/
def xsettleWait (env : Env) (s : State) (_ : VWord) : Wait :=
  match s.launch? env.t0.launch with
  | none => .ready
  | some l =>
    match env.t0.settleReg with
    | some g => if g < l.settle.gen then .ready else .sent
    | none =>
      if env.t0.scoreOwed then .block
      else if l.settle.members = [env.t0.uid] && ({ l with settle := l.settle.arrive env.t0.uid } : Launch).roundOver s.proposals then .ready
      else .sendLast fun s => s.settleSend env.c env.x

/-- xsettle as its bundle issues: the tokens dropped in the round. -/
def State.xsettleAct (s : State) (env : Env) (_ : Word) : State :=
  let s := if env.t0.settleReg.isNone then s.settleSend env.c env.x else s
  let n := match s.launch? env.t0.launch with | some l => l.settled | none => 0
  (s.updCtx env.c env.x fun t => { t with settleReg := none }).xuResult env (BitVec.ofNat 64 n) 1

end Sys2Proof.Machine
end

