-- ==== Sys2Proof/Machine/Place.lean ====
section
/-!
DEFINITION. Loop records as read (R135), the freeze of a virtual interface (R360, R399), contexts claimed for workers, and WORKER_START
(R8, R13, R64, R137, R153, R185, R187, R261, R359).
-/

namespace Sys2Proof.Machine

/-! ## Loop records (R135) -/

/-- The kind of a level. -/
def levelKind (n : Nat) : LevelKind :=
  match n with
  | 0 => .unused
  | 1 => .temporal
  | 2 => .core
  | _ => .die

/-- The fields of a loop record. -/
def LoopRec.ofBits (b : BitVec 512) : LoopRec :=
  { elen := (b.extractLsb' 498 14).toNat
    energy := (b.extractLsb' 466 32).toNat
    queue := recQueue b
    prio := recPrio b
    tickets := recTickets b
    scope := b.extractLsb' 424 16
    wtab := (b.extractLsb' 386 38).toNat
    counts := [(b.extractLsb' 274 28).toNat, (b.extractLsb' 302 28).toNat, (b.extractLsb' 330 28).toNat, (b.extractLsb' 358 28).toNat]
    kinds := [levelKind (b.extractLsb' 266 2).toNat, levelKind (b.extractLsb' 268 2).toNat, levelKind (b.extractLsb' 270 2).toNat,
      levelKind (b.extractLsb' 272 2).toNat]
    mode := (b.extractLsb' 264 2).toNat
    dies := recDies b
    cores := (b.extractLsb' 249 7).toNat
    ctxs := (b.extractLsb' 247 2).toNat
    regs := (b.extractLsb' 244 3).toNat
    accs := b.extractLsb' 240 4
    tiles := b.extractLsb' 224 16
    trip := (b.extractLsb' 192 32).toNat
    kend := b.extractLsb' 144 47
    epi := b.extractLsb' 96 47
    ev := b.getLsbD 95
    pro := b.extractLsb' 48 47
    pv := b.getLsbD 47
    kernel := b.extractLsb' 0 47
    ptab := (b.extractLsb' 274 48).toNat }

/-! ## The end of a reset (R400) -/

/-- A virtual interface once its reset is over: what only the physical function writes stays. -/
def VI.afterReset (k : VI) : VI :=
  { k with frozen := false, vcause := 0, resetting := false, lseq := 0, cseq := 0, eseq := 0, elbase := 0, elsize := 0, sseed := 1, finals := []
           wd := k.wd.map fun e => (e.1, { e.2 with state := .idle, count := 0 }) }

/-- A reset ends once no launch of its interface is left. -/
def State.endReset (s : State) (v : Nat) : State :=
  if (s.vi v).resetting && !(s.launches.any fun l => l.vi = v) then s.updVI v VI.afterReset else s

/-! ## Workers in contexts -/

/-- A context as a launch claims it for a worker (R8, R162): its allotments, and everything else as at a kernel's first bundle. -/
def Ctx.placed (w : Worker) : Ctx :=
  { worker := some w, nregs := 8 * (w.rcd.regs + 1), tiles := w.rcd.tiles, accs := w.rcd.accs, starting := true }

/-- SEED of a worker (R13). -/
def seedOf (sseed : Word) (mod rank : Nat) : Word :=
  let w : Word := BitVec.ofNat 64 (mod * 2 ^ 16 + rank)
  let s := sseed ^^^ (w * 0x9E3779B97F4A7C15#64)
  if s = 0 then 1 else s

/-- The rank a worker's SEED is formed from (R13). -/
def Worker.seedRank (w : Worker) (c x : Nat) : Nat := if w.walk.isSome then 4 * c + x else w.modRank

/-- The first bundle of a worker: of a block walk, its prologue or its first block; else as R137 says. -/
def State.beginWorker (s : State) (c x : Nat) (w : Worker) : State :=
  match w.walk with
  | none => s.toStart c x w
  | some p =>
    if w.rcd.pv then
      let (t, e) := (s.ctx c x).enter { w with phase := .prologue } w.rcd.pro
      if e then s.nextBlock (p.next.length + 1) c x w else s.setCtx c x t
    else s.nextBlock (p.next.length + 1) c x w

/-- A claimed worker starts (R137): its window table is copied and checked, SEED formed, its kernel's loops and routines loaded, its
handles bound. A window outside PART is a violation, found at the copy. -/
def State.startWorker (s : State) (c x : Nat) : State :=
  let t := s.ctx c x
  match t.worker with
  | none => s
  | some w =>
    if !t.starting || t.frozen || s.images.any fun i => i.uid = w.uid && i.saved.isSome then s
    else
      let l := (s.launch? w.launch).getD { id := 0, vi := w.vi, queue := 0, rcd := {}, taken := true, scope := nilScope }
      let w' := s.withTable w
      let seed := seedOf l.sseed s.mod (w.seedRank c x)
      let s := (s.takeUp c x w l).updCtx c x fun t => { t with starting := false, ctl := { t.ctl with seed := seed, step := l.step } }
      ((s.updDog l.vi l.queue Watchdog.start).beginWorker c x w').checkPart w'

/-- WORKER_START (R137). -/
def execWorkerStart (s : State) : Host.Outcome State Fault Refusal := .next (s.startWorker s.focus.c s.focus.x)

end Sys2Proof.Machine
end

