-- ==== Sys2Proof/Machine/Emit.lean ====
section
/-!
DEFINITION. Larder, part two (18): emission (R325-R327), and the block walker: batches, dispatch, parking (R173, R328-R330).
-/

namespace Sys2Proof.Machine

/-! ## The topology table (R325, R326) -/

def topRows (h : BitVec 512) : Nat := (h.extractLsb' 464 48).toNat
def topBlk (h : BitVec 512) : Nat := (h.extractLsb' 416 48).toNat
def topScope (h : BitVec 512) : BitVec 16 := h.extractLsb' 400 16
def topRcap (h : BitVec 512) : Nat := (h.extractLsb' 384 16).toNat
def topStep (h : BitVec 512) : BitVec 32 := h.extractLsb' 352 32

/-- The first 128 bits of a ragged tile record as emitted. -/
def tileRecord (e size j first : Nat) : BitVec 128 :=
  let v := Nat.min 32 (size - 32 * j)
  BitVec.ofNat 128 (e + v * 2 ^ 16 + j * 2 ^ 24 + size * 2 ^ 32 + (first + 32 * j) * 2 ^ 64 + (2 ^ v - 1) * 2 ^ 96)

/-- A list of proposals in ascending token index. -/
def byToken (l : List Proposal) : List Proposal :=
  l.foldl (fun r p => r.filter (fun q => q.token ≤ p.token) ++ p :: r.filter (fun q => p.token < q.token)) []

/-! ## xemit (R327) -/

/-- The header's address, the die and whether the walk starts. -/
def emitVa (env : Env) : Nat := env.lat.xuO.toNat % 2 ^ 48 / 64 * 64
def emitDie (v : Word) : Nat := v.toNat % 8
def emitGo (v : Word) : Bool := v.getLsbD 3

/-- The lookup of an xemit. -/
def emitTrap (env : Env) (s : State) : Option Trap :=
  s.spanTrap env (some ((emitVa env : Nat), ((emitVa env + 63 : Nat) : Int))) .both

/-- What an emission finds: its header, whether its address checks pass, and its experts with their held tokens. -/
structure Emission where
  hdr : BitVec 512
  ok : Bool
  held : List (Nat × List Proposal)

/-- Blocks of a number of tokens. -/
def tilesOf (n : Nat) : Nat := (n + 31) / 32

/-- The records that an emission needs. -/
def Emission.need (m : Emission) : Nat := (m.held.map fun e => tilesOf e.2.length).sum

/-- The rows that it writes. -/
def Emission.rows (m : Emission) : Nat := (m.held.map fun e => e.2.length).sum

/-- What the ports of a die find before any write. -/
def State.emission (s : State) (env : Env) (v : Word) : Emission :=
  let t := env.t0
  let h : BitVec 512 := BitVec.ofNat 512 (s.vaNat t.wins t.launch env.c (emitVa env) 64)
  let span : Nat → Nat → Need → Bool := fun a n need => n = 0 || (s.lookup env.c t (a : Nat) ((a + n - 1 : Nat) : Int) need).isNone
  { hdr := h
    ok := span (emitVa env + 64) (32 * topRcap h) .both && span (topRows h) (256 * topRcap h) .both
      && (!emitGo v || span (topBlk h) 64 .read)
    held := s.larder.filterMap fun p =>
      if s.expertOk t.vi p.1 && dieOf p.2.home = emitDie v && !p.2.heap.isEmpty then some (p.1, byToken p.2.heap) else none }

/-- The bytes an xemit touches that no frame holds: the header's, and those it is about to read or write. -/
def State.emitAbsent (s : State) (env : Env) (v : Word) : List Int :=
  let gone : List Int → List Int := fun l => l.filter fun a => s.byteFault env.c env.t0 a = some .resid
  let h := gone (spanOf (emitVa env : Nat) 64)
  if !h.isEmpty then h
  else
    let m := s.emission env v
    if !m.ok || topRcap m.hdr < m.need then []
    else
      gone (spanOf ((emitVa env + 64 : Nat) : Int) (32 * m.need)) ++ gone (spanOf (topRows m.hdr : Nat) (8 * m.rows))
        ++ if emitGo v then gone (spanOf (topBlk m.hdr : Nat) 64) else []

/-- The wait of xemit: pages, then the acknowledgement of a scope on another die, then pages that have been taken away meanwhile (R196, R327). -/
def emitWait (env : Env) (s : State) (v : VWord) : Wait :=
  let v : Word := v.truncate 64
  let l := s.emitAbsent env v
  let fill : Wait := .work fun s => s.fillFor env.c env.t0 l
  match env.t0.request .xu with
  | some a => if a.reply.isNone then .sent else if l.isEmpty then .ready else fill
  | none =>
    if !l.isEmpty then fill
    else
      let m := s.emission env v
      let a : Awaiting := { unit := .xu, code := 0x387, a := env.lat.xuO, t := v }
      if emitGo v && m.ok && m.need ≤ topRcap m.hdr && scopeRemote env.c (topScope m.hdr) then
        .send fun s => s.askScope env a (topScope m.hdr) false
      else .send fun s => s.ask env { a with reply := some (.value 0) }

/-- The records of an emission, and its rows: an expert, its tokens and its first row at a time. -/
def emitLists : Nat → List (Nat × List Proposal) → List (BitVec 128) × List Proposal
  | _, [] => ([], [])
  | row, (e, ps) :: es =>
    let (rs, qs) := emitLists (row + ps.length) es
    (((List.range (tilesOf ps.length)).map fun j => tileRecord e ps.length j row) ++ rs, ps ++ qs)

/-- The writes of an emission, and what it does to its experts. -/
def State.emitWrite (s : State) (env : Env) (m : Emission) : State :=
  let t := env.t0
  let put : State → Nat → Nat → Nat → State := fun s a n v => s.vaPut t.wins t.launch env.c a n v
  let (rs, ps) := emitLists 0 m.held
  let s := rs.zipIdx.foldl (fun s r => put s (emitVa env + 64 + 32 * r.2) 32 r.1.toNat) s
  let s := ps.zipIdx.foldl (fun s p => put s (topRows m.hdr + 8 * p.2) 8 (p.1.token + p.1.score.toNat * 2 ^ 32)) s
  let s := put s (emitVa env + 4) 12 (m.rows * 2 ^ 32 + m.held.length * 2 ^ 64 + m.need * 2 ^ 80)
  let s := s.vaMask t.wins t.launch env.c (emitVa env) 1 3 0
  m.held.foldl (fun s e => s.updExpert e.1 fun k => { k with last := topStep m.hdr, heap := [] }) s

/-- The blocks of an emission in dispatch order (R329). -/
def emitBlocks : Nat → List (Nat × List Proposal) → List WalkBlock
  | _, [] => []
  | n, (e, ps) :: es =>
    ((List.range (tilesOf ps.length)).map fun j => ({ idx := n + j, expert := e } : WalkBlock)) ++ emitBlocks (n + tilesOf ps.length) es

/-- The walk of an emission starts, with its launch, in the scope that it has been counted into (R327, R328): its workers use blk's window table, and its
levels are ignored. -/
def State.startWalk (s : State) (env : Env) (die : Nat) (m : Emission) (scope : BitVec 16) : State :=
  let t := env.t0
  let b : BitVec 512 := BitVec.ofNat 512 (s.vaNat t.wins t.launch env.c (topBlk m.hdr) 64)
  let r : LoopRec := { LoopRec.ofBits b with dies := 1#8 <<< die, kinds := ({} : LoopRec).kinds, counts := ({} : LoopRec).counts }
  let w : Walk :=
    { id := s.nextId, die := die, header := emitVa env, launch := t.launch, wins := t.wins, emitter := env.c, rcd := r
      scope := scope, nrec := m.need, emitted := (emitLists 0 m.held).1, rest := emitBlocks 0 m.held
      counts := m.held.map fun e => (e.1, e.2.length) }
  let l : Launch :=
    { id := s.nextId, vi := t.vi, queue := r.queue, rcd := r, taken := true, scope := nilScope, recVa := emitVa env
      sseed := (s.vi t.vi).sseed, order := s.nextId, walk := some s.nextId }
  ({ s with nextId := s.nextId + 1, walks := s.walks ++ [w], launches := s.launches ++ [l] } : State).walkDone w.id

/-- xemit as its bundle issues. -/
def State.emitAct (s : State) (env : Env) (v : Word) : State :=
  let m := s.emission env v
  let out : State → Nat → State := fun s n => s.xuResult env (BitVec.ofNat 64 n) 1
  let a := env.t0.request .xu
  let undo := a.bind (·.undo)
  let counted := undo.isSome
  let back : State → State := fun s => { s with scopeDecs := s.scopeDecs ++ undo.toList }
  if !m.ok then out (back s) (2 ^ 63 + 3)
  else if topRcap m.hdr < m.need then
    out (back (s.vaMask env.t0.wins env.t0.launch env.c (emitVa env) 1 1 1)) (2 ^ 63)
  else
    let (s, st) :=
      if !emitGo v || scopeNil (topScope m.hdr) || counted then (s, 0)
      else if scopeRemote env.c (topScope m.hdr) then
        (s, match a.bind (·.reply) with | some (.value w) => w.toNat | _ => 1)
      else s.countIn (topScope m.hdr)
    if st != 0 then out s (2 ^ 63 + st)
    else
      let s := s.emitWrite env m
      let s := if emitGo v then s.startWalk env (emitDie v) m (undo.getD (topScope m.hdr)) else s
      out s (m.held.length * 2 ^ 16 + m.need)

/-! ## Room on a core (R166, R405) -/

/-- The contexts of a core that hold no worker. -/
def Core.empties (k : Core) : List Nat := [0, 1, 2, 3].filter fun x => (k.ctx x).worker.isNone

/-- Tiles and accumulators that a mask names. -/
def maskCount (w : Nat) (m : Nat) : Nat := (List.range w).countP fun i => m.testBit i

/-- Tiles and accumulators allotted on a core: to its contexts, and to what ended workers' calls still hold. -/
def Core.allotted (k : Core) : Nat × Nat :=
  let ended := k.calls.foldl (fun (l : List (Nat × BitVec 16 × BitVec 4)) m =>
    if m.orphan && !(l.any fun e => e.1 = m.uid) then l ++ [(m.uid, m.tiles, m.accs)] else l) []
  let here := [0, 1, 2, 3].filterMap fun x => let t := k.ctx x; if t.worker.isSome then some (t.tiles, t.accs) else none
  let all := here ++ ended.map (·.2)
  ((all.map fun e => maskCount 16 e.1.toNat).sum, (all.map fun e => maskCount 4 e.2.toNat).sum)

/-- A core can take n more workers of a record (R166). -/
def Core.hasRoom (k : Core) (r : LoopRec) (n : Nat) : Bool :=
  let (t, a) := k.allotted
  !k.fenced && n ≤ k.empties.length && t + n * maskCount 16 r.tiles.toNat ≤ 16 && a + n * maskCount 4 r.accs.toNat ≤ 4

/-- A context is claimed for a worker. -/
def State.claim (s : State) (c x : Nat) (w : Worker) : State :=
  ({ s with nextId := s.nextId + 1 } : State).setCtx c x (Ctx.placed { w with uid := s.nextId, code := s.codeView })

/-! ## Batches (R173, R328) -/

/-- The experts of a list of blocks, in order. -/
def expertsOf (l : List WalkBlock) : List Nat := l.foldl (fun r b => if r.contains b.expert then r else r ++ [b.expert]) []

/-- The experts of a batch, each with its first cluster and its number of clusters (R173). -/
def clusters (w : Walk) : List (Nat × Nat × Nat) :=
  let es := (expertsOf w.rest).take 16
  let share := splitSizes (16 - es.length) (es.map fun e => tget 0 w.counts e)
  let ns := share.map (· + 1)
  (es.zip (chunksFrom 0 ns)).map fun p => (p.1, p.2.1, p.2.2)

/-- The number of a block among its expert's. -/
def blockNo (l : List WalkBlock) (b : WalkBlock) : Nat := (l.filter fun a => a.expert = b.expert).findIdx fun a => a.idx = b.idx

/-- WALK_BATCH_START (R173, R328): walk i's next batch, once the last is over: a context is claimed on each core of each of its clusters,
when every one of them has room. -/
def execWalkBatchStart (s : State) : Host.Outcome State Fault Refusal :=
  .next (match s.walks[s.focus.i]? with
    | none => s
    | some w =>
      let ended := w.order.isEmpty && w.parked.isEmpty && w.noNode.isEmpty && w.arriving.isEmpty && w.active = 0
      let cl := clusters w
      let cores := cl.flatMap fun e => (List.range (8 * e.2.2)).map fun j => w.die * 128 + 8 * e.2.1 + j
      if !ended || w.rest.isEmpty || !(cores.all fun c => (s.core c).hasRoom w.rcd 1) || (s.vi ((s.launch? w.id).map (·.vi) |>.getD 0)).frozen then s
      else
        let vi := match s.launch? w.id with | some l => l.vi | none => 0
        let worker : Nat → Worker := fun c =>
          { uid := 0, launch := w.id, vi := vi, rcd := w.rcd, wins := [], die := w.die, dieRank := 0, modRank := 0, phase := .prologue
            dieFirst := 0, dieSize := 1, coreFirst := 0, coreSize := 1, dp := 0, cp := 0, it := 0, stage := none, move := none
            walk := some { walk := w.id, core := c, batch := w.batch + 1, block := none, next := [] } }
        let s1 := cores.foldl (fun (s : State) c =>
          let s := s.updLaunch w.id fun l => { l with workers := l.workers ++ [s.nextId] }
          s.claim c ((s.core c).empties.headD 0) (worker c)) s
        let mine : WalkBlock → Bool := fun b => cl.any fun e => e.1 = b.expert
        let put : WalkBlock → WalkBlock := fun b =>
          match cl.find? fun e => e.1 = b.expert with
          | some e => { b with core := w.die * 128 + 8 * e.2.1 + blockNo w.rest b % (8 * e.2.2) }
          | none => b
        s1.updWalk w.id fun w =>
          { w with order := (w.rest.filter mine).map put, rest := w.rest.filter fun b => !mine b, batch := w.batch + 1, slot := s.clk + 16 })

/-! ## Dispatch and parking (R329, R330) -/

/-- A block reaches the worker that its batch has on its core, in its context or saved. -/
def State.giveBlock (s : State) (walk batch : Nat) (b : WalkBlock) : State :=
  let give : Ctx → Ctx := fun t =>
    match t.worker with
    | some w =>
      match w.walk with
      | some p => if p.walk = walk && p.batch = batch && p.core = b.core then { t with worker := some { w with walk := some { p with next := p.next ++ [b.idx] } } } else t
      | none => t
    | none => t
  { s with cores := s.cores.map fun p => (p.1, { p.2 with ctxs := p.2.ctxs.map give })
           images := s.images.map fun i => { i with saved := i.saved.map give } }

/-- The lines of an expert's slot. -/
def State.slotLine (s : State) (e n : Nat) : Bool :=
  let k := s.expert e
  let base := s.slotBase k
  base ≤ n * 128 && n * 128 < base + k.bytes

/-- A dispatch that has been made arrives at its worker once no line of the slot is left in the die's remote-data cache (R193, R329), behind
those made before it for the same core. -/
def State.arriveBlock (s : State) (w : Walk) (i : Nat) : State :=
  match w.arriving[i]? with
  | none => s
  | some b =>
    if (w.arriving.take i).any fun a => a.core = b.core then s
    else
      let t := s.dropSel w.die (s.slotLine b.expert)
      if s.droppable w.die (s.slotLine b.expert) then
        (t.giveBlock w.id w.batch b).updWalk w.id fun w => { w with arriving := w.arriving.eraseIdx i, active := w.active + 1 }
      else t

/-- A block is dispatched to a resident expert (R329): pins unless it was requeued, st, and the slot's lines in the die's remote-data cache,
for which its arrival may have to wait. -/
def State.sendBlock (s : State) (w : Walk) (b : WalkBlock) : State :=
  let s := if b.requeued then s else s.updExpert b.expert fun k => k.pinBy 1
  let s := (s.setBlockSt w b.idx 1 false).updWalk w.id fun w => { w with arriving := w.arriving ++ [b] }
  match s.walk? w.id with
  | some w => s.arriveBlock w (w.arriving.length - 1)
  | none => s

/-- The lowest node of the waiter pool that is on no list (R330; log 53). -/
def State.freeNode (s : State) : Nat :=
  let used : List Nat := s.larder.flatMap fun p => p.2.waiters.map (·.node)
  ((List.range 4096).find? fun n => !used.contains n).getD 0

/-- A block at its slot: dispatched, parked, or left for a retry where the pool is empty (R330). -/
def State.tryBlock (s : State) (w : Walk) (b : WalkBlock) : State :=
  if b.requeued || (s.expert b.expert).state = 2 then s.sendBlock w b
  else if 4096 ≤ s.nodesUsed then s.updWalk w.id fun w => { w with noNode := w.noNode ++ [{ b with since := s.clk }] }
  else
    let h : Waiter := { node := s.freeNode, walk := w.id, idx := b.idx }
    let s := ({ s with nodesUsed := s.nodesUsed + 1 } : State).setBlockSt w b.idx 2 false
    let s := s.vaPut w.wins w.launch w.emitter (w.header + 6) 2 (w.npark + 1)
    let s := (s.requestFill b.expert).updExpert b.expert fun k => { k with waiters := k.waiters ++ [h] }
    s.updWalk w.id fun w => { w with parked := w.parked ++ [b], npark := w.npark + 1 }

/-- A slot of the walker is due: one each 16 clk from the first (R329). -/
def Walk.slotDue (w : Walk) (clk : Nat) : Bool := w.slot ≤ clk && (clk - w.slot) % 16 = 0

/-- The next block of a walk takes its slot (R329). -/
def State.dispatchBlock (s : State) (w : Walk) : State :=
  match w.order with
  | [] => s
  | b :: rest => if w.slotDue s.clk then (s.updWalk w.id fun w => { w with order := rest, slot := s.clk + 16 }).tryBlock w b else s

/-- BLOCK_DISPATCH (R329): the next block of walk i takes its slot; with o = 1, a dispatch that was made before arrives. -/
def execBlockDispatch (s : State) : Host.Outcome State Fault Refusal :=
  .next (match s.walks[s.focus.i]? with
    | none => s
    | some w => if s.focus.o = 1 then s.arriveBlock w s.focus.k else s.dispatchBlock w)

/-- A block that found the pool empty is due for a retry: after each further 256 clk (R330). -/
def WalkBlock.retryDue (b : WalkBlock) (clk : Nat) : Bool := b.since < clk && (clk - b.since) % 256 = 0

/-- WAITER_POOL_RETRY (R330): the block at place k of those of walk i that found the pool empty is retried. -/
def execWaiterPoolRetry (s : State) : Host.Outcome State Fault Refusal :=
  .next (match s.walks[s.focus.i]? with
    | none => s
    | some w =>
      match w.noNode[s.focus.k]? with
      | none => s
      | some b =>
        if b.retryDue s.clk then (s.updWalk w.id fun w => { w with noNode := w.noNode.eraseIdx s.focus.k }).tryBlock w b else s)

end Sys2Proof.Machine
end

