-- ==== Sys2Proof/Machine/LarderRows.lean ====
section
/-!
DEFINITION. The rows xscore, xsettle, xemit, xpref and xqry (R320-R332).
-/

namespace Sys2Proof.Machine

/-- XSCORE as a trigger: Queues a choice record whose first proposal is sent at the SAQ head (R321). -/
def trigXscore : Trigger := { xuTrig 5 (fun env s v => s.xscoreAct env v) with check := scoreTrap, saq := true }

/-- XSCORE: the bundle that holds this move alone issues (R321). -/
def execXscore (g : Guard) (src : Src) (s : State) : Host.Outcome State Fault Refusal :=
  s.issueSolo (soloMove g src (.trig trigXscore))

/-- XSETTLE as a trigger: Module-team barrier that waits until no proposal of the round is in flight (R324). -/
def trigXsettle : Trigger := { xuTrig 6 (fun env s v => s.xsettleAct env v) with wait := xsettleWait }

/-- XSETTLE: the bundle that holds this move alone issues (R324). -/
def execXsettle (g : Guard) (src : Src) (s : State) : Host.Outcome State Fault Refusal :=
  s.issueSolo (soloMove g src (.trig trigXsettle))

/-- XEMIT as a trigger: Emits the ragged tile records of a die's heaps and optionally starts the walk (R327). -/
def trigXemit : Trigger := { xuTrig 7 (fun env s v => s.emitAct env v) with check := fun env s _ => emitTrap env s, wait := emitWait }

/-- XEMIT: the bundle that holds this move alone issues (R327). -/
def execXemit (g : Guard) (src : Src) (s : State) : Host.Outcome State Fault Refusal :=
  s.issueSolo (soloMove g src (.trig trigXemit))

/-- XPREF as a trigger: Requests an expert fill, pins an expert or unpins it (R331). -/
def trigXpref : Trigger := xuTrig 8 (fun env s v => s.xprefAct env v)

/-- XPREF: the bundle that holds this move alone issues (R331). -/
def execXpref (g : Guard) (src : Src) (s : State) : Host.Outcome State Fault Refusal :=
  s.issueSolo (soloMove g src (.trig trigXpref))

/-- XQRY as a trigger: Returns the current block record or an expert's state or heap size (R332). -/
def trigXqry : Trigger := { xuTrig 9 (fun env s v => s.xqryAct env v) with results := fun _ => 1 }

/-- XQRY: the bundle that holds this move alone issues (R332). -/
def execXqry (g : Guard) (src : Src) (s : State) : Host.Outcome State Fault Refusal :=
  s.issueSolo (soloMove g src (.trig trigXqry))

end Sys2Proof.Machine
end

