-- ==== Sys2Proof/Machine/Moves.lean ====
section
/-!
DEFINITION. The move that each row of the table of operations is (R21, R31-R37): its guard, its source, and what it does. A never-move
(R32) and the steps of other agents are no moves.
-/

namespace Sys2Proof.Machine

/-- The move of a row. -/
def moveOf (i : Instr) : Option (Guard × Src × MoveAct) :=
  match i with
  | .move g src d => some (g, src, .dst d)
  | .neverMove _ _ => none
  | .limm24 g x d => some (g, (.limm24 x), .dst d)
  | .limm48 g x d => some (g, (.limm48 x), .dst d)
  | .sd g src => some (g, src, .push .sd)
  | .vsd g src => some (g, src, .push .vsd)
  | .fsend g src => some (g, src, .push .fsend)
  | .fsendh g src => some (g, src, .push .fsendh)
  | .ldq g d => some (g, .ldq, .dst d)
  | .vldq g d => some (g, .vldq, .dst d)
  | .frecv g d => some (g, .frecv, .dst d)
  | .qp g h d => some (g, (.qp h), .dst d)
  | .qv g h d => some (g, (.qv h), .dst d)
  | .add g src u => some (g, src, .trig (trigAdd u))
  | .sub g src u => some (g, src, .trig (trigSub u))
  | .add32 g src u => some (g, src, .trig (trigAdd32 u))
  | .sub32 g src u => some (g, src, .trig (trigSub32 u))
  | .and g src u => some (g, src, .trig (trigAnd u))
  | .or g src u => some (g, src, .trig (trigOr u))
  | .xor g src u => some (g, src, .trig (trigXor u))
  | .andn g src u => some (g, src, .trig (trigAndn u))
  | .shl g src u => some (g, src, .trig (trigShl u))
  | .shr g src u => some (g, src, .trig (trigShr u))
  | .sar g src u => some (g, src, .trig (trigSar u))
  | .rol g src u => some (g, src, .trig (trigRol u))
  | .min g src u => some (g, src, .trig (trigMin u))
  | .max g src u => some (g, src, .trig (trigMax u))
  | .minu g src u => some (g, src, .trig (trigMinu u))
  | .maxu g src u => some (g, src, .trig (trigMaxu u))
  | .seq g src u => some (g, src, .trig (trigSeq u))
  | .sne g src u => some (g, src, .trig (trigSne u))
  | .slt g src u => some (g, src, .trig (trigSlt u))
  | .sltu g src u => some (g, src, .trig (trigSltu u))
  | .sle g src u => some (g, src, .trig (trigSle u))
  | .sleu g src u => some (g, src, .trig (trigSleu u))
  | .sext8 g src u => some (g, src, .trig (trigSext8 u))
  | .sext16 g src u => some (g, src, .trig (trigSext16 u))
  | .sext32 g src u => some (g, src, .trig (trigSext32 u))
  | .zext32 g src u => some (g, src, .trig (trigZext32 u))
  | .clz g src u => some (g, src, .trig (trigClz u))
  | .ctz g src u => some (g, src, .trig (trigCtz u))
  | .popc g src u => some (g, src, .trig (trigPopc u))
  | .sh1add g src u => some (g, src, .trig (trigSh1add u))
  | .sh2add g src u => some (g, src, .trig (trigSh2add u))
  | .sh3add g src u => some (g, src, .trig (trigSh3add u))
  | .pass g src u => some (g, src, .trig (trigPass u))
  | .bext g src u => some (g, src, .trig (trigBext u))
  | .mul g src => some (g, src, .trig trigMul)
  | .mulh g src => some (g, src, .trig trigMulh)
  | .mulhu g src => some (g, src, .trig trigMulhu)
  | .mul32 g src => some (g, src, .trig trigMul32)
  | .div g src => some (g, src, .trig trigDiv)
  | .divu g src => some (g, src, .trig trigDivu)
  | .rem g src => some (g, src, .trig trigRem)
  | .remu g src => some (g, src, .trig trigRemu)
  | .fadd g src => some (g, src, .trig trigFadd)
  | .fsub g src => some (g, src, .trig trigFsub)
  | .fmul g src => some (g, src, .trig trigFmul)
  | .ffma g src => some (g, src, .trig trigFfma)
  | .fmin g src => some (g, src, .trig trigFmin)
  | .fmax g src => some (g, src, .trig trigFmax)
  | .feq g src => some (g, src, .trig trigFeq)
  | .flt g src => some (g, src, .trig trigFlt)
  | .fle g src => some (g, src, .trig trigFle)
  | .fun g src => some (g, src, .trig trigFun)
  | .fsqrt g src => some (g, src, .trig trigFsqrt)
  | .frcp g src => some (g, src, .trig trigFrcp)
  | .fcvti g src => some (g, src, .trig trigFcvti)
  | .icvtf g src => some (g, src, .trig trigIcvtf)
  | .dadd g src => some (g, src, .trig trigDadd)
  | .dsub g src => some (g, src, .trig trigDsub)
  | .dmul g src => some (g, src, .trig trigDmul)
  | .dfma g src => some (g, src, .trig trigDfma)
  | .fcvtd g src => some (g, src, .trig trigFcvtd)
  | .dcvtf g src => some (g, src, .trig trigDcvtf)
  | .br g src => some (g, src, .trig trigBr)
  | .brr g src => some (g, src, .trig trigBrr)
  | .call g src => some (g, src, .trig trigCall)
  | .callr g src => some (g, src, .trig trigCallr)
  | .ret g src => some (g, src, .trig trigRet)
  | .loop g src => some (g, src, .trig trigLoop)
  | .lbrk g src => some (g, src, .trig trigLbrk)
  | .vu0Vadd g src => some (g, src, .trig trigVu0Vadd)
  | .vu1Vadd g src => some (g, src, .trig trigVu1Vadd)
  | .vu0Vsub g src => some (g, src, .trig trigVu0Vsub)
  | .vu1Vsub g src => some (g, src, .trig trigVu1Vsub)
  | .vu0Vmul g src => some (g, src, .trig trigVu0Vmul)
  | .vu1Vmul g src => some (g, src, .trig trigVu1Vmul)
  | .vu0Vfma g src => some (g, src, .trig trigVu0Vfma)
  | .vu1Vfma g src => some (g, src, .trig trigVu1Vfma)
  | .vu0Vmin g src => some (g, src, .trig trigVu0Vmin)
  | .vu1Vmin g src => some (g, src, .trig trigVu1Vmin)
  | .vu0Vmax g src => some (g, src, .trig trigVu0Vmax)
  | .vu1Vmax g src => some (g, src, .trig trigVu1Vmax)
  | .vu0Vabs g src => some (g, src, .trig trigVu0Vabs)
  | .vu1Vabs g src => some (g, src, .trig trigVu1Vabs)
  | .vu0Vneg g src => some (g, src, .trig trigVu0Vneg)
  | .vu1Vneg g src => some (g, src, .trig trigVu1Vneg)
  | .vu0Vceq g src => some (g, src, .trig trigVu0Vceq)
  | .vu1Vceq g src => some (g, src, .trig trigVu1Vceq)
  | .vu0Vclt g src => some (g, src, .trig trigVu0Vclt)
  | .vu1Vclt g src => some (g, src, .trig trigVu1Vclt)
  | .vu0Vcle g src => some (g, src, .trig trigVu0Vcle)
  | .vu1Vcle g src => some (g, src, .trig trigVu1Vcle)
  | .vu0Vcun g src => some (g, src, .trig trigVu0Vcun)
  | .vu1Vcun g src => some (g, src, .trig trigVu1Vcun)
  | .vu0Vsel g src => some (g, src, .trig trigVu0Vsel)
  | .vu1Vsel g src => some (g, src, .trig trigVu1Vsel)
  | .vu0Vand g src => some (g, src, .trig trigVu0Vand)
  | .vu1Vand g src => some (g, src, .trig trigVu1Vand)
  | .vu0Vor g src => some (g, src, .trig trigVu0Vor)
  | .vu1Vor g src => some (g, src, .trig trigVu1Vor)
  | .vu0Vxor g src => some (g, src, .trig trigVu0Vxor)
  | .vu1Vxor g src => some (g, src, .trig trigVu1Vxor)
  | .vu0Vshl g src => some (g, src, .trig trigVu0Vshl)
  | .vu1Vshl g src => some (g, src, .trig trigVu1Vshl)
  | .vu0Vshr g src => some (g, src, .trig trigVu0Vshr)
  | .vu1Vshr g src => some (g, src, .trig trigVu1Vshr)
  | .vu0Vsar g src => some (g, src, .trig trigVu0Vsar)
  | .vu1Vsar g src => some (g, src, .trig trigVu1Vsar)
  | .vu0Vcvt g src => some (g, src, .trig trigVu0Vcvt)
  | .vu1Vcvt g src => some (g, src, .trig trigVu1Vcvt)
  | .vu0Vbcast g src => some (g, src, .trig trigVu0Vbcast)
  | .vu1Vbcast g src => some (g, src, .trig trigVu1Vbcast)
  | .vu0Vextr g src => some (g, src, .trig trigVu0Vextr)
  | .vu1Vextr g src => some (g, src, .trig trigVu1Vextr)
  | .vu0Vperm g src => some (g, src, .trig trigVu0Vperm)
  | .vu1Vperm g src => some (g, src, .trig trigVu1Vperm)
  | .vu0Vredadd g src => some (g, src, .trig trigVu0Vredadd)
  | .vu1Vredadd g src => some (g, src, .trig trigVu1Vredadd)
  | .vu0Vredmax g src => some (g, src, .trig trigVu0Vredmax)
  | .vu1Vredmax g src => some (g, src, .trig trigVu1Vredmax)
  | .vu0Vredmin g src => some (g, src, .trig trigVu0Vredmin)
  | .vu1Vredmin g src => some (g, src, .trig trigVu1Vredmin)
  | .vu0Vexp2 g src => some (g, src, .trig trigVu0Vexp2)
  | .vu1Vexp2 g src => some (g, src, .trig trigVu1Vexp2)
  | .vu0Vlog2 g src => some (g, src, .trig trigVu0Vlog2)
  | .vu1Vlog2 g src => some (g, src, .trig trigVu1Vlog2)
  | .vu0Vrcp g src => some (g, src, .trig trigVu0Vrcp)
  | .vu1Vrcp g src => some (g, src, .trig trigVu1Vrcp)
  | .vu0Vrsqrt g src => some (g, src, .trig trigVu0Vrsqrt)
  | .vu1Vrsqrt g src => some (g, src, .trig trigVu1Vrsqrt)
  | .vu0Vtanh g src => some (g, src, .trig trigVu0Vtanh)
  | .vu1Vtanh g src => some (g, src, .trig trigVu1Vtanh)
  | .vu0Vquant g src => some (g, src, .trig trigVu0Vquant)
  | .vu1Vquant g src => some (g, src, .trig trigVu1Vquant)
  | .vu0Vdeq g src => some (g, src, .trig trigVu0Vdeq)
  | .vu1Vdeq g src => some (g, src, .trig trigVu1Vdeq)
  | .vu0Vnf g src => some (g, src, .trig trigVu0Vnf)
  | .vu1Vnf g src => some (g, src, .trig trigVu1Vnf)
  | .vu0Vscan g src => some (g, src, .trig trigVu0Vscan)
  | .vu1Vscan g src => some (g, src, .trig trigVu1Vscan)
  | .vu0Vtopk g src => some (g, src, .trig trigVu0Vtopk)
  | .vu1Vtopk g src => some (g, src, .trig trigVu1Vtopk)
  | .vu0Vidx g src => some (g, src, .trig trigVu0Vidx)
  | .vu1Vidx g src => some (g, src, .trig trigVu1Vidx)
  | .ld8 g src => some (g, src, .trig trigLd8)
  | .ld16 g src => some (g, src, .trig trigLd16)
  | .ld32 g src => some (g, src, .trig trigLd32)
  | .ld64 g src => some (g, src, .trig trigLd64)
  | .vld g src => some (g, src, .trig trigVld)
  | .vldm g src => some (g, src, .trig trigVldm)
  | .vldg g src => some (g, src, .trig trigVldg)
  | .st8 g src => some (g, src, .trig trigSt8)
  | .st16 g src => some (g, src, .trig trigSt16)
  | .st32 g src => some (g, src, .trig trigSt32)
  | .st64 g src => some (g, src, .trig trigSt64)
  | .vst g src => some (g, src, .trig trigVst)
  | .vstm g src => some (g, src, .trig trigVstm)
  | .vsts g src => some (g, src, .trig trigVsts)
  | .ldblk g src => some (g, src, .trig trigLdblk)
  | .ldh g src => some (g, src, .trig trigLdh)
  | .amoadd g src => some (g, src, .trig trigAmoadd)
  | .amomin g src => some (g, src, .trig trigAmomin)
  | .amomax g src => some (g, src, .trig trigAmomax)
  | .amoand g src => some (g, src, .trig trigAmoand)
  | .amoor g src => some (g, src, .trig trigAmoor)
  | .amoxor g src => some (g, src, .trig trigAmoxor)
  | .amoswp g src => some (g, src, .trig trigAmoswp)
  | .amocas g src => some (g, src, .trig trigAmocas)
  | .amofadd g src => some (g, src, .trig trigAmofadd)
  | .qbind g src => some (g, src, .trig trigQbind)
  | .qpush g src => some (g, src, .trig trigQpush)
  | .qpushv g src => some (g, src, .trig trigQpushv)
  | .qtry g src => some (g, src, .trig trigQtry)
  | .qclose g src => some (g, src, .trig trigQclose)
  | .qfmt g src => some (g, src, .trig trigQfmt)
  | .qinfo g src => some (g, src, .trig trigQinfo)
  | .cpy g src => some (g, src, .trig trigCpy)
  | .chan g src => some (g, src, .trig trigChan)
  | .cpyq g src => some (g, src, .trig trigCpyq)
  | .bini g src => some (g, src, .trig trigBini)
  | .bexp g src => some (g, src, .trig trigBexp)
  | .barr g src => some (g, src, .trig trigBarr)
  | .bwait g src => some (g, src, .trig trigBwait)
  | .cabt g src => some (g, src, .trig trigCabt)
  | .mcall g src => some (g, src, .trig trigMcall)
  | .mgrant g src => some (g, src, .trig trigMgrant)
  | .mrel g src => some (g, src, .trig trigMrel)
  | .mstat g src => some (g, src, .trig trigMstat)
  | .mwr g src => some (g, src, .trig trigMwr)
  | .mabt g src => some (g, src, .trig trigMabt)
  | .wait g src => some (g, src, .trig trigWait)
  | .fence g src => some (g, src, .trig trigFence)
  | .acq g src => some (g, src, .trig trigAcq)
  | .rel g src => some (g, src, .trig trigRel)
  | .ctlr g src => some (g, src, .trig trigCtlr)
  | .ctlw g src => some (g, src, .trig trigCtlw)
  | .trap g src => some (g, src, .trig trigTrap)
  | .eret g src => some (g, src, .trig trigEret)
  | .yield g src => some (g, src, .trig trigYield)
  | .spawn g src => some (g, src, .trig trigSpawn)
  | .fso g src => some (g, src, .trig trigFso)
  | .fsc g src => some (g, src, .trig trigFsc)
  | .fsw g src => some (g, src, .trig trigFsw)
  | .tbar g src => some (g, src, .trig trigTbar)
  | .park g src => some (g, src, .trig trigPark)
  | .gbind g src => some (g, src, .trig trigGbind)
  | .gstep g src => some (g, src, .trig trigGstep)
  | .gwait g src => some (g, src, .trig trigGwait)
  | .gqry g src => some (g, src, .trig trigGqry)
  | .xscore g src => some (g, src, .trig trigXscore)
  | .xsettle g src => some (g, src, .trig trigXsettle)
  | .xemit g src => some (g, src, .trig trigXemit)
  | .xpref g src => some (g, src, .trig trigXpref)
  | .xqry g src => some (g, src, .trig trigXqry)
  | .gvobs g src => some (g, src, .trig trigGvobs)
  | .gvget g src => some (g, src, .trig trigGvget)
  | .gvepoch g src => some (g, src, .trig trigGvepoch)
  | .gvpin g src => some (g, src, .trig trigGvpin)
  | .bundleIssue | .resultDelivery | .contextSwitch | .systemReturn | .debugResume | .wdog | .laqSend | .ldqEntryLand | .saqDrain |
  .storePerform | .homeAccessArrival | .writeThroughAck | .pagerFillStart | .claimComplete | .pageFillComplete | .acqAtHome |
  .relAtHome | .waiterRetry | .amoPerform | .dispatchRound | .workerStart | .launchComplete | .teamMessageArrival |
  .scopeRemoteRequest | .scopeDecrement | .stageEntryVisible | .stageSlotFreed | .balancerInterval | .energyChargeArrival |
  .watchdogPre | .watchdogKill | .watchdogFence | .preemptSave | .restore | .spillWrite | .tenantViolation | .viReset |
  .registerWrite | .launchPacket | .bodyRetry | .compassEntryWrite | .ladderWrite | .larderEntryWrite | .groupEntryWrite |
  .ueCommand | .ueInboundWrite | .thermalThrottle | .thermalShutdown | .coldReset | .laneFailure | .copyCommandStart | .copyPiece |
  .copyCompletion | .channelStep | .firmwarePath | .barrierUpdate | .bwaitReply | .matrixCallStart | .bankGrant | .halt | .tld |
  .tst | .tzero | .mma | .retire | .scale | .microLoop | .padd | .signal | .teamsync | .compassContribution | .compassEpoch |
  .compassObsAccept | .compassPinAccept | .slabSend | .localFill | .slabDelivery | .ldhCheck | .stalehaloTimeout | .proposalArrive |
  .expertFillStart | .expertFillComplete | .expertFillFail | .walkBatchStart | .blockDispatch | .waiterPoolRetry |
  .ringSlotAllocation | .flitArrival | .fabricMessageSend | .fabricAccessPerform | .fabricMessageDelivery | .fabricResponse |
  .multicastPacket | .reductionContribution | .reductionRetry | .coreReset | .nvmeFailure => none

end Sys2Proof.Machine
end

