-- ==== Sys2Proof/Machine/Preempt.lean ====
section
/-!
DEFINITION. Pre-emption (R351-R357, R379): the image slots, the request, the save, the return of a pre-empted launch to its queue, and
the restore.
-/

namespace Sys2Proof.Machine

/-! ## Image slots (R353) -/

/-- The pool of a virtual interface lies in one die's HBM of this module. -/
def VI.poolFits (k : VI) : Bool :=
  let a := k.spool.1 * 4096
  a / 2 ^ 40 = 0 && a % 2 ^ 37 + slotBytes * k.spool.2 ≤ hbmEnd

/-- Slots of an interface that are free, the lowest first: none in a pool that leaves the HBM. -/
def State.freeSlots (s : State) (v : Nat) : List Nat :=
  if (s.vi v).poolFits then (List.range (s.vi v).spool.2).filter fun i => !(s.images.any fun e => e.vi = v && e.slot = i) else []

/-! ## The request (R351) -/

/-- The contexts that hold workers of a launch on some dies, and are not asked yet. -/
def State.workersOn (s : State) (id : Nat) (dies : BitVec 8) : List (Nat × Nat) :=
  s.cores.flatMap fun p =>
    if dies.getLsbD (dieOf p.1) then
      ([0, 1, 2, 3].filter fun x =>
        let t := p.2.ctx x
        !t.preempt && !t.saving && match t.worker with | some w => w.launch = id | none => false).map fun x => (p.1, x)
    else []

/-- A worker of a launch is asked and not saved yet. -/
def State.leaving (s : State) (id : Nat) : Bool :=
  s.cores.any fun p => [0, 1, 2, 3].any fun x =>
    let t := p.2.ctx x
    (t.preempt || t.saving) && match t.worker with | some w => w.launch = id | none => false

/-- A walk's worker that waits at an iteration boundary (R329). -/
def Ctx.atRest (t : Ctx) : Bool := match t.worker with | some w => w.phase = .waiting | none => false

/-- A pre-emption of a launch's workers on some dies is requested when a slot is free for each of them. -/
def State.requestPreempt (s : State) (id : Nat) (dies : BitVec 8) : State :=
  match s.launch? id with
  | none => s
  | some l =>
    let ws := s.workersOn id dies
    let free := s.freeSlots l.vi
    if ws.isEmpty || free.length < ws.length then s
    else
      let s := (ws.zip free).foldl (fun (s : State) e =>
        let t := s.ctx e.1.1 e.1.2
        let i : Image := { uid := t.uid, vi := l.vi, slot := e.2, core := e.1.1, x := e.1.2, saved := none, calls := [], spill := [], owed := 0 }
        let s : State := { s with images := s.images ++ [i] }
        s.updCtx e.1.1 e.1.2 fun t => if t.atRest && !t.starting then { t with saving := true } else { t with preempt := true }) s
      s.updLaunch id fun l => { l with preempting := true }

/-! ## The image (R354, R355) -/

/-- A word's bytes. -/
def wordBytes (w : Word) : List Byte := natBytes 8 w.toNat

/-- The bytes of a vector register, and of a mask register. -/
def vecBytes (v : VWord) : List Byte := natBytes 256 v.toNat
def maskBytes (k : KWord) : List Byte := natBytes 32 k.toNat

/-- A pending transfer's word. -/
def xferWord : Option Transfer → Word
  | some t => BitVec.ofNat 64 (2 ^ 63 + t.left % 4 * 2 ^ 61 + t.target.toNat)
  | none => 0

/-- A bit of a header word. -/
def bitIf (b : Bool) (n : Nat) : Nat := if b then 2 ^ n else 0

/-- The image header's words from offset 0 on (R355). Bit 25 of the word at 0x18, parked, is 0: a worker is saved at a boundary, where no bundle of
its is blocked, and one that waits there for a dispatch is active (R175, R329). -/
def headerWords (t : Ctx) : List Word :=
  let rank := match t.worker with | some w => w.modRank | none => 0
  let armed := ((List.range 4).map fun l => bitIf (lvl t.loops l).armed l).sum
  let loop : Nat → Nat := fun l => (lvl t.loops l).c.toNat
  let team := match t.tbarReg with | some (m, _) => m | none => false
  [ BitVec.ofNat 64 (rank % 2 ^ 16 * 2 ^ 48 + 2 ^ 47 + t.pc.toNat)
  , xferWord t.xfer[0]?, xferWord t.xfer[1]?
  , BitVec.ofNat 64 (armed + t.divBusy * 2 ^ 4 + t.snap.length * 2 ^ 9
      + (match t.handler with | some h => h.snap.length * 2 ^ 14 + 2 ^ 19 + h.divBusy * 2 ^ 26 | none => 0)
      + bitIf t.storeFault.isSome 20 + bitIf t.copyFault.isSome 21 + bitIf t.mxnanPend 22 + bitIf t.tbarReg.isSome 23 + bitIf team 24)
  , BitVec.ofNat 64 (loop 0 + loop 1 * 2 ^ 32), BitVec.ofNat 64 (loop 2 + loop 3 * 2 ^ 32)
  , (match t.handler with | some h => h.word | none => 0)
  , (match t.tbarReg with | some (_, g) => BitVec.ofNat 64 g | none => 0)
  , BitVec.ofNat 64 (t.ldq.length + t.laq.length * 2 ^ 6 + t.saq.length * 2 ^ 12 + t.sdq.length * 2 ^ 18
      + (t.sendF.length + 7) / 8 * 2 ^ 24 + (t.recvF.length + 7) / 8 * 2 ^ 29)
  , t.cnt.word
  , (match t.storeFault with | some m => BitVec.ofNat 64 (m.cause.code * 2 ^ 56 + m.addr % 2 ^ 48) | none => 0)
  , t.mxnan
  , (match t.copyFault with | some a => BitVec.ofNat 64 a | none => 0) ]

/-- Words with zeros up to n bytes. -/
def padBytes (n : Nat) (l : List Byte) : List Byte := (l ++ List.replicate n 0).take n

/-- The regions of an image whose layout R354 states, by offset. -/
def imageParts (c x : Nat) (t : Ctx) : List (Nat × List Byte) :=
  let a := t.lat
  let p := t.port
  let words : List Word → List Byte := fun l => l.flatMap wordBytes
  [ (0, padBytes 256 (words (headerWords t)))
  , (0x100, words ((List.range 64).map fun i => if i < t.nregs then vget t.g i 0 else 0))
  , (0x300, words [t.p.zeroExtend 64, t.lr])
  , (0x310, padBytes 112 (words ((List.range 13).map fun i => t.ctlRead c x i)))
  , (0x380, t.k.toList.flatMap maskBytes)
  , (0x480, words (t.tok.toList.map Token.word))
  , (0x500, padBytes 256 (words (t.chan.toList.map (fun k => BitVec.ofNat 64 (k.head.toNat + bitIf k.running 48))
      ++ t.grid.toList.map fun g => BitVec.ofNat 64 (g.getD 0))))
  , (0x600, padBytes 512 (words ([a.iaO[0], a.iaO[1], a.imO, a.faO, a.faP, a.cuO, a.auO, a.auX, a.quO, a.ceO, a.syO, a.xuO]
      ++ a.mp.toList ++ a.tc.toList
      ++ [p.ia[0], p.ia[1], p.im, p.fa, p.vuS[0], p.vuS[1], p.qu, p.ce, p.mx, p.sy, p.xu])))
  , (0x800, padBytes 2048 ([a.vuO[0], a.vuP[0], p.vuV[0], a.vuO[1], a.vuP[1], p.vuV[1]].flatMap vecBytes
      ++ [a.vuK[0], p.vuM[0], a.vuK[1], p.vuM[1]].flatMap maskBytes))
  , (0x1000, t.v.toList.flatMap vecBytes)
  , (0x9200, padBytes 8192 (t.sdq.flatMap fun e => vecBytes e.data))
  , (0xB200, padBytes 1024 (words (t.sendF.map (·.word))))
  , (0xB600, padBytes 1024 (words t.recvF))
  , (0xBA00, List.replicate 8192 0)
  , (0xF200, List.replicate 3584 0) ]

/-- The regions whose entries' inner layout the spec does not state: free values (log 5). -/
def imageOpen : List (Nat × Nat) :=
  [(0x4C0, 64), (0x3000, 6912), (0x4B00, 6912), (0x6600, 9216), (0x8A00, 1024), (0x8E00, 1024), (0xDA00, 1024), (0xDE00, 4096), (0xEE00, 1024)]

/-- A worker's accumulators and tiles of a core as they lie in an image: those that are staged read-only are left as they are. -/
def imageMatrix (uid : Nat) (k : Core) (t : Ctx) (base : Nat) (m : List Host.Cell) : List Host.Cell :=
  let accs : List Host.Cell := (k.accW.filter fun e => e.1 / 16384 = uid && t.accs.getLsbD (e.1 / 4096 % 4)).flatMap fun e =>
    cellsOf (base + 0x10000 + e.1 % 16384 * 4) (natBytes 4 e.2.toNat)
  let m := memPut (memClear m (base + 0x10000) 65536) accs
  (List.range 16).foldl (fun m i =>
    if t.roTiles.any fun r => r.tile = i then m
    else
      let lo := (uid * 16 + i) * 32768
      memPut (memClear m (base + 0x20000 + 32768 * i) 32768) ((k.tileB.filter fun e => lo ≤ e.1 && e.1 < lo + 32768 && t.tiles.getLsbD i).flatMap fun e =>
        cellsOf (base + 0x20000 + 32768 * i + (e.1 - lo)) [e.2])) m

/-- Writes the image of a context's worker (R354). -/
def State.writeImage (s : State) (c x : Nat) (i : Image) : State :=
  let t := s.ctx c x
  let base := s.imageBase i
  let m := (imageParts c x t).foldl (fun m p => memWrite m (base + p.1) p.2) s.mem
  let (m, n) := imageOpen.foldl (fun (r : List Host.Cell × Nat) p =>
    (memWrite r.1 (base + p.1) ((List.range p.2).map fun j => Config.freeByte (r.2 + j)), r.2 + p.2)) (m, s.freeCtr)
  { s with mem := imageMatrix t.uid (s.core c) t base m, freeCtr := n }

/-! ## The save (R352) -/

/-- An entry that a save does not wait for: a step-checked load that is held stale (R313, R352). -/
def LdqEntry.mayLeave (e : LdqEntry) : Bool := e.landed || match e.req.op with | .ldh .. => true | _ => false

/-- Nothing of a worker remains that a save waits for. -/
def State.saveReady (s : State) (c x : Nat) : Bool :=
  let t := s.ctx c x
  t.saving && !t.frozen && t.sys.isNone && t.ldq.all LdqEntry.mayLeave && t.stFlight.isEmpty && (t.saq.isEmpty || t.storeFault.isSome)
    && !((s.core c).calls.any fun m => m.uid = t.uid && (m.phase = .running || m.phase = .waiting || m.phase = .ended))

/-- A pre-empted launch returns to the head of its queue with its saved workers, once every worker asked has been saved or has ended
(R169). -/
def State.settleResume (s : State) (id : Nat) : State :=
  match s.launch? id with
  | none => s
  | some l =>
    if !l.preempting || s.leaving id then s
    else
      let q := l.vi * 16 + l.queue
      let held : Nat → Bool := fun u => (s.images.any fun i => i.uid = u && i.saved.isSome) && !((s.queue q).any fun e => e.resume.contains u)
        && !(s.cores.any fun p => [0, 1, 2, 3].any fun x => (p.2.ctx x).isWorker u)
      let us := l.workers.filter held
      let s := s.updLaunch id fun l => { l with preempting := false }
      if us.isEmpty then s
      else { s with launchQ := tset s.launchQ q ({ l with resume := us, preempting := false, checked := true, asked := none } :: s.queue q) }

/-- Calls of a worker at a retirement point are suspended (R278). -/
def State.suspendCalls (s : State) (c uid : Nat) : State :=
  ((s.core c).calls.filter fun m => m.uid = uid && (m.phase = .waiting || (m.phase = .running && m.retired))).foldl
    (fun (s : State) m => s.suspendCall c m) s

/-- An image slot that a request has reserved for a worker, and the worker is not saved in it (R351). -/
def Image.reserved (i : Image) (uid : Nat) : Bool := i.uid = uid && i.saved.isNone && i.loading.isNone && !i.fresh

/-- The save of a context's worker: its calls are suspended, and once nothing remains to be waited for its image is written, with the results due
delivered (R19, R25), and the context becomes empty. -/
def State.save (s : State) (c x : Nat) : State :=
  let t := s.ctx c x
  if !t.saving then s
  else
    let s := s.suspendCalls c t.uid
    match s.images.find? fun i => i.reserved t.uid with
    | none => s.updCtx c x fun t => { t with saving := false }
    | some i =>
      if !s.saveReady c x then s
      else
        let s := (s.updCtx c x Ctx.deliverDue).writeImage c x i
        let k := s.core c
        let t := k.ctx x
        let i' : Image :=
          { i with core := c, x := x, saved := some { t with saving := false, preempt := false, blocks := [], recvRes := 0, owed := 0 }
                   calls := k.calls.filter fun m => m.uid = t.uid
                   owed := t.recvRes }
        let s := s.updCore c fun k =>
          let k := ({ k with calls := k.calls.filter fun m => m.uid != t.uid } : Core).freeMatrix t.uid
          { k.setCtx x {} with running := if k.running = some x then none else k.running }
        let s : State := { s with images := (s.images.filter fun j => j.uid != t.uid) ++ [i'] }
        s.settleResume t.launch

/-- PREEMPT_SAVE (R352). -/
def execPreemptSave (s : State) : Host.Outcome State Fault Refusal := .next (s.save s.focus.c s.focus.x)

/-! ## The restore (R356) -/

/-- A field of a number. -/
def field (w hi lo : Nat) : Nat := w / 2 ^ lo % 2 ^ (hi - lo + 1)

/-- A number's word. -/
def wordOf (n : Nat) : Word := BitVec.ofNat 64 n

/-- A saved worker's header read back (R355): rd gives the number of some bytes at an offset of the image. The entries that the header
counts lie in regions whose inner layout the spec does not state (log 32). -/
def readHeader (rd : Nat → Nat → Nat) (t : Ctx) : Ctx :=
  let f := rd 0x18 8
  let c := rd 0x48 8
  { t with
    pc := BitVec.ofNat 47 (rd 0 8)
    xfer := [rd 0x08 8, rd 0x10 8].filterMap fun w =>
      if w.testBit 63 then some { target := BitVec.ofNat 47 w, left := field w 62 61 } else none
    loops := Vector.ofFn fun (l : Fin 4) => { lvl t.loops l.val with armed := f.testBit l.val, c := BitVec.ofNat 32 (rd (0x20 + 4 * l.val) 4) }
    divBusy := field f 8 4
    handler := if f.testBit 19 then t.handler.map fun h => { h with word := wordOf (rd 0x30 8), divBusy := field f 30 26 } else none
    storeFault := if f.testBit 20 then t.storeFault.map fun m => { m with addr := rd 0x50 6 } else none
    copyFault := if f.testBit 21 then some (rd 0x60 6) else none
    mxnanPend := f.testBit 22
    tbarReg := if f.testBit 23 then some (f.testBit 24, rd 0x38 8) else none
    cnt := { loads := field c 15 0, stores := field c 31 16, copies := field c 47 32, tiles := field c 63 48 }
    mxnan := wordOf (rd 0x58 8) }

/-- The registers of an image read back (R354). -/
def readRegs (rd : Nat → Nat → Nat) (t : Ctx) : Ctx :=
  let ctl : Nat → Nat := fun i => rd (0x310 + 8 * i) 8
  { t with
    g := Vector.ofFn fun (i : Fin 64) => if i.val < t.nregs then wordOf (rd (0x100 + 8 * i.val) 8) else vget t.g i.val 0
    p := BitVec.ofNat 16 (rd 0x300 8) ||| 1
    lr := wordOf (rd 0x308 8)
    ctl := { vfmt := BitVec.ofNat 7 (ctl 0), rm := BitVec.ofNat 2 (ctl 1), ldqf := BitVec.ofNat 14 (ctl 2), nfs := BitVec.ofNat 2 (ctl 3)
             slim := wordOf (ctl 4), spreg := BitVec.ofNat 6 (ctl 5), utvec := BitVec.ofNat 48 (ctl 6), nullen := BitVec.ofNat 1 (ctl 7)
             swt := BitVec.ofNat 16 (ctl 8), step := BitVec.ofNat 2 (ctl 9), seed := wordOf (ctl 0xB), limcnt := BitVec.ofNat 32 (ctl 0xC) }
    k := Vector.ofFn fun (i : Fin 8) => if i.val = 0 then vget t.k 0 0 else BitVec.ofNat 256 (rd (0x380 + 32 * i.val) 32)
    v := Vector.ofFn fun (i : Fin 32) => BitVec.ofNat 2048 (rd (0x1000 + 256 * i.val) 256)
    tok := Vector.ofFn fun (i : Fin 8) =>
      let w := rd (0x480 + 8 * i.val) 8
      { count := field w 63 56, slow := w.testBit 55, nf := w.testBit 54, status := field w 53 48, bytes := field w 47 0 }
    chan := Vector.ofFn fun (i : Fin 2) =>
      let w := rd (0x500 + 8 * i.val) 8
      { vget t.chan i.val {} with head := BitVec.ofNat 48 w, running := w.testBit 48 }
    grid := Vector.ofFn fun (i : Fin 4) => (vget t.grid i.val none).map fun _ => rd (0x510 + 8 * i.val) 8 }

/-- The latches and ports of an image read back (R354). -/
def readLatches (rd : Nat → Nat → Nat) : Latches × Ports :=
  let w : Nat → Word := fun i => wordOf (rd (0x600 + 8 * i) 8)
  let v : Nat → VWord := fun i => BitVec.ofNat 2048 (rd (0x800 + 256 * i) 256)
  let k : Nat → KWord := fun i => BitVec.ofNat 256 (rd (0xE00 + 32 * i) 32)
  ({ iaO := #v[w 0, w 1], imO := w 2, faO := w 3, faP := w 4, cuO := w 5, auO := w 6, auX := w 7, quO := w 8, ceO := w 9, syO := w 10, xuO := w 11
     mp := Vector.ofFn fun (i : Fin 8) => w (12 + i.val), tc := Vector.ofFn fun (i : Fin 16) => w (20 + i.val)
     vuO := #v[v 0, v 3], vuP := #v[v 1, v 4], vuK := #v[k 0, k 2] },
   { ia := #v[w 36, w 37], im := w 38, fa := w 39, vuS := #v[w 40, w 41], qu := w 42, ce := w 43, mx := w 44, sy := w 45, xu := w 46
     vuV := #v[v 2, v 5], vuM := #v[k 1, k 3] })

/-- Words of an image. -/
def readWords (rd : Nat → Nat → Nat) (a n : Nat) : List Word := (List.range n).map fun j => wordOf (rd (a + 8 * j) 8)

/-- A saved worker as its image holds it (R354-R356). -/
def readImage (rd : Nat → Nat → Nat) (t : Ctx) : Ctx :=
  let u := readRegs rd (readHeader rd t)
  let l := readLatches rd
  { u with
    lat := l.1, port := l.2
    sdq := t.sdq.zipIdx.map fun e => { e.1 with data := BitVec.ofNat 2048 (rd (0x9200 + 256 * e.2) 256) }
    sendF := t.sendF.zipIdx.map fun e => { e.1 with word := wordOf (rd (0xB200 + 8 * e.2) 8) }
    recvF := readWords rd 0xB600 t.recvF.length }

/-- A tile that a context's records say is staged read-only. -/
def Ctx.staged (t : Ctx) (i : Nat) : Bool := t.roTiles.any fun r => r.tile = i

/-- A worker's cells of a tile, and those of its 16 tiles replaced. -/
def Core.tileCells (k : Core) (uid i : Nat) : List (Nat × Byte) := k.tileB.filter fun e => tileKey uid i 0 ≤ e.1 && e.1 < tileKey uid (i + 1) 0
def Core.putTiles (k : Core) (uid : Nat) (f : Nat → List (Nat × Byte)) : Core :=
  { k with tileB := k.tileB.filter (fun e => e.1 < tileKey uid 0 0) ++ (List.range 16).flatMap f ++ k.tileB.filter fun e => tileKey uid 16 0 ≤ e.1 }

/-- The accumulators and tiles of an image go to a core; a tile staged read-only, which the image leaves out, holds what its recorded TLD
will write, and what that does not write is unspecified: free values (R279, log 25). -/
def State.loadMatrix (s : State) (c : Nat) (i : Image) (t : Ctx) : State :=
  let base := s.imageBase i
  let tiles := base + 0x20000
  let keys := ((s.mem.filter fun p => base + 0x10000 ≤ p.1 && p.1 < tiles).map fun p => (p.1 - base - 0x10000) / 4).eraseDups
  let accs : List (Nat × BitVec 32) := keys.map fun j => (accKey i.uid 0 0 0 + j, BitVec.ofNat 32 (memNat s.mem (base + 0x10000 + 4 * j) 4))
  let s' := s.updCore c fun (k : Core) =>
    let acc' := k.accW.filter (fun e => e.1 < accKey i.uid 0 0 0) ++ accs ++ k.accW.filter (fun e => accKey i.uid 4 0 0 ≤ e.1)
    ({ k with accW := acc' } : Core).putTiles i.uid fun (n : Nat) =>
      if t.staged n then (List.range 32768).map fun j => (tileKey i.uid n j, Config.freeByte (s.freeCtr + 32768 * n + j))
      else (s.mem.filter fun p => tiles + 32768 * n ≤ p.1 && p.1 < tiles + 32768 * (n + 1)).map fun p => (tileKey i.uid n (p.1 - tiles - 32768 * n), p.2)
  if t.roTiles.isEmpty then s' else { s' with freeCtr := s'.freeCtr + 16 * 32768 }

/-- A call as which a recorded TLD is repeated. -/
def reloadCall (c x : Nat) (t : Ctx) (r : RoTile) : MatCall :=
  { id := 0, ctx := x, uid := t.uid, tiles := t.tiles, accs := t.accs, t := 0, seq := 0, phase := .running
    mp := #v[r.pa, r.pq, 0, 0, 0, 0, 0, 0], ca := r.entry, tc := Vector.replicate 16 r.tc, entry := BitVec.allOnes 64, wins := t.wins, vi := t.vi, launch := t.launch, die := dieOf c, dieRank := 0 }

/-- An act of the repetition of a recorded TLD, against memory as it stands (R279). -/
def State.reload (s : State) (c : Nat) (m : MatCall) (r : RoTile) (k : Nat) : TldRes :=
  if r.cm = 0 then s.tldPlain c m r.load r.tc r.pa r.ps r.pq
  else
    let va := align64 r.pa.toNat
    let left := sectorsLeft m.got va
    match left[k % left.length]? with
    | some p => s.tldSector c m p
    | none => s.tldBound c m k r.load r.tc r.cm (Shape.of (recordOf m.got va)) r.pa r.ps r.pq r.entry

/-- Changes the image that a worker is saved in, or that a tile of is still being written for. -/
def State.updImage (s : State) (uid : Nat) (f : Image → Image) : State :=
  { s with images := s.images.map fun j => if j.uid = uid && (j.saved.isSome || j.loading.isSome) then f j else j }

/-- A repeated TLD writes tiles that are staged read-only, and no other; the records stand as they were saved. -/
def State.keepStaged (s s' : State) (c : Nat) (t : Ctx) : State :=
  (s'.updCore c fun k => k.putTiles t.uid fun n => if t.staged n then k.tileCells t.uid n else (s.core c).tileCells t.uid n).updImage t.uid fun j =>
    { j with saved := j.saved.map fun u => { u with roTiles := t.roTiles } }

/-- A number in an image. -/
def State.imageNat (s : State) (i : Image) (o n : Nat) : Nat := memNat s.mem (s.imageBase i + o) n

/-- The exclusive objects that a worker still owns name the place where it stands now (R215, log 51). -/
def State.ownsHere (s : State) (c x : Nat) (i : Image) (t : Ctx) : State :=
  t.owns.foldl (fun (s : State) pa =>
    let w : Word := BitVec.ofNat 64 (memNat s.mem pa 8)
    if objHeld w && objOwner w = (s.mod, i.core, i.x) then s.homePut (dieOf c) pa 8 (objOwn w s.mod c x).toNat else s) s

/-- The scopes that a worker has opened name the place where it stands now (R144). -/
def State.opensHere (s : State) (c x uid : Nat) : State :=
  { s with dies := s.dies.map fun d => (d.1, { d.2 with scopes := d.2.scopes.map fun e => if e.2.uid = uid then (e.1, { e.2 with owner := (c, x) }) else e }) }

/-- The worker of an image stands in its context again, at its boundary (R347, R356): the words of the spill area, those that came during
the restore among them, follow its FIFO's (R357), its calls are queued and ask for their banks (R278), its grid handles are bound there, what it
owns names it, and its queue's watchdog runs (R176). A pre-emption requested of it meanwhile stands (R351). Its image slot is free once it issues a
bundle: what arrives until then goes to the spill area still (log 67). -/
def State.restored (s : State) (c x : Nat) (i : Image) (t : Ctx) : State :=
  let calls := i.calls.map fun m => { m with ctx := x, phase := if m.phase = .suspended then .waiting else m.phase }
  let asked := (s.ctx c x).preempt
  let s := s.setCtx c x
    { t with recvF := t.recvF ++ readWords (s.imageNat i) 0xBA00 i.spill.length, resumed := true, wtSeen := if dieOf i.core = dieOf c then t.wtSeen else 0
             saving := asked && t.atRest, preempt := asked && !t.atRest }
  let s := s.updCore c fun k =>
    let k := ({ k with calls := k.calls ++ calls } : Core).loadRoutines x ((t.worker.map (·.rcd)).bind s.kernelOf)
    (calls.filter fun m => m.phase = .waiting).foldl (fun (k : Core) m => k.callBanks m) k
  let s := s.updDie (dieOf c) fun d => { d with grids := d.grids.map fun g => if g.uid = i.uid then { g with core := c } else g }
  let s := (s.ownsHere c x i t).opensHere c x i.uid
  let s := match s.launch? t.launch with
    | some l => s.updDog l.vi l.queue Watchdog.start
    | none => s
  s.updImage i.uid fun j => { j with saved := none, calls := [], fresh := true }

/-- What a worker may have seen on the die it leaves is home (R209): a restore on another die waits for it (log 51). -/
def State.seenHome (s : State) (i : Image) (t : Ctx) (c : Nat) : Bool :=
  dieOf i.core = dieOf c || !((s.die (dieOf i.core)).wt.any fun w => w.id < t.wtSeen)

/-- The image of a worker killed while its restore had a tile's stamp busy finishes that tile, and is gone (R242, R349). -/
def State.dropLoading (s : State) (i : Image) (k : Nat) : State :=
  match i.loading with
  | none => s
  | some m =>
    let gone : State → State := fun s => { s with images := s.images.filter fun j => !(j.uid = i.uid && j.loading.isSome) }
    let c := 128 * m.die
    match m.busy with
    | none => gone s
    | some w =>
      let sh := Shape.of (recordOf m.got (align64 m.mp[0].toNat))
      let base : Int := (m.mp[1].toNat : Int)
      match s.tileAct (m.view c) sh base m.ca w k with
      | .next s w _ => s.updImage i.uid fun j => { j with loading := some { m with busy := some w } }
      | .done s _ => gone s
      | .fails _ => gone (s.giveUpTile (m.view c) sh base m.ca w)

/-- An act of the restore of an image into the context placed for its worker, once every response owed has arrived (R379): the image is read;
then its recorded TLDs are repeated, one after the other, k choosing among the pieces of one (R279); then the worker is there. -/
def State.restore (s : State) (n k : Nat) : State :=
  match s.images[n]? with
  | none => s
  | some i =>
    match i.saved, s.cores.findSome? fun p => ([0, 1, 2, 3].find? fun x => (p.2.ctx x).isWorker i.uid && (p.2.ctx x).starting).map fun x => (p.1, x) with
    | some t, some (c, x) =>
      if i.owed != 0 || (s.ctx c x).frozen then s
      else if !i.begun then
        (s.loadMatrix c i t).updImage i.uid fun j => { j with begun := true, reloaded := 0, loading := none, saved := some (readImage (s.imageNat i) t) }
      else
        match t.roTiles[i.reloaded]? with
        | some r =>
          let did : State → State := fun s' => (s.keepStaged s' c t).updImage i.uid fun j => { j with loading := none, reloaded := j.reloaded + 1 }
          (match s.reload c (i.loading.getD (reloadCall c x t r)) r k with
          | .wait s' m => (s.keepStaged s' c t).updImage i.uid fun j => { j with loading := some m }
          | .next s' _ => did s'
          | .ends s' _ _ => did s')
        | none => if s.seenHome i t c then s.restored c x i t else s
    | none, _ => s.dropLoading i k
    | _, _ => s

/-- RESTORE (R356): image i of the list. -/
def execRestore (s : State) : Host.Outcome State Fault Refusal := .next (s.restore s.focus.i s.focus.k)

/-! ## Kills by a queue's watchdog or a fence (R176, R178) -/

/-- Launches of a queue that have been dispatched and have not completed. -/
def State.queueLaunches (s : State) (v q : Nat) : List Launch := s.launches.filter fun l => l.vi = v && l.queue = q

/-- Those of them that have workers in contexts: a launch that is wholly pre-empted is not running (R169, R176). -/
def State.queueRunning (s : State) (v q : Nat) : List Launch :=
  (s.queueLaunches v q).filter fun l => s.cores.any fun p => p.2.ctxs.any fun t => match t.worker with | some w => w.launch = l.id | none => false

end Sys2Proof.Machine
end

