-- ==== Sys2Proof/Machine/Sched.lean ====
section
/-!
DEFINITION. Dispatch (R136, R137, R142, R151, R161-R172): the checks of a head, the lottery, placement, the pre-emption check, and the
steps DISPATCH_ROUND, LAUNCH_COMPLETE and ENERGY_CHARGE_ARRIVAL.
-/

namespace Sys2Proof.Machine

/-! ## Launches -/

/-- The lead die of a launch (R161): the lowest-numbered of its mask. -/
def Launch.lead (l : Launch) : Nat := ([0, 1, 2, 3, 4, 5, 6, 7].find? fun d => l.rcd.dies.getLsbD d).getD 0

/-- The dies of a mask, ascending. -/
def diesOf (m : BitVec 8) : List Nat := [0, 1, 2, 3, 4, 5, 6, 7].filter fun d => m.getLsbD d

/-- The current level of a queue's head: that of its running launch for a resume entry (R169, R172). -/
def State.headLevel (s : State) (l : Launch) : Nat :=
  match s.launch? l.id with
  | some r => r.level
  | none => l.level

/-- The saved workers of an entry on a die, in their order. -/
def State.savedOn (s : State) (l : Launch) (d : Nat) : List Nat :=
  l.resume.filter fun u => s.images.any fun i => i.uid = u && dieOf i.core = d

/-- The dies that an entry needs to be placed on (R166, R169). -/
def State.needDies (s : State) (l : Launch) : List Nat :=
  if l.resume.isEmpty then diesOf l.rcd.dies else (List.range 8).filter fun d => !(s.savedOn l d).isEmpty

/-! ## The checks of a head (R136, R151, R170) -/

/-- The first of causes 1 to 8 that a record has (R136): tl says whether its kernel has a loop-table entry for a level. A pipeline's own
kernel and level fields are ignored, and a stage's dies (R151). -/
def LoopRec.cause (r : LoopRec) (tl : Nat → Bool) (pipe stage : Bool) : Option Nat :=
  if 2 ≤ r.mode || (stage && r.mode != 0) then some 1
  else if !stage && r.dies = 0 then some 2
  else if 47 < r.prio then some 3
  else if r.tickets = 0 then some 4
  else if !pipe && r.pv && r.kernel ≤ r.pro then some 5
  else if !pipe && r.kend < r.kernel then some 6
  else if r.ev && r.elen = 0 then some 7
  else if !pipe && (List.range 4).any fun i => r.kinds[i]? = some .temporal && !tl i then some 8
  else none

/-- A kernel has a valid loop-table entry for a level (R64). -/
def State.hasLoop (s : State) (r : LoopRec) (i : Nat) : Bool :=
  match s.kernelOf r with
  | some k => (vget k.loops i {}).valid
  | none => false

/-- Cores of a die that are not fenced. -/
def State.dieCores (s : State) (d : Nat) : List Nat := ((List.range 128).map fun i => 128 * d + i).filter fun c => !(s.core c).fenced

/-- A core without workers could take a record's contexts (R166). -/
def LoopRec.fits (r : LoopRec) : Bool :=
  (r.ctxs + 1) * maskCount 16 r.tiles.toNat ≤ 16 && (r.ctxs + 1) * maskCount 4 r.accs.toNat ≤ 4

/-- The pipeline that a launch's table declares, and the cores of each stage (R151). -/
def State.readPipe (s : State) (l : Launch) (r : LoopRec) (ws : List Window) : Pipeline × List Nat :=
  let c := 128 * ({ l with rcd := r } : Launch).lead
  let rd : Nat → Nat → Nat := fun a n => s.vaNat ws l.id c a n
  let h := rd r.ptab 8
  let stages := (List.range (h / 2 ^ 5 % 8 + 1)).map fun i => rd (r.ptab + 64 + 16 * i) 16
  let queues := (List.range (h / 2 ^ 8 % 16 + 1)).map fun i =>
    let q := rd (r.ptab + 192 + 8 * i) 8
    ({ src := q % 8, dst := q / 8 % 8, depth := 2 ^ (q / 64 % 16), pair := BitVec.ofNat 14 (q / 2 ^ 10), entries := [], gone := [], closed := false } : ChanQueue)
  ({ id := 0, launch := l.id, die := ({ l with rcd := r } : Launch).lead, start := 0, ivexp := h % 32, hw := h / 2 ^ 12 % 16, lw := h / 2 ^ 16 % 16
     queues := queues, recs := stages.map fun g => LoopRec.ofBits (BitVec.ofNat 512 (rd (g % 2 ^ 48) 64))
     cores := stages.map fun _ => [], blocked := stages.map fun _ => 0 },
   stages.map fun g => g / 2 ^ 48 % 128 + 1)

/-- A declared pipeline is valid for a record (R151, cause 9). -/
def State.pipeOk (s : State) (r : LoopRec) (p : Pipeline) (cores : List Nat) : Bool :=
  let ns := p.recs.length
  let one := p.recs.headD {}
  12 ≤ p.ivexp && p.ivexp ≤ 24 && p.lw < p.hw && (diesOf r.dies).length = 1
    && (p.queues.all fun q => q.src != q.dst && q.src < ns && q.dst < ns && 4 ≤ q.depth && q.depth ≤ 1024 && pairValid (pairSrc q.pair) (pairSnk q.pair))
    && ((List.range ns).all fun k => (p.queues.countP fun q => q.src = k || q.dst = k) ≤ 4)
    && (p.recs.all fun k => k.regs = one.regs && k.ctxs = one.ctxs && k.tiles = one.tiles && k.accs = one.accs
      && (k.cause (s.hasLoop k) false true).isNone)
    && ((List.range ns).all fun k => (p.recs.getD k {}).trip != 0 || p.queues.any fun q => q.dst = k)
    && cores.sum ≤ (s.dieCores p.die).length && one.fits

/-- The bytes of a head's records that no frame holds: they are asked for, and the checks wait (log 16). -/
def State.absentBytes (s : State) (ws : List Window) (launch c a n : Nat) : List Loc :=
  ((spanOf (a : Nat) n).filterMap fun v => Machine.locate ws launch s.mod c v).filter fun l =>
    match s.place (some l) with
    | .error .resid => true
    | _ => false

/-- The bytes of a pipeline's table that no frame holds, or, once all of that is there, of its stage records (R151). -/
def State.absentPipe (s : State) (l : Launch) (r : LoopRec) (ws : List Window) : List Loc :=
  let c := 128 * ({ l with rcd := r } : Launch).lead
  match s.absentBytes ws l.id c r.ptab 320 with
  | [] =>
    let n := s.vaNat ws l.id c r.ptab 8 / 2 ^ 5 % 8 + 1
    (List.range n).flatMap fun i => s.absentBytes ws l.id c (s.vaNat ws l.id c (r.ptab + 64 + 16 * i) 6) 64
  | gone => gone

/-- A rejected head leaves its queue and is counted out of its scope (R136, R170, R398). -/
def State.reject (s : State) (q : Nat) (l : Launch) (cause : Nat) : State :=
  let s : State := { s with launchQ := tset s.launchQ q ((s.queue q).drop 1) }
  let s := if l.fromHost then s.finalEvent l { kind := 4, code := cause }
    else s.logEvent l.vi { kind := 4, code := cause, queue := l.queue, arg := l.recVa }
  s.countOut l.lead l.scope

/-- The checks of a queue's head, when it has come there (R148, R170). -/
def State.checkHead (s : State) (q : Nat) : State :=
  match s.queue q with
  | [] => s
  | l :: rest =>
    if l.checked || l.body != .taken || (s.vi l.vi).frozen then s
    else
      let gone := if l.taken then [] else s.absentBytes l.sWins l.sLaunch l.sCore l.recVa 64
      if !gone.isEmpty then gone.foldl (fun (s : State) a => s.startFill (dieOf l.sCore) a) s
      else
        let full := LoopRec.ofBits (BitVec.ofNat 512 (s.vaNat l.sWins l.sLaunch l.sCore l.recVa 64))
        let r : LoopRec := if l.taken then l.rcd
          else { full with queue := l.rcd.queue, prio := l.rcd.prio, tickets := l.rcd.tickets, dies := l.rcd.dies }
        let l' : Launch := { l with rcd := r, taken := true }
        match r.cause (s.hasLoop r) (r.mode = 1) false with
        | some k => s.reject q l' k
        | none =>
          if r.mode = 1 then
            let ws := (s.copyTable r.wtab).1
            let gone := s.absentPipe l' r ws
            if !gone.isEmpty then gone.foldl (fun (s : State) a => s.startFill l'.lead a) s
            else
              let (p, cores) := s.readPipe l' r ws
              if s.pipeOk r p cores then
                { s with launchQ := tset s.launchQ q ({ l' with checked := true, pipe := some (p, cores) } :: rest) }
              else s.reject q l' 9
          else if (diesOf r.dies).all (fun d => r.cores + 1 ≤ (s.dieCores d).length) && r.fits then
            { s with launchQ := tset s.launchQ q ({ l' with checked := true } :: rest) }
          else s.reject q l' 10

/-! ## Placement (R166, R167, R169) -/

/-- The lowest-numbered cores of a die that can take n contexts of a record each: none where there are fewer than m. -/
def State.takeCores (s : State) (d m n : Nat) (r : LoopRec) : Option (List Nat) :=
  let cs := (s.dieCores d).filter fun c => (s.core c).hasRoom r n
  if cs.length < m then none else some (cs.take m)

/-- The record whose allotments a launch's contexts take. -/
def Launch.shape (l : Launch) : LoopRec := match l.pipe with | some (p, _) => p.recs.headD l.rcd | none => l.rcd

/-- The contexts that a launch takes on each of its cores: one for a block walk, each of whose cores runs one worker (R328). -/
def Launch.perCore (l : Launch) : Nat := if l.walk.isSome then 1 else l.shape.ctxs + 1

/-- The cores a launch needs on a die: a resume entry, as many as the launch had at first, but for a block walk, whose workers come and go
(R166, R167, R169). -/
def State.needCores (s : State) (l : Launch) (d : Nat) : Nat :=
  match l.pipe with
  | some (_, cs) => cs.sum
  | none => if l.walk.isSome then (s.savedOn l d).length else l.rcd.cores + 1

/-- The cores a launch would take, by die: none where it cannot be placed. -/
def State.plan (s : State) (l : Launch) : Option (List (Nat × List Nat)) :=
  (s.needDies l).foldr (fun d acc =>
    match acc, s.takeCores d (s.needCores l d) l.perCore l.shape with
    | some ps, some cs => some ((d, cs) :: ps)
    | _, _ => none) (some [])

/-- The contexts of placed cores, n on each: the lowest-numbered empty ones. -/
def State.placesOn (s : State) (cs : List Nat) (n : Nat) : List (Nat × Nat) :=
  cs.flatMap fun c => ((s.core c).empties.take n).map fun x => (c, x)

/-! ## Workers (R137, R142) -/

/-- Points of the levels of a kind (R137). -/
def LoopRec.points (r : LoopRec) (k : LevelKind) : Nat :=
  (List.range 4).foldl (fun n i => if r.kinds[i]? = some k then n * r.counts.getD i 0 else n) 1

/-- A worker of a launch, before its ranks. -/
def Launch.worker (l : Launch) (r : LoopRec) (d : Nat) (dc cc : Nat × Nat) (stage : Option (Nat × Nat)) : Worker :=
  { uid := 0, launch := l.id, vi := l.vi, rcd := r, wins := [], die := d, dieRank := 0, modRank := 0, phase := .prologue
    dieFirst := dc.1, dieSize := dc.2, coreFirst := cc.1, coreSize := cc.2, dp := dc.1, cp := cc.1, it := 0, stage := stage, move := none
    walk := none }

/-- The workers of a mode-0 launch that start, with their contexts (R137, R138). -/
def State.kernelWorkers (s : State) (l : Launch) (plan : List (Nat × List Nat)) : List ((Nat × Nat) × Worker) :=
  let r := l.rcd
  let dch := chunks (r.points .die) plan.length
  let cch := chunks (r.points .core) ((r.cores + 1) * (r.ctxs + 1))
  (plan.zip dch).flatMap fun e =>
    ((s.placesOn e.1.2 (r.ctxs + 1)).zip cch).filterMap fun p =>
      if e.2.2 = 0 || p.2.2 = 0 || r.trip = 0 then none else some (p.1, l.worker r e.1.1 e.2 p.2 none)

/-- The cores of each stage: the lowest to stage 0 (R167). -/
def stageCores : List Nat → List Nat → List (List Nat)
  | _, [] => []
  | cs, n :: ns => cs.take n :: stageCores (cs.drop n) ns

/-- The workers of a pipeline: one point each (R151). -/
def State.stageWorkers (s : State) (l : Launch) (p : Pipeline) : List ((Nat × Nat) × Worker) :=
  (p.cores.zip p.recs).zipIdx.flatMap fun e =>
    (s.placesOn e.1.1 (e.1.2.ctxs + 1)).map fun q => (q, l.worker e.1.2 p.die (0, 1) (0, 1) (some (p.id, e.2)))

/-- Ranks in the die team and in the module team, by place in the list (R142). -/
def ranked (ws : List ((Nat × Nat) × Worker)) : List ((Nat × Nat) × Worker) :=
  ws.zipIdx.map fun e =>
    (e.1.1, { e.1.2 with modRank := e.2, dieRank := (ws.take e.2).countP fun o => o.2.die = e.1.2.die })

/-- Claims contexts for workers, in order: the numbers they get, with their dies. -/
def State.claimAll : List ((Nat × Nat) × Worker) → State → State × List (Nat × Nat)
  | [], s => (s, [])
  | e :: es, s =>
    let (s', us) := State.claimAll es (s.claim e.1.1 e.1.2 e.2)
    (s', (s.nextId, e.2.die) :: us)

/-- The teams of a launch: one a die, and the module team (R142). -/
def teamsOf (us : List (Nat × Nat)) : List Team :=
  ((List.range 8).filterMap fun d =>
    let m := (us.filter fun u => u.2 = d).map (·.1)
    if m.isEmpty then none else some { die := some d, members := m })
    ++ [{ die := none, members := us.map (·.1) }]

/-- A launch's workers are claimed, and it runs (R162). -/
def State.launchRuns (s : State) (l : Launch) (ws : List ((Nat × Nat) × Worker)) : State :=
  let (s, us) := State.claimAll (ranked ws) s
  let m := us.map (·.1)
  { s with launches := s.launches ++ [{ l with workers := m, teams := teamsOf us, settle := { die := none, members := m }
                                               sseed := (s.vi l.vi).sseed, order := s.nextId, asked := none }] }

/-- The worker that an image has saved. -/
def State.savedWorker (s : State) (uid : Nat) : Option Worker := (s.images.find? fun i => i.uid = uid && i.saved.isSome).bind fun i => i.saved.bind (·.worker)

/-- The stage of a pipeline for which a saved worker runs from its next boundary on (R160). -/
def Worker.nextStage (w : Worker) : Option Nat := (w.move.or w.stage).map (·.2)

/-- The saved workers of a resume entry that run for a stage from their next boundary on. -/
def State.savedStage (s : State) (l : Launch) (k : Nat) : List Nat := l.resume.filter fun u => ((s.savedWorker u).bind Worker.nextStage) = some k

/-- The saved workers of a pipeline's resume entry and the places for them (R167, R169): by stage, on as many cores as each stage has; where a
move that was cancelled half way leaves a stage more workers than its cores take (R160), one stage after the other over all the places. -/
def State.savedStages (s : State) (l : Launch) (p : Pipeline) (cs : List Nat) : List (Nat × (Nat × Nat)) :=
  let parts := (stageCores cs (p.cores.map (·.length))).zipIdx.map fun e => (s.savedStage l e.2, s.placesOn e.1 l.perCore)
  if parts.all fun e => e.1.length ≤ e.2.length then parts.flatMap fun e => e.1.zip e.2
  else (parts.flatMap (·.1)).zip (s.placesOn cs l.perCore)

/-- The saved workers of a resume entry and the places for them, by die (R169). -/
def State.savedPlan (s : State) (l : Launch) (plan : List (Nat × List Nat)) : List (Nat × (Nat × Nat)) :=
  match s.pipes.find? fun p => p.launch = l.id with
  | some p => s.savedStages l p (plan.flatMap (·.2))
  | none => plan.flatMap fun p => (s.savedOn l p.1).zip (s.placesOn p.2 l.perCore)

/-- The cores of a pipeline's stages once its saved workers are placed. -/
def State.stagesOn (s : State) (l : Launch) (cs : List Nat) (at' : List (Nat × (Nat × Nat))) (p : Pipeline) : Pipeline :=
  let split := stageCores cs (p.cores.map (·.length))
  let mine : Nat → List Nat := fun k => ((at'.filter fun e => (s.savedStage l k).contains e.1).map fun e => e.2.1).eraseDups
  let fits := (List.range split.length).all fun k => (mine k).all fun c => (split.getD k []).contains c
  { p with cores := if fits then split else (List.range split.length).map mine }

/-- Contexts are claimed for a resume entry's saved workers, in their order (R169): each waits for its restore. A pipeline's stages have
the new cores, and the launch counts as dispatched now (R168). -/
def State.claimSaved (s : State) (l : Launch) (plan : List (Nat × List Nat)) : State :=
  let at' := s.savedPlan l plan
  let pipes := s.pipes.map fun p => if p.launch = l.id then s.stagesOn l (plan.flatMap (·.2)) at' p else p
  let s := at'.foldl (fun (s : State) e =>
    match s.savedWorker e.1 with
    | some w => s.setCtx e.2.1 e.2.2 (Ctx.placed w)
    | none => s) s
  ({ s with pipes := pipes, nextId := s.nextId + 1 } : State).updLaunch l.id fun m => { m with order := s.nextId }

/-- A queue's head is dispatched: its contexts are claimed on every die (R162). -/
def State.dispatch (s : State) (q : Nat) (l : Launch) (plan : List (Nat × List Nat)) : State :=
  let s : State := { s with launchQ := tset s.launchQ q ((s.queue q).drop 1) }
  if !l.resume.isEmpty then s.claimSaved l plan
  else
    match l.pipe with
    | some (p, ns) =>
      let p' : Pipeline := { p with id := s.nextId, start := s.clk, cores := stageCores (plan.flatMap (·.2)) ns }
      let s : State := { s with nextId := s.nextId + 1, pipes := s.pipes ++ [p'] }
      s.launchRuns l (s.stageWorkers l p')
    | none => s.launchRuns l (s.kernelWorkers l plan)

/-! ## The choice (R163-R165) -/

/-- The generator's next state (R164). -/
def drawNext (s : Word) : Word :=
  let s := s ^^^ (s <<< 13)
  let s := s ^^^ (s >>> 7)
  s ^^^ (s <<< 17)

/-- The first entry whose tickets, summed up to it, exceed x. -/
def pickAt {α : Type} (tickets : α → Nat) : Nat → List α → Option α
  | _, [] => none
  | x, q :: qs => if x < tickets q then some q else pickAt tickets (x - tickets q) qs

/-- A ready queue: its index, its head, and where the head goes. -/
structure Ready where
  q : Nat
  head : Launch
  plan : List (Nat × List Nat)

/-- Heads led at a die that have passed their checks, with their queues: those of frozen interfaces are left out. -/
def State.heads (s : State) (d : Nat) : List (Nat × Launch) :=
  s.launchQ.filterMap fun e =>
    match e.2 with
    | l :: _ => if l.checked && l.lead = d && !(s.vi l.vi).frozen then some (e.1, l) else none
    | [] => none

/-- The ready queues led at a die, in ascending index (R163). -/
def State.readyQueues (s : State) (d : Nat) : List Ready :=
  (s.heads d).filterMap fun e => (s.plan e.2).map fun p => { q := e.1, head := e.2, plan := p }

/-- The largest of some levels. -/
def maxOf (l : List Nat) : Nat := l.foldl Nat.max 0

/-- A die dispatches at most one launch (R164). -/
def State.dispatchDie (s : State) (d : Nat) : State :=
  let ready := s.readyQueues d
  let top := maxOf (ready.map fun r => s.headLevel r.head)
  match ready.filter fun r => s.headLevel r.head = top with
  | [] => s
  | [r] => s.dispatch r.q r.head r.plan
  | rs =>
    let w := drawNext (s.die d).dseed
    let s := s.updDie d fun k => { k with dseed := w }
    let t := (rs.map fun r => r.head.rcd.tickets).sum
    match pickAt (fun r => r.head.rcd.tickets) ((w.toNat / 2 ^ 32 * t) / 2 ^ 32) rs with
    | some r => s.dispatch r.q r.head r.plan
    | none => s

/-! ## The pre-emption check (R168) -/

/-- A launch holds contexts on one of some dies. -/
def State.holdsOn (s : State) (id : Nat) (ds : List Nat) : Bool :=
  s.cores.any fun p => ds.contains (dieOf p.1) && [0, 1, 2, 3].any fun x =>
    match (p.2.ctx x).worker with
    | some w => w.launch = id
    | none => false

/-- Launch a is chosen before b: a lower level, and among equals the later dispatched. -/
def lowerLaunch (a b : Launch) : Bool := a.level < b.level || (a.level = b.level && b.order < a.order)

/-- The lowest-level launch of some. -/
def lowestLaunch (l : List Launch) : Option Launch :=
  l.foldl (fun (m : Option Launch) a => match m with | some b => if lowerLaunch a b then some a else m | none => some a) none

/-- The mask of some dies. -/
def maskOf (ds : List Nat) : BitVec 8 := ds.foldl (fun m d => m ||| (1#8 <<< d)) 0

/-- The first of a die's heads that cannot be placed and has the highest level. -/
def State.stuckHead (s : State) (d : Nat) : Option (Nat × Launch) :=
  let hs := (s.heads d).filter fun e => (s.plan e.2).isNone
  let top := maxOf (hs.map fun e => s.headLevel e.2)
  hs.find? fun e => s.headLevel e.2 = top

/-- The check for pre-emption by level. -/
def State.checkPreempt (s : State) (d : Nat) : State :=
  match s.stuckHead d with
  | none => s
  | some (q, l) =>
    let busy : Bool := match l.asked with | some id => s.leaving id | none => false
    let ds := s.needDies l
    match lowestLaunch (s.launches.filter fun m => m.level + 8 ≤ s.headLevel l && s.holdsOn m.id ds) with
    | none => s
    | some m =>
      if busy then s
      else
        let s' := s.requestPreempt m.id (maskOf ds)
        if s'.leaving m.id then
          { s' with launchQ := tset s'.launchQ q (match s'.queue q with | h :: t => { h with asked := some m.id } :: t | [] => []) }
        else s'

/-- DISPATCH_ROUND (R162-R170): pre-empted launches return to their queues, heads are checked, and each die dispatches and checks for
pre-emption. -/
def execDispatchRound (s : State) : Host.Outcome State Fault Refusal :=
  let s := (s.launches.map (·.id)).foldl (fun (s : State) id => s.settleResume id) s
  let s := (s.launchQ.map (·.1)).foldl (fun (s : State) q => s.checkHead q) s
  .next ((List.range 8).foldl (fun (s : State) d => (s.dispatchDie d).checkPreempt d) s)

/-! ## Completion (R140) -/

/-- Stores, copies or tile operations of a launch's workers remain. A store counts until its die has it: R140 names no scope, and that of another
die's bytes may be on its way to their home (log 68). -/
def State.launchBusy (s : State) (id : Nat) : Bool :=
  s.cores.any fun p => (p.2.ghosts.any fun t => t.launch = id && !t.drained) || (p.2.cmds.any fun m => m.launch = id)
    || p.2.calls.any fun m => m.launch = id

/-- A launch has nothing left to do: its workers have ended, and with them its walk unless it was killed. -/
def State.launchOver (s : State) (l : Launch) : Bool :=
  l.workers.isEmpty && !s.launchBusy l.id && (l.killed != 0 || (match l.walk with | some w => (s.walk? w).isNone | none => true))

/-- The event of a launch's completion (R399): always for a packet, for the others only when they were killed. -/
def State.completeEvent (s : State) (l : Launch) : State :=
  if l.fromHost then s.finalEvent l { kind := 1, code := l.killed }
  else if l.killed != 0 then s.logEvent l.vi { kind := 1, code := l.killed, queue := l.queue, arg := l.recVa }
  else s

/-- A launch completes (R140, R150, R399); a killed walk is over and counts out of its scope. -/
def State.complete (s : State) (l : Launch) : State :=
  let s : State := { s with launches := s.launches.filter (fun m => m.id != l.id), pipes := s.pipes.filter fun p => p.launch != l.id }
  let s := s.completeEvent l
  let s := match l.walk.bind s.walk? with
    | some w => ({ s with walks := s.walks.filter fun v => v.id != w.id } : State).countOut w.die w.scope
    | none => s
  s.countOut l.lead l.scope

/-- LAUNCH_COMPLETE (R140): running launch i. -/
def execLaunchComplete (s : State) : Host.Outcome State Fault Refusal :=
  .next (match s.launches[s.focus.i]? with
    | some l => if s.launchOver l then s.complete l else s
    | none => s)

/-- ENERGY_CHARGE_ARRIVAL (R172): charge i reaches the lead die of its launch. -/
def execEnergyChargeArrival (s : State) : Host.Outcome State Fault Refusal :=
  .next (match s.energyMsgs[s.focus.i]? with
    | some m => ({ s with energyMsgs := s.energyMsgs.eraseIdx s.focus.i } : State).updLaunch m.1 fun l => { l with charge := l.charge + m.2 }
    | none => s)

end Sys2Proof.Machine
end

