-- ==== Sys2Proof/Machine/Cycle.lean ====
section
/-!
DEFINITION. A core's steps: the issue of a bundle (R19-R23), deliveries (R19), switches (R24, R131-R133), returns from the system
context (R339, R348), debugger resumes, WDOG (R350) and the drain of the SAQ (R120, R235); and the passing of time (R158, R174-R176).
-/

namespace Sys2Proof.Machine

/-! ## The bundle of a context -/

/-- The moves of the bundle that a context stands at, or the trap of its fetch or its slots (R340). -/
def State.movesAt (s : State) (c x : Nat) : Except Trap (List Move) :=
  let t := s.ctx c x
  match t.worker with
  | none => .error { cause := .window }
  | some w =>
    match s.fetch c w t.pc with
    | .error tr => .error tr
    | .ok l => slotMoves moveOf t.nregs (x = 4) 0 l

/-- What the examination of a context's next bundle finds, once its due results have been delivered. -/
def State.look (s : State) (c x : Nat) : Assess :=
  let s := s.updCtx c x Ctx.deliverDue
  match if (s.ctx c x).asNever then .ok [] else s.movesAt c x with
  | .error tr => .trap tr
  | .ok ms => s.assess c x ms

/-! ## Readiness and switches (R24, R131-R133) -/

/-- A context is ready (R131): it may run, and its next bundle would not block; a worker past its last bundle would end. -/
def State.ready (s : State) (c x : Nat) : Bool :=
  let t := s.ctx c x
  match t.worker with
  | none => false
  | some w =>
    t.runnable && (t.stepDue || t.killReq.isSome ||
      match w.phase with
      | .done => t.storeFault.isSome || !t.drainFirst
      | .waiting => !s.waitsThere c x w
      | _ => match s.look c x with | .block | .work _ => false | _ => true)

/-- The first ready context in the order in which the core looks (R131). -/
def State.nextReady (s : State) (c x : Nat) : Option Nat := (switchOrder x).find? fun y => s.ready c y

/-- The context that a core is to switch to before its next cycle (R24, R131-R133): its running context has been blocked for more than
SWT cycles and still is, which one that only the limiter holds is not (R179), has yielded or cannot run, or it has none, or only the waiting
system context. -/
def State.switchDue (s : State) (c : Nat) : Option Nat :=
  let k := s.core c
  if k.fenced || 0 < k.stall then none
  else
    match k.running with
    | none => s.nextReady c k.last
    | some x =>
      if 4 ≤ x then s.nextReady c k.last
      else
        let t := k.ctx x
        if !t.runnable then s.nextReady c x
        else if t.yielded || (t.ctl.swt.toNat < t.blocked && !s.ready c x) then ([(x + 1) % 4, (x + 2) % 4, (x + 3) % 4].find? fun y => s.ready c y)
        else none

/-- The switch, when one is due. -/
def State.doSwitch (s : State) (c : Nat) : State :=
  match s.switchDue c with
  | some x => s.updCore c fun k => k.switchTo x
  | none => s

/-- CONTEXT_SWITCH (R24, R25, R131-R133). -/
def execContextSwitch (s : State) : Host.Outcome State Fault Refusal := .next (s.doSwitch s.focus.c)

/-- The context and worker whose bundle a core fetches in this cycle (R23-R25, R340): none while the core pays for a trap or a
switch, is fenced, or has first an event at the boundary to take. -/
def State.fetching (s : State) (c : Nat) : Option (Nat × Worker) :=
  let k := s.core c
  if k.fenced || 0 < k.stall then none
  else match k.running with
    | none => none
    | some x =>
      let t := s.ctx c x
      match t.worker with
      | none => none
      | some w =>
        if 4 ≤ x || t.stepDue || t.killReq.isSome || !t.runnable || w.phase = .done || w.phase = .waiting
            || (k.lastWorker != some w.uid && k.paid != some w.uid) then none
        else some (x, w)

/-- The fetch of a core's next bundle corrects and counts what errors it meets (R202): once, for a bundle that then waits. -/
def State.corrects (s : State) (c : Nat) : State :=
  match s.fetching c with
  | some (x, w) => if (s.ctx c x).hasBlocked || (s.ctx c x).asNever then s else s.fetched c w (s.ctx c x).pc
  | none => s

/-- The context and worker whose bundle issues in a core's next cycle (R21, R179). -/
def State.issuing (s : State) (c : Nat) : Option (Nat × Worker) :=
  match s.fetching c with
  | none => none
  | some (x, w) =>
    let s := s.beginBundle c x
    match s.look c x with
    | .go vs _ => if (s.core c).limits (weightOf (envOf c x (s.ctx c x) vs) s vs) then none else some (x, w)
    | _ => none

/-- A worker issues a bundle: its core shows it for the clk (R158), and the image slot of its restore is free (R351, R357). -/
def State.showIssue (s : State) (c : Nat) : Option (Nat × Worker) → State
  | none => s
  | some (x, w) => { s.updCore c fun k => { k with issued := some (x, s.clk) } with images := s.images.filter fun i => !(i.uid = w.uid && i.fresh) }

/-- A core fetches its next bundle: errors are corrected, and where the bundle issues in this cycle, that is shown. -/
def State.fetches (s : State) (c : Nat) : State := (s.corrects c).showIssue c (s.issuing c)

/-- BUNDLE_ISSUE (R21): the core's next cycle, after a switch that is due. -/
def execBundleIssue (s : State) : Host.Outcome State Fault Refusal :=
  let c := s.focus.c
  .next (((s.doSwitch c).fetches c).cycle c fun s x => s.movesAt c x)

/-- RESULT_DELIVERY (R19). -/
def execResultDelivery (s : State) : Host.Outcome State Fault Refusal := .next (s.updCtx s.focus.c s.focus.x Ctx.deliverDue)

/-! ## The system context (R339, R348, R350) -/

/-- A core that ran its system context for a context: it returns to that context, or goes on without one. -/
def Core.leaveSystem (k : Core) (x : Option Nat) : Core := { k with running := if k.running = some 4 then x else k.running }

/-- The firmware's action on a trap that has gone to the system context (R339, R342, R348): RESID returns; WDOG ends the worker, whatever a
debugger has asked and in a frozen context too (R350, R360); a debugger's interface stops the context, which SSTEP always does; every other
cause kills. -/
def State.systemReturn (s : State) (c x : Nat) : State :=
  let t := s.ctx c x
  match t.sys, t.worker with
  | some e, some w =>
    let debug := (s.vi w.vi).debug
    if e.cause = .wdog then
      (s.kill c x .wdog e.pc.toNat 0 (t.killReq.getD 1)).updCore c fun k => k.leaveSystem none
    else if t.frozen && t.killReq.isNone then s
    else
      if e.cause = .resid then
        let s := (s.updCtx c x fun t => { t with sys := none }).updCore c fun k => { k.leaveSystem (some x) with stall := k.stall + 6 }
        s.takeWdog c x 6
      else if e.cause = .sstep || debug then
        let s := (s.updCtx c x fun t => { t with sys := none, stopped := true }).updCore c fun k => k.leaveSystem none
        s.takeWdog c x 6
      else
        let s := match e.first with
          | some (k, pc, a) => s.logKill w k pc.toNat a
          | none => s
        (s.kill c x e.cause e.pc.toNat e.addr 1).updCore c fun k => k.leaveSystem none
  | _, _ => s

/-- SYSTEM_RETURN (R348). -/
def execSystemReturn (s : State) : Host.Outcome State Fault Refusal := .next (s.systemReturn s.focus.c s.focus.x)

/-- DEBUG_RESUME (R339, R358): a stopped context goes on; for a debugger of an interface whose debug enable is set, the system context sets
STEP, to k, as it does. -/
def execDebugResume (s : State) : Host.Outcome State Fault Refusal :=
  .next (s.updCtx s.focus.c s.focus.x fun t =>
    let debug := match t.worker with | some w => (s.vi w.vi).debug | none => false
    if t.stopped && debug then { t with stopped := false, ctl := { t.ctl with step := BitVec.ofNat 2 s.focus.k } } else { t with stopped := false })

/-- WDOG (R350): a kill requested of a context's worker is delivered, after a bundle whose close of a scope is made (R145). -/
def execWdog (s : State) : Host.Outcome State Fault Refusal :=
  .next (if (s.ctx s.focus.c s.focus.x).closed then s else s.takeWdog s.focus.c s.focus.x 6)

/-! ## SAQ_DRAIN (R120, R235) -/

/-- The bytes of the shape records that a record names. -/
def shapeBytes (r : BitVec 512) : List Int :=
  let left : Nat → List Int := fun a => if a = 0 then [] else spanOf (align64 a : Nat) 64
  left (recSshape r) ++ left (recDshape r)

/-- The records that a running channel is still to read, from the one at an address on, as memory has their links now, with their shape
records (R233, R235; log 18): n bounds their number, and those before are not taken twice. -/
def State.chainBytes (s : State) (v : View) : Nat → List Nat → List (Nat × BitVec 256) → Nat → List Int
  | 0, _, _, _ => []
  | n + 1, before, got, a =>
    if a = 0 || before.contains a then []
    else
      let own := (sectorsLeft got a).flatMap fun p => spanOf (p : Nat) 32
      match if (sectorsLeft got a).isEmpty then ReadRes.got (recordOf got a) else s.readRecord v a with
      | .got r => own ++ if recOwn r then shapeBytes r ++ s.chainBytes v n (a :: before) [] (recNext r >>> 6 <<< 6).toNat else []
      | _ => own

/-- The bytes of records that the commands and channels of a worker, triggered before a place of its order, are still to read (R235). A
record of a chain has a byte that is not zero, which bounds the chain. -/
def State.recordsBefore (s : State) (c : Nat) (t : Ctx) (n : Nat) : List Int :=
  (s.cores.flatMap fun p => (p.2.cmds.filter fun m => m.uid = t.uid && m.phase = .queued && m.seq < n).flatMap (s.recordBytes p.1))
    ++ (t.chan.toList.filter fun k => k.running && k.seq < n).flatMap fun k => s.chainBytes (t.view c) (s.mem.length + 1) [] k.got k.head.toNat

/-- A store is held until the copy commands and channels triggered before it have read the records it overlaps (R235). -/
def State.recordHeld (s : State) (c : Nat) (t : Ctx) (r : StoreReq) : Bool :=
  ((s.recordsBefore c t r.seq).map fun a => s.locate c t a).any fun l =>
    match r.op with
    | .scatter base idx n eb =>
      (scatterImg base eb n ((imgRange idx 0 (4 * n)).map fun p => ((t.idxRead r).lookup p.2).getD (s.loadByte c t p.1))).any fun p => sameLoc (s.locate c t p.1) l
    | _ => s.storeTouches c t r l

/-- The head of a context's SAQ drains, or holds (R118-R121, R213, R239, R290, R321): nothing drains behind a pending store fault. -/
def State.drain (s : State) (c x : Nat) : State :=
  let t := s.ctx c x
  match t.saq with
  | [] => s
  | r :: _ =>
    if t.storeFault.isSome || s.recordHeld c t r then s
    else
      match r.op with
      | .plain img eb _ => s.drainPlain c x r img eb
      | .scatter base idx n eb => s.drainScatter c x r base idx n eb s.focus.k
      | .rel sc => s.drainRel c x r sc.toNat
      | .bini _ => s.drainBar c x r 0
      | .bexp _ => s.drainBar c x r 0
      | .barr sc => s.drainBar c x r sc.toNat
      | .gvobs _ _ _ => s.sendStore c x r [] true
      | .xscore => s.drainScore c x r

/-- SAQ_DRAIN (R120). -/
def execSaqDrain (s : State) : Host.Outcome State Fault Refusal := .next (s.drain s.focus.c s.focus.x)

/-! ## Parked and active contexts (R175) -/

/-- What R175 says of a context: active; waiting with no producer in flight; or in sy.park. -/
inductive Standing where
  | active | idle | park
deriving DecidableEq, Repr

/-- The sync object or barrier object that a trigger's bundle waits on, as a physical address. -/
def State.objAt (s : State) (env : Env) (a : Nat) : Option Nat := (s.locate env.c env.t0 (a : Nat)).bind s.resolve

/-- The record of a command: of one that is still queued, as it stands in memory (R175). -/
def State.cmdRecord (s : State) (c : Nat) (m : CopyCmd) : BitVec 512 :=
  if m.phase != .queued || m.chan.isSome then m.rcd
  else if (sectorsLeft m.got m.rva).isEmpty then recordOf m.got m.rva
  else match s.readRecord (m.view c) m.rva with | .got r => r | _ => 0

/-- An engine command that releases an object, or a release of another agent on its way (R175). -/
def State.releaseComing (s : State) (pa : Nat) : Bool :=
  s.cores.any fun p =>
    (p.2.cmds.any fun m =>
      let r := s.cmdRecord p.1 m
      recRel r && recSo r && (s.vaPa m.wins m.launch p.1 ((align64 (recSobj r) : Nat) : Int)) = some pa)
      || (List.range (5 + p.2.ghosts.length)).any fun x =>
        let t := p.2.ctx x
        t.stFlight.any fun f => (match f.req.op with | .rel _ => true | _ => false) && (s.locate p.1 t (f.req.va : Int)).bind s.resolve = some pa

/-- A copy that arrives on a barrier object (R175). -/
def State.arrivalComing (s : State) (pa : Nat) : Bool :=
  s.cores.any fun p => p.2.cmds.any fun m =>
    let r := s.cmdRecord p.1 m
    (recArr r || recRpt r) && (s.vaPa m.wins m.launch p.1 ((recBar r / 32 * 32 : Nat) : Int)) = some pa

/-- A scope has a queued or running child launch, a decrement on its way, or a live child scope that has one of them (R175). -/
def State.scopeComing : Nat → State → BitVec 16 → Bool
  | 0, _, _ => false
  | n + 1, s, id =>
    (s.launches.any fun l => l.scope = id) || (s.launchQ.any fun q => q.2.any fun l => l.scope = id) || s.scopeDecs.contains id
      || (s.walks.any fun w => w.scope = id)
      || s.dies.any fun d => d.2.scopes.any fun e =>
        e.2.valid && e.2.parent = id && s.scopeComing n (scopeId d.1 e.1 e.2.gen)

/-- A wait of a blocked bundle: not listed by R175, or listed, with or without a producer in flight; or a park. -/
inductive Waiting where
  | other | fed | starved | park
deriving DecidableEq, Repr

/-- What a blocked trigger waits for. -/
def State.waitKind (s : State) (env : Env) (g : Trigger) (v : VWord) : Waiting :=
  let f : Bool → Waiting := fun b => if b then .fed else .starved
  match g.code with
  | 0x34F => .park
  | 0x343 => f (match s.objAt env (objAddr env) with | some pa => s.releaseComing pa | none => false)
  | 0x34E =>
    match env.t0.worker with
    | some w => f ((s.teamMsgs.any fun m => m.launch = w.launch) || match env.t0.tbarReg, s.ctxTeam env.t0 true with
        | some (true, g), some t => g < t.gen
        | _, _ => false)
    | none => .other
  | 0x34D => f (s.scopeComing 2048 (v.truncate 16))
  | 0x282 => f (match s.handleQueue env.t0 (quHandle (v.truncate 64)) with | some (_, q) => !q.gone.isEmpty | none => false)
  | 0x283 => f (match s.handleQueue env.t0 (quHandle (v.truncate 64)) with | some (_, q) => !q.gone.isEmpty | none => false)
  | 0x383 => f (match s.gridOf env.c env.t0 (v.toNat % 4) with | some (_, _, g) => s.slabs.any fun b => b.dest = g.desc | none => false)
  | 0x386 => f (match env.t0.worker with | some w => s.proposals.any fun p => p.launch = w.launch | none => false)
  | 0x2C7 => f (match s.objAt env (barAddr env) with | some pa => s.arrivalComing pa | none => false)
  | _ => .other

/-- What a pop without an entry waits for. -/
def State.popKind (s : State) (t : Ctx) : Src → Waiting
  | .qp h => queue h
  | .qv h => queue h
  | .frecv => if 0 < t.owed then .fed else .starved
  | .ldq => halo
  | .vldq => halo
  | _ => .other
where
  queue (h : BitVec 2) : Waiting :=
    match s.inQueue t h.toNat with
    | some (_, q) => if q.entries.any fun e => !e.visible then .fed else .starved
    | none => .other
  /-- the load that the pop waits for: in the LDQ, or still at the head of the LAQ, where a stale ldh stands (R313) -/
  halo : Waiting :=
    match ((t.ldq.find? fun e => !e.landed).map (·.req)).or t.laq.head? with
    | some r =>
      match r.op with
      | .ldh _ h _ => if (s.slabs.any fun b => some b.dest = vget t.grid h.toNat none) then .fed else .starved
      | _ => .other
    | none => .other

/-- The waits of a context's blocked bundle: of its pops, and of the triggers whose values are there. -/
def State.waitKinds (s : State) (c x : Nat) (ms : List Move) : List (Nat × Waiting) :=
  let t := s.ctx c x
  let active := if t.asNever then [] else ms.filter fun m => t.guard m.guard
  let (rs, _) := s.readAll t { seed := t.ctl.seed } active
  let vs : List Valued := rs.filterMap fun r => match r.2 with | .val v => some (r.1, v) | _ => none
  let env := envOf c x t vs
  (rs.filterMap fun r => if r.2 = .wait then some (0, s.popKind t r.1.src) else none)
    ++ (triggersOf vs).filterMap fun g =>
      if (g.2.1.wait env s g.2.2).isReady then none else some (g.2.1.code, s.waitKind env g.2.1 g.2.2)

/-- How a context stands (R175). A context that its core does not let run, and one that waits for anything R175 does not list, is
active: one of a walk that waits for a dispatch among them (R329). -/
def State.standing (s : State) (c x : Nat) : Standing :=
  let s := s.updCtx c x Ctx.deliverDue
  let t := s.ctx c x
  match t.worker with
  | none => .idle
  | some w =>
    if !t.runnable || t.stepDue || t.killReq.isSome || w.phase = .done then .active
    else if w.phase = .waiting then .active
    else
      match s.movesAt c x with
      | .error _ => .active
      | .ok ms =>
        match s.assess c x ms with
        | .block | .work _ =>
          let ks := s.waitKinds c x ms
          if ks.any fun k => k.1 = 0x341 then .active
          else if ks.any fun k => k.2 = .park then .park
          else if ks.any fun k => k.2 = .starved then .idle else .active
        | _ => .active

/-- The standings of a virtual interface's contexts, with their queues' launches. -/
def State.standings (s : State) (v : Nat) : List (Nat × Standing) :=
  s.cores.flatMap fun p => [0, 1, 2, 3].filterMap fun x =>
    match (p.2.ctx x).worker with
    | some w => if w.vi = v then some (w.launch, s.standing p.1 x) else none
    | none => none

/-- Every running worker of a queue is parked (R175, R176): waiting without a producer counts only while no other context of the interface
is active. -/
def parkedAll (mine : List Nat) (l : List (Nat × Standing)) : Bool :=
  let calm := l.all fun e => e.2 != .active
  l.all fun e => !(mine.contains e.1) || e.2 = .park || (e.2 = .idle && calm)

/-! ## Time -/

/-- Killed launches of a queue have workers or engine operations left (R176). -/
def State.killBusy (s : State) (v q : Nat) : Bool :=
  (s.queueLaunches v q).any fun l => l.killed != 0 && (!l.workers.isEmpty || s.launchBusy l.id)

/-- A watchdog as n clk pass (R176): live says that the queue has running workers, still that all of them are parked, busy that killed ones
are not done. -/
def Watchdog.pass (w : Watchdog) (n : Nat) (live still busy : Bool) : Watchdog :=
  match w.state with
  | .idle => w
  | .run => if !live then { w with state := .idle, count := 0 } else if still then { w with state := .susp } else { w with count := w.count + n }
  | .susp => if !live then { w with state := .idle, count := 0 } else if still then w else { w with state := .run, count := w.count + n }
  | .pre => if !live then { w with state := .idle, count := 0 } else { w with count := w.count + n }
  | .kill => if busy then { w with count := w.count + n } else { w with state := .idle, count := 0 }
  | .fence => { w with state := .idle, count := 0 }

/-- The watchdogs of an interface as n clk pass: those of a frozen one hold (R360). -/
def State.dogsPass (s : State) (v : Nat) (k : VI) (n : Nat) : VI :=
  if k.frozen || k.wd.all fun e => e.2.state = .idle then k
  else
    let st := s.standings v
    { k with wd := k.wd.map fun e =>
        let mine := (s.queueLaunches v e.1).map (·.id)
        (e.1, e.2.pass n (st.any fun a => mine.contains a.1) (parkedAll mine st) (s.killBusy v e.1)) }

/-- Some pop of a stage queue finds no entry, those of the slots before it being taken. -/
def starvedStage (rs : List (Move × PopRes)) : Bool :=
  rs.any fun r => r.2 = .wait && match r.1.src with | .qp _ | .qv _ => true | _ => false

/-- A context's next bundle is blocked on a stage-queue pop or push (R158). -/
def State.stageBlocked (s : State) (c x : Nat) : Bool :=
  let s := s.updCtx c x Ctx.deliverDue
  let t := s.ctx c x
  t.runnable && !t.asNever && match s.movesAt c x with
    | .error _ => false
    | .ok ms =>
      match s.assess c x ms with
      | .block | .work _ =>
        starvedStage (s.readAll t { seed := t.ctl.seed } (ms.filter fun m => t.guard m.guard)).1
          || (s.waitKinds c x ms).any fun k => k.1 = 0x282 || k.1 = 0x283
      | _ => false

/-- A context has issued a bundle in this clk: its next one is not blocked in it. -/
def Core.justIssued (k : Core) (x clk : Nat) : Bool := k.issued = some (x, clk)

/-- The stage counts Bs of a pipeline as n clk pass, the one that ends first (R158). -/
def State.stagesPass (s : State) (p : Pipeline) (n : Nat) : Pipeline :=
  { p with blocked := p.blocked.zipIdx.map fun b => b.1 + (s.cores.map fun k =>
      ([0, 1, 2, 3].map fun x =>
        if (match (k.2.ctx x).worker with | some w => w.stage = some (p.id, b.2) | none => false) && s.stageBlocked k.1 x then
          (if k.2.justIssued x s.clk then n - 1 else n)
        else 0).sum).sum }

/-- The registers written in a clk act from the next on: CLIM (R180) and WDLIM (R177); and its bindings stand (R198). -/
def State.regsAct (s : State) : State :=
  { s with cores := s.cores.map fun p => (p.1, { p.2 with climWas := none })
           dies := s.dies.map fun d => (d.1, { d.2 with fresh := [] })
           vis := s.vis.map fun v => (v.1, { v.2 with wd := v.2.wd.map fun d => (d.1, { d.2 with was := none }) }) }

/-- The resets of interfaces that are over end with the clk (R397, R400). -/
def State.resetsEnd (s : State) : State := s.vis.foldl (fun (s : State) v => s.endReset v.1) s

/-- The end of a clk: the bank allocators (R264), the barriers of teams (R143), the checks of barrier objects (R240), the zero tests of scopes
(R150), the engines' writes whose pages have come (R196), the frames whose pins have fallen (R199), the resets
of interfaces (R400), and the registers written in it. -/
def State.endClk (s : State) : State :=
  ((((({ s with cores := s.cores.map fun p => (p.1, p.2.allocate) } : State).settleTeams.endBarriers).scopesEnd 2048).landOwed).unpinFrames).resetsEnd.regsAct

/-- The number of clk, at most n, to the next at which the view of a stage queue changes (R152) or an interval of a pipeline ends (R158). -/
def State.nextEdge (s : State) (n : Nat) : Nat :=
  let view := match s.nextView with | some k => k - s.clk | none => n
  Nat.max 1 ((s.pipes.map fun p => 2 ^ p.ivexp - (s.clk - p.start) % 2 ^ p.ivexp).foldl Nat.min (Nat.min n view))

/-- RCTL as written takes effect at the next ring cycle (R363). -/
def State.rctlActs (s : State) : State :=
  match s.rctlNext with
  | some (r, v) => if r < s.clk / 2 then { s with rctl := v, rctlNext := none } else s
  | none => s

/-- n clk pass in which nothing of R152 or R158 falls due but at their end; then a step-checked load that has waited its time out is marked
(R313). -/
def State.passFlat (s : State) (n : Nat) : State :=
  let s : State := { s with clk := s.clk + n, vis := s.vis.map fun e => (e.1, s.dogsPass e.1 e.2 n), pipes := s.pipes.map fun p => s.stagesPass p n }
  let s := s.showViews.rctlActs.ldhDue
  (s.pipes.filter fun p => p.endsAt s.clk && p.measured != s.clk).foldl (fun (s : State) p => s.endInterval p) s

/-- n clk pass, in at most f parts. -/
def State.pass : Nat → Nat → State → State
  | 0, _, s => s
  | f + 1, n, s =>
    if n = 0 then s
    else
      let k := s.nextEdge n
      (s.passFlat k).pass f (n - k)

/-- The current clk ends, and n pass. -/
def State.tick (s : State) (n : Nat) : State := if n = 0 then s else s.endClk.pass n n

/-! ## The watchdog's actions (R176, R178) -/

/-- A limit in clk (R176). -/
def limitClk (us : Nat) : Nat := us * 4000

/-- A core is fenced (R178, R399): every context on it stops, and the launches they belong to are killed with cause "fence". -/
def State.fenceCore (s : State) (v c : Nat) : State :=
  if (s.core c).fenced then s
  else
    let ids := [0, 1, 2, 3].filterMap fun x => ((s.ctx c x).worker).map (·.launch)
    let s := (s.updCore c fun k => { k with fenced := true }).logEvent v { kind := 8, arg := c }
    let s := ids.foldl (fun (s : State) id => s.killLaunch id 2) s
    [0, 1, 2, 3].foldl (fun (s : State) x => s.takeWdog c x 6) s

/-- A worker that is to be killed ends, without more of its handlers (R178). -/
def State.endWdog (s : State) (c x : Nat) : State :=
  let t := s.ctx c x
  match t.killReq with
  | some code => s.kill c x .wdog t.pc.toNat 0 code
  | none => s

/-- The cores on which workers, calls or commands of a queue's killed launches are left. -/
def State.unfinishedCores (s : State) (v q : Nat) : List Nat :=
  let ids := ((s.queueLaunches v q).filter fun l => l.killed != 0).map (·.id)
  (s.cores.filter fun p =>
    ([0, 1, 2, 3].any fun x => match (p.2.ctx x).worker with | some w => ids.contains w.launch | none => false)
      || (p.2.cmds.any fun m => ids.contains m.launch) || p.2.calls.any fun m => ids.contains m.launch).map (·.1)

/-- The count reaches L3 in KILL: the cores of unfinished workers are fenced, and the watchdog is idle again. -/
def State.dogFence (s : State) (v q : Nat) : State :=
  let d := (s.vi v).dog q
  if d.state != .kill || d.count < limitClk d.lims.2.2 || (s.vi v).frozen then s
  else
    let s := (s.unfinishedCores v q).foldl (fun (s : State) c => s.fenceCore v c) s
    s.updDog v q fun d => { d with state := .idle, count := 0 }

/-- The count reaches L2 in PRE: every running launch of the queue is killed; a limit of 0 makes the next step follow at once. -/
def State.dogKill (s : State) (v q : Nat) : State :=
  let d := (s.vi v).dog q
  if d.state != .pre || d.count < limitClk d.lims.2.1 || (s.vi v).frozen then s
  else
    let s := (s.queueRunning v q).foldl (fun (s : State) l => s.killLaunch l.id 1) s
    let s := s.updDog v q fun d => { d with state := .kill, count := 0 }
    if d.lims.2.2 = 0 then s.dogFence v q else s

/-- The count reaches L1 in RUN: pre-emption of every running launch of the queue is requested. -/
def State.dogPre (s : State) (v q : Nat) : State :=
  let d := (s.vi v).dog q
  if d.state != .run || d.lims.1 = 0 || d.count < limitClk d.lims.1 || (s.vi v).frozen then s
  else
    let s := (s.queueRunning v q).foldl (fun (s : State) l => s.requestPreempt l.id 0xFF) s
    let s := s.updDog v q fun d => { d with state := .pre, count := 0 }
    if d.lims.2.1 = 0 then s.dogKill v q else s

/-- WATCHDOG_PRE (R176): queue k of interface v; a barrier object's phase or a team's generation that advances in this clk is progress first. -/
def execWatchdogPre (s : State) : Host.Outcome State Fault Refusal := .next (s.settleTeams.endBarriers.dogPre s.focus.v s.focus.k)

/-- WATCHDOG_KILL (R176). -/
def execWatchdogKill (s : State) : Host.Outcome State Fault Refusal := .next (s.settleTeams.endBarriers.dogKill s.focus.v s.focus.k)

/-- WATCHDOG_FENCE (R178). -/
def execWatchdogFence (s : State) : Host.Outcome State Fault Refusal := .next (s.dogFence s.focus.v s.focus.k)

/-- CORE_RESET (R178): a fenced core takes dispatch again; a worker that firmware still handles there is killed. -/
def execCoreReset (s : State) : Host.Outcome State Fault Refusal :=
  let c := s.focus.c
  .next (if !(s.core c).fenced then s
    else
      let s := [0, 1, 2, 3].foldl (fun (s : State) x => s.endWdog c x) s
      s.updCore c fun k => { k with fenced := false, running := none, stall := 0, window := [], lastWorker := none, paid := none })

end Sys2Proof.Machine
end

