-- ==== Sys2Proof/Machine/Ring.lean ====
section
/-!
DEFINITION. Rings (R361-R371): stations, slots, flits, and their arrival.
-/

namespace Sys2Proof.Machine

/-! ## Stations and flits -/

/-- A station of the package ring, or the module's station of the rack ring, number 9. -/
def State.station (s : State) (i : Nat) : Station := tget {} s.stations i

/-- Changes a station. -/
def State.updStation (s : State) (i : Nat) (f : Station → Station) : State := { s with stations := tset s.stations i (f (s.station i)) }

/-- The direction from one station to another (R365): counter-clockwise when that is shorter. -/
def goesBack (n a b : Nat) : Bool := let d := (b + n - a) % n; n - d < d

/-- The modules of the rack ring (R363). -/
def State.modules (s : State) : Nat := s.rctl.nmod.toNat + 1

/-- Words in groups of n. -/
def groupsOf {α : Type} (n : Nat) : Nat → List α → List (List α)
  | 0, _ => []
  | f + 1, l => if l.length ≤ n then [l] else l.take n :: groupsOf n f (l.drop n)

/-- The messages that a unit has sent (R364): a core, or, numbered 0x3FF, the functions of a station. -/
def State.sentBy (s : State) (st unit : Nat) : Nat := if unit = 0x3FF then (s.station st).sent else (s.core unit).sent

/-- A unit sends one more. -/
def State.countSent (s : State) (st unit : Nat) : State :=
  if unit = 0x3FF then s.updStation st fun k => { k with sent := k.sent + 1 } else s.updCore unit fun k => { k with sent := k.sent + 1 }

/-- A flit's route field (R364). -/
def Flit.route (f : Flit) : BitVec 128 :=
  BitVec.ofNat 128 (f.smod % 64 * 2 ^ 122 + f.ssta % 16 * 2 ^ 118 + f.sunit % 1024 * 2 ^ 108 + f.mid % 256 * 2 ^ 100
    + f.dmod % 64 * 2 ^ 58 + f.dsta % 16 * 2 ^ 54 + f.dunit % 1024 * 2 ^ 44 + f.dctx % 4 * 2 ^ 42 + f.tier % 4 * 2 ^ 40
    + f.reply.toNat * 2 ^ 39 + f.head.toNat * 2 ^ 38 + f.tail.toNat * 2 ^ 37 + f.lap.toNat * 2 ^ 36 + f.esc.toNat * 2 ^ 35
    + f.dir.toNat * 2 ^ 34 + f.slot % 2 ^ 16 * 2 ^ 18 + f.seq % 64 * 2 ^ 12)

/-- The 64 bytes of a flit: the route field below six payload words (R364). -/
def Flit.bits (f : Flit) : BitVec 512 :=
  f.route.zeroExtend 512 ||| BitVec.ofNat 512 (bytesNat ((f.words.take 6).flatMap fun w => natBytes 8 w.toNat)) <<< 128

/-- A flit of the rack ring as its 64 bytes give it (R364). -/
def Flit.ofBits (w : BitVec 512) : Flit :=
  let f : Nat → Nat → Nat := fun hi lo => w.toNat / 2 ^ lo % 2 ^ (hi - lo + 1)
  { msg := 0, src := 9, dst := 9, reply := w.getLsbD 39, tier := f 41 40, dir := w.getLsbD 34, seq := f 17 12, head := w.getLsbD 38, tail := w.getLsbD 37
    lap := w.getLsbD 36, esc := w.getLsbD 35, words := (List.range 6).map fun i => w.extractLsb' (128 + 64 * i) 64
    smod := f 127 122, ssta := f 121 118, sunit := f 117 108, mid := f 107 100, dmod := f 63 58, dsta := f 57 54, dunit := f 53 44, dctx := f 43 42
    slot := f 33 18 }

/-- The payload of a memory request or reply (R364): the address, the mask of its bytes in the sector, and the sector's bytes. -/
def cellWords (pa : Nat) (cells : List (Nat × Byte)) : List Word :=
  let mask := cells.foldl (fun m p => m ||| 2 ^ (p.1 % 32)) 0
  let sector := cells.foldl (fun m p => m ||| p.2.toNat * 2 ^ (8 * (p.1 % 32))) 0
  [BitVec.ofNat 64 pa, BitVec.ofNat 64 mask] ++ (List.range 4).map fun i => BitVec.ofNat 64 (sector / 2 ^ (64 * i))

/-- The bytes that such a payload carries: those of its mask. -/
def maskCells (ws : List Word) : List (Nat × Byte) :=
  let base := (ws.getD 0 0).toNat / 32 * 32
  let data := (ws.drop 2).flatMap fun w => natBytes 8 w.toNat
  ((List.range 32).filter fun j => (ws.getD 1 0).getLsbD j).map fun j => (base + j, data.getD j 0)

/-- The flits of a message's words (R364): f gives their fields. Replies travel at tier 0 (R366). -/
def flitsOf (f : Flit) (words : List Word) : List Flit :=
  let g := groupsOf 6 (words.length + 1) words
  g.zipIdx.map fun e =>
    { f with tier := if f.reply then 0 else f.tier, seq := e.2, head := e.2 = 0, tail := e.2 + 1 = g.length, words := e.1 }

/-- This module's RCTL lets flits go to another module (R363). -/
def State.rackTo (s : State) (m : Nat) : Bool := s.rctl.up && m ≤ s.rctl.nmod.toNat

/-- Flits join the queue of the module's station of the rack ring, where RCTL lets them go (R363). -/
def State.toRack (s : State) (f : Flit) (fs : List Flit) : State :=
  if s.rackTo f.dmod then
    s.updStation 9 fun k => { k with queue := k.queue ++ fs.map fun e => { e with src := 9, dst := 9, dir := goesBack s.modules s.mod f.dmod } }
  else s

/-- Flits join the injection queue of a station, for the package ring, or of the module's station of the rack ring: those that stay within a
station ride no ring (R365). -/
def State.inject (s : State) (f : Flit) (words : List Word) : State :=
  if f.dmod != s.mod && f.src = 8 then s.toRack f (flitsOf f words)
  else if f.src = f.dst then s
  else s.updStation f.src fun k => { k with queue := k.queue ++ flitsOf { f with dir := goesBack 9 f.src f.dst } words }

/-- The station at which an access to a physical address is performed, or by which it leaves the module (R380). -/
def State.stationOf (s : State) (pa : Nat) : Nat :=
  if paMod pa != s.mod then 8 else if paRegion pa = 0 then paDie pa else if paRegion pa = 1 then paCore pa / 128 else 8

/-! ## Slots (R362) -/

/-- The ring cycle of a clk: the ring runs at half the clock. -/
def State.ringCycle (s : State) : Nat := s.clk / 2

/-- The slot of each lane of a direction that passes a station in a ring cycle: the nine slots go round, one hop a cycle. -/
def slotAt (back : Bool) (st r : Nat) : Nat := if back then (st + r) % 9 else (st + (9 - r % 9)) % 9

/-- A flit's slot stands at a station. -/
def Flit.atStation (f : Flit) (st r : Nat) : Bool := f.place = slotAt f.dir st r

/-- The lanes of a station's ring, the last of which takes replies alone. -/
def ringLanes (st : Nat) : Nat := if st = 9 then 8 else 16

/-- The lanes whose slots pass a station empty, in a direction: those of a mask in which no flit rides. -/
def State.emptyLanes (s : State) (st : Nat) (back : Bool) (mask : Nat) : List Nat :=
  (List.range (ringLanes st)).filter fun l =>
    mask.testBit l && (st = 9 || !(s.flits.any fun f => f.dir = back && f.lane = l && f.place = slotAt back st s.ringCycle))

/-! ### Injection (R367, R369) -/

/-- The first flit of a tier and direction that may take a lane: a request never a reserved lane, last being its number, and none while U > 0 at
the stations of the module, held saying so. -/
def Station.pick (k : Station) (last : Nat) (held dir : Bool) (tier lane : Nat) : Option Nat :=
  k.queue.findIdx? fun f => f.dir = dir && f.tier = tier && (f.reply || (lane != last && !held))

/-- A flit of a tier waits in a direction. -/
def Station.waits (k : Station) (dir : Bool) (tier : Nat) : Bool := k.queue.any fun f => f.dir = dir && f.tier = tier

/-- A slot given: to the first of some tiers that has a flit for it. -/
def Station.give (k : Station) (last : Nat) (held dir : Bool) (lane : Nat) : List Nat → Option (Nat × Flit × Station)
  | [] => none
  | t :: ts =>
    match k.pick last held dir t lane with
    | some i =>
      match k.queue[i]? with
      | some f => some (t, { f with lane := lane }, { k with queue := k.queue.eraseIdx i })
      | none => none
    | none => k.give last held dir lane ts

/-- The empty slots of a ring cycle are given in lane order: each to the due tiers first, once each, then by strict priority. -/
def Station.giveAll (last : Nat) (held dir : Bool) : List Nat → List Nat → Station → List Flit → List Nat → Station × List Flit × List Nat
  | [], _, k, fs, ts => (k, fs, ts)
  | lane :: ls, due, k, fs, ts =>
    match k.give last held dir lane due with
    | some (t, f, k) => Station.giveAll last held dir ls (due.erase t) k (fs ++ [f]) (t :: ts)
    | none =>
      match k.give last held dir lane [0, 1, 2] with
      | some (t, f, k) => Station.giveAll last held dir ls due k (fs ++ [f]) (t :: ts)
      | none => Station.giveAll last held dir ls due k fs ts

/-- A tier's counter at the end of a ring cycle. -/
def nextCtr (n : Nat) (waited got left : Bool) : Nat := if got || !left then 0 else if waited then n + 1 else n

/-- A station holds back new requests (R369): the Bivouac die's does on either ring. -/
def State.holdsBack (s : State) (st : Nat) : Bool :=
  0 < (s.station st).u || ((st = 8 || st = 9) && (0 < (s.station 8).u || 0 < (s.station 9).u))

/-- A ring cycle of a station in a direction (R367), in which the empty slots of the lanes of a mask pass: once a ring cycle. What leaves by
the rack ring leaves the module. -/
def State.ringSlots (s : State) (st : Nat) (back : Bool) (mask : Nat) : State :=
  let j := back.toNat
  let k := s.station st
  if k.ran.getD j none = some s.ringCycle || (st = 9 && !s.rctl.up) then s
  else
    let (c1, c2) := k.ctr.getD j (0, 0)
    let due := (if s.rctl.s1 != 0 && s.rctl.s1.toNat ≤ c1 then [1] else []) ++ (if s.rctl.s2 != 0 && s.rctl.s2.toNat ≤ c2 then [2] else [])
    let (k', fs, got) := Station.giveAll (ringLanes st - 1) (s.holdsBack st) back (s.emptyLanes st back mask) due k [] []
    let ctr := (nextCtr c1 (k.waits back 1) (got.contains 1) (k'.waits back 1), nextCtr c2 (k.waits back 2) (got.contains 2) (k'.waits back 2))
    let fs := if st = 9 then [] else fs.map fun f => { f with place := slotAt back st s.ringCycle }
    ({ s with flits := s.flits ++ fs } : State).updStation st fun _ => { k' with ctr := k'.ctr.set j ctr, ran := k'.ran.set j (some s.ringCycle) }

/-! ### Arrival (R368-R370) -/

/-- Escape entries in use of a direction: 16 of them. -/
def Station.escUsed (k : Station) (dir : Bool) : Nat := k.esc.countP fun e => e.dir = dir

/-- Two flits are the same one of a message, which its number names, or, over the rack ring, its source (R364). -/
def Flit.same (f g : Flit) : Bool :=
  f.msg = g.msg && f.reply = g.reply && f.seq = g.seq && f.smod = g.smod && f.ssta = g.ssta && f.sunit = g.sunit && f.mid = g.mid

/-- A flit has been taken: it is no longer counted in U (R369). -/
def Station.uncount (k : Station) (f : Flit) : Station := if f.counted then { k with u := k.u - 1 } else k

/-- What becomes of a flit that reaches its station: it is taken by its sink's buffer, or into its escape entry, or goes round again. -/
inductive Arrival where
  | taken
  | held
  | round (f : Flit)
deriving DecidableEq, Repr

/-- What a station does with a flit that has arrived (R368-R370), where room says whether its sink's buffer has room. -/
def Station.arrive (k : Station) (f : Flit) (room : Bool) : Station × Arrival :=
  if room then ({ k.uncount f with esc := if f.esc then k.esc.eraseP (fun e => !e.held && e.flit.same f) else k.esc }, .taken)
  else if f.reply then (k, .round { f with lap := true })
  else if f.esc then
    ({ k.uncount f with esc := k.esc.map fun e => if !e.held && e.flit.same f then { e with flit := f, held := true } else e }, .held)
  else if k.escUsed f.dir < 16 && (f.lap || k.u = 0) then
    let f := { f with lap := true, esc := true }
    ({ k with esc := k.esc ++ [{ dir := f.dir, flit := f }] }, .round f)
  else if f.counted then (k, .round f)
  else ({ k with u := k.u + 1 }, .round { f with lap := true, counted := true })

/-- A flit is at its bridge to the other ring (R365). -/
def Flit.bridges (f : Flit) (mod : Nat) : Bool := f.dmod != mod

/-- A sink that never refuses (R370, R371): a reply's, and a network port's, which takes every flit of a message. A bridge may. -/
def Flit.alwaysTaken (f : Flit) (mod : Nat) : Bool := !f.bridges mod && (f.reply || f.dunit != 0x3FF)

/-- A flit leaves its ring: at a bridge it joins the rack ring's queue, in the direction of R365. -/
def State.leavesRing (s : State) (f : Flit) : State :=
  if f.bridges s.mod then s.toRack f [{ f with lap := false, esc := false, counted := false, seen := none }] else s

/-- A flit of the package ring reaches its station: it does so in a ring cycle in which its slot stands there, once. -/
def State.flitArrives (s : State) (i : Nat) (room : Bool) : State :=
  match s.flits[i]? with
  | none => s
  | some f =>
    if !f.atStation f.dst s.ringCycle || f.seen = some s.ringCycle then s
    else
      let (k, o) := (s.station f.dst).arrive f (room || f.alwaysTaken s.mod)
      let s := s.updStation f.dst fun _ => k
      match o with
      | .taken => ({ s with flits := s.flits.eraseIdx i } : State).leavesRing f
      | .held => { s with flits := s.flits.eraseIdx i }
      | .round g => { s with flits := s.flits.set i { g with seen := some s.ringCycle } }

/-- Escape entry n of a station drains to its sink, and is free (R368, R371). -/
def State.escDrains (s : State) (st n : Nat) (sink : State → Flit → State) : State :=
  match (s.station st).esc[n]? with
  | some e => if e.held then sink (s.updStation st fun k => { k with esc := k.esc.eraseIdx n }) e.flit else s
  | none => s

/-- Every flit of a message, or of its response, has been taken by its sink. -/
def State.arrived (s : State) (msg : Nat) (reply : Bool) : Bool :=
  let mine : Flit → Bool := fun f => f.msg = msg && f.reply = reply
  !(s.flits.any mine || s.stations.any fun k => k.2.queue.any mine || k.2.esc.any fun e => e.held && k.1 != 9 && mine e.flit)

end Sys2Proof.Machine
end

