-- ==== Sys2Proof/Machine/Fabric.lean ====
section
/-!
DEFINITION. The fabric messages of contexts (R357, R364, R372-R379), and what comes over the rack ring (R363-R371): the steps FLIT_ARRIVAL,
FABRIC_MESSAGE_SEND, FABRIC_ACCESS_PERFORM, FABRIC_MESSAGE_DELIVERY, FABRIC_RESPONSE and SPILL_WRITE.
-/

namespace Sys2Proof.Machine

/-! ## Messages (R372-R379) -/

/-- The fields of a header that say where a message goes (R372). -/
def fabTier (h : Word) : Nat := (h.extractLsb' 58 2).toNat
def fabAck (h : Word) : Bool := h.getLsbD 57
def fabTag (h : Word) : Nat := (h.extractLsb' 32 14).toNat
def fabMod (h : Word) : Nat := (h.extractLsb' 26 6).toNat
def fabCore (h : Word) : Nat := (h.extractLsb' 16 10).toNat
def fabCtx (h : Word) : Nat := (h.extractLsb' 14 2).toNat

/-- A response's header (R376). -/
def respWord (kind status n tag party : Nat) : Word :=
  BitVec.ofNat 64 (kind * 2 ^ 60 + status % 8 * 2 ^ 57 + n % 32 * 2 ^ 51 + tag * 2 ^ 32 + party * 2 ^ 14)

/-- Response words that a header's message reserves (R373). -/
def fabRoom (h : Word) : Nat := match fabKind h with | 1 => 1 + fabN h | 3 => 2 | _ => 1

/-- A message whose fields and address are malformed (R374). -/
def fabBad (h : Word) (ws : List Word) : Bool :=
  let k := fabKind h
  let a := (ws.headD 0).toNat % 2 ^ 48
  let n := fabSize h
  3 < k || fabTier h = 3 || 8 < fabAop h || ((k = 1 || k = 2) && (fabN h = 0 || 4 < fabN h))
    || (k = 3 && fabAop h = 8 && h.getLsbD 50)
    || (k != 0 && (a % (if k = 3 then n else 8) != 0 || 32 < a % 32 + n))

/-- The head of a send FIFO (R374): nothing complete; an orphan word; an interrupted message of n words; or a message. -/
inductive SendHead where
  | wait
  | orphan
  | broken (h : Word) (n : Nat)
  | whole (h : Word) (ws : List SendWord)

/-- The head of a send FIFO. -/
def sendHead : List SendWord → SendHead
  | [] => .wait
  | h :: rest =>
    if !h.isHeader then .orphan
    else
      let ws := rest.takeWhile fun w => !w.isHeader
      if fabWords h.word ≤ ws.length then .whole h.word (ws.take (fabWords h.word))
      else if ws.length < rest.length then .broken h.word (1 + ws.length)
      else .wait

/-- Words that a receive FIFO can still take, those reserved apart (R372, R374). -/
def Ctx.recvRoom (t : Ctx) : Nat := 128 - (t.recvF.length + t.recvRes)

/-- Words enter a receive FIFO. -/
def Ctx.receive (t : Ctx) (ws : List Word) : Ctx := { t with recvF := t.recvF ++ ws }

/-- The station at which a message's access is performed, or its addressee's (R380). -/
def State.fabStation (s : State) (m : FabricMsg) : Nat :=
  if fabKind m.header = 0 then (if fabMod m.header = s.mod then fabCore m.header / 128 else 8)
  else
    match m.locs.head? with
    | none => 8
    | some (.phys pa) => s.stationOf pa
    | some (.page p o h d r) => (s.homeOf (.page p o h d r)).getD d

/-- The station of a message's sender, or by which it came (R380). -/
def State.fromStation (_ : State) (m : FabricMsg) : Nat := if m.away.isSome then 8 else dieOf m.core

/-- The first physical address of a message's access. -/
def State.fabPa (s : State) (m : FabricMsg) : Nat := ((m.locs.head?).bind s.resolve).getD 0

/-- The payload of a memory request or reply for n bytes from an address on (R364), of which those given are its data. -/
def memWords (pa n : Nat) (bs : List Byte) : List Word := cellWords pa ((List.range n).map fun j => (pa + j, bs.getD j 0))

/-- The bytes of words. -/
def bytesOf (ws : List Word) : List Byte := ws.flatMap fun w => natBytes 8 w.toNat

/-- The words that travel with a message: those of a memory request, or the message's own (R364). A store's data and an atomic's operand lie
at the address, and the second operand of amocas follows the first (log 34). -/
def State.requestWords (s : State) (m : FabricMsg) : List Word :=
  let n := m.locs.length
  match fabKind m.header with
  | 0 => m.header :: m.words
  | 1 => memWords (s.fabPa m) n []
  | 2 => memWords (s.fabPa m) n ((bytesOf (m.words.drop 1)).take n)
  | _ => memWords (s.fabPa m) n ((m.words.drop 1).flatMap fun w => natBytes n w.toNat)

/-- The words that travel with the response of a message: a memory reply's, whose data are those of the response, or the response's own
(R364, R376). -/
def State.replyWords (s : State) (m : FabricMsg) (ws : List Word) : List Word :=
  if fabKind m.header = 0 then ws else memWords (s.fabPa m) m.locs.length ((bytesOf (ws.drop 1)).take m.locs.length)

/-- The fields that every flit of a message to its addressee has, from a station of the package ring on (R364). -/
def State.fabFlit (s : State) (m : FabricMsg) (src : Nat) : Flit :=
  let own := fabKind m.header = 0
  let dmod := if own then fabMod m.header else paMod (s.fabPa m)
  { msg := m.id, src := src, dst := s.fabStation m, reply := false, tier := fabTier m.header, dir := false, seq := 0, head := true, tail := true, words := []
    smod := m.away.getD s.mod, ssta := dieOf m.core, sunit := m.core, mid := m.mid, dmod := dmod
    dsta := if own then fabCore m.header / 128 else if paMod (s.fabPa m) = s.mod then s.fabStation m else if paRegion (s.fabPa m) = 0 then paDie (s.fabPa m) else 8
    dunit := if own then fabCore m.header else 0x3FF, dctx := if own then fabCtx m.header else 0 }

/-- FABRIC_MESSAGE_SEND (R374): the head of a context's send FIFO leaves once its response words are reserved; a malformed message is
answered at once. -/
def execFabricMessageSend (s : State) : Host.Outcome State Fault Refusal :=
  let c := s.focus.c
  let x := s.focus.x
  let t := s.ctx c x
  let bad : Word → Nat → State := fun h n =>
    if t.recvRoom = 0 then s
    else s.updCtx c x fun t => { t with sendF := t.sendF.drop n }.receive [respWord 6 3 0 (fabTag h) 0]
  .next (match t.worker, sendHead t.sendF with
    | none, _ => s
    | _, .wait => s
    | _, .orphan => s.updCtx c x fun t => { t with sendF := t.sendF.drop 1 }
    | _, .broken h n => bad h n
    | some w, .whole h ws =>
      let words := ws.map (·.word)
      if fabBad h words then bad h (1 + ws.length)
      else if t.recvRoom < fabRoom h then s
      else
        let m : FabricMsg := { id := s.nextId, uid := w.uid, vi := w.vi, core := c, ctx := x, header := h, words := words
                               locs := ws.flatMap (·.loc), room := fabRoom h, mid := (s.core c).sent % 256 }
        let s := s.updCtx c x fun t =>
          { t with sendF := t.sendF.drop (1 + ws.length), recvRes := t.recvRes + m.room, owed := t.owed + 1 }
        let s : State := { s.countSent (dieOf c) c with fabric := s.fabric ++ [m], nextId := s.nextId + 1 }
        s.inject (s.fabFlit m (dieOf c)) (s.requestWords m))

/-- A message is answered: the words of its response travel back, to the sender's port or out of the module. -/
def State.answer (s : State) (i : Nat) (m : FabricMsg) (ws : List Word) : State :=
  let st := s.fabStation m
  let own := fabKind m.header = 0
  let f : Flit := { msg := m.id, src := st, dst := s.fromStation m, reply := true, tier := 0, dir := false, seq := 0, head := true, tail := true, words := []
                    smod := s.mod, ssta := st, sunit := if own then fabCore m.header else 0x3FF
                    mid := s.sentBy st (if own then fabCore m.header else 0x3FF) % 256
                    dmod := m.away.getD s.mod, dsta := dieOf m.core, dunit := m.core, dctx := m.ctx }
  let s : State := { s.countSent f.ssta f.sunit with fabric := s.fabric.set i { m with resp := some ws } }
  s.inject f (s.replyWords m ws)

/-- An error response (R376). -/
def State.refuseMsg (s : State) (i : Nat) (m : FabricMsg) (status : Nat) : State :=
  s.answer i m [respWord 6 status 0 (fabTag m.header) 0]

/-- A success without data: an acknowledgement, or nothing but a freed word. -/
def State.ackMsg (s : State) (i : Nat) (m : FabricMsg) : State :=
  s.answer i m (if fabAck m.header then [respWord 5 0 0 (fabTag m.header) 0] else [])

/-- Memory backs a byte that a collective or another module writes (R182, R183, R385). -/
def State.backed (s : State) (pa : Nat) : Bool :=
  s.reachable (paMod pa) && match paRegion pa with
    | 0 => pa / 2 ^ 40 % 2 ^ 8 = 0 && pa % 2 ^ 37 < hbmEnd
    | 1 => pa / 2 ^ 21 % 2 ^ 17 = 0
    | 2 => pa % 2 ^ 48 < 2 ^ 44
    | _ => false

/-- A write at the home that touches no remote-data cache (R377). -/
def State.barePut (s : State) (cells : List (Nat × Byte)) : State := ({ s with mem := memPut s.mem cells } : State).dirtyFrames (cells.map (·.1))

/-- The atomic operations by number (R372). -/
def aopOf : Nat → AmoOp
  | 0 => .add
  | 1 => .min
  | 2 => .max
  | 3 => .and
  | 4 => .or
  | 5 => .xor
  | 6 => .swp
  | 7 => .cas
  | _ => .fadd

/-- A load, store or atomic performed at its bytes. -/
def State.fabDo (s : State) (i : Nat) (m : FabricMsg) (pas : List Nat) : State :=
  let s := s.correct pas
  let tag := fabTag m.header
  let old := bytesNat (pas.map fun a => memGet s.mem a)
  let put : Nat → State := fun v => s.barePut ((pas.zip (natBytes pas.length v)))
  match fabKind m.header with
  | 1 => s.answer i m (respWord 4 0 (fabN m.header) tag 0 :: (List.range (fabN m.header)).map fun j => BitVec.ofNat 64 (old >>> (64 * j)))
  | 2 => (put (bytesNat ((m.words.drop 1).flatMap fun w => natBytes 8 w.toNat))).ackMsg i m
  | _ =>
    let b := 8 * pas.length
    let op := aopOf (fabAop m.header)
    let a := (m.words.getD 1 0).toNat % 2 ^ b
    let d := if op = .cas then (m.words.getD 2 0).toNat % 2 ^ b else a
    let s := match amoNew op pas.length old a d with | some v => put v | none => s
    s.answer i m [respWord 4 0 1 tag 0, BitVec.ofNat 64 old]

/-- FABRIC_ACCESS_PERFORM (R377): message i is performed, or its failure is answered. -/
def execFabricAccessPerform (s : State) : Host.Outcome State Fault Refusal :=
  let i := s.focus.i
  .next (match s.fabric[i]? with
    | none => s
    | some m =>
      if fabKind m.header = 0 || m.resp.isSome || !s.arrived m.id false then s
      else
        match collect (m.locs.map fun l => s.place (some l)) with
        | .error .resid => (m.locs.foldl (fun (s : State) l => match s.place (some l) with | .error .resid => s.startFill (dieOf m.core) l | _ => s) s).refuseMsg i m 1
        | .error .eccu => s.refuseMsg i m 2
        | .error _ => s.refuseMsg i m 4
        | .ok pas => if pas.any s.isBad then s.refuseMsg i m 2 else s.fabDo i m pas)

/-- The words of a received message (R376): the sender's place is in its header. -/
def State.messageWords (s : State) (m : FabricMsg) : List Word :=
  respWord 0 0 m.words.length (fabTag m.header) (m.away.getD s.mod * 2 ^ 12 + m.core * 4 + m.ctx) :: m.words

/-- Arrivals for the worker of an image go to its spill area (R357). -/
def Image.spills (i : Image) : Bool := i.saved.isSome || i.fresh

/-- The saved worker that a message to a core and context is for (R357): the one that is being restored there, or that was saved there. -/
def State.savedAt (s : State) (m : FabricMsg) : Option Nat :=
  let held : Image → Bool := fun i => i.spills && i.vi = m.vi
  (s.images.findIdx? fun i => held i && (s.ctx (fabCore m.header) (fabCtx m.header)).isWorker i.uid).or
    (s.images.findIdx? fun i => held i && !i.fresh && i.core = fabCore m.header && i.x = fabCtx m.header)

/-- A context holds a worker of a message's interface that is not being restored, and has issued a bundle since it was. -/
def State.addressee (s : State) (m : FabricMsg) : Bool :=
  match (s.ctx (fabCore m.header) (fabCtx m.header)).worker with
  | some w => w.vi = m.vi && !(s.images.any fun i => i.uid = w.uid && i.spills)
  | none => false

/-! ## FLIT_ARRIVAL (R368, R378) -/

/-- A message of another module's context whose last flit has come goes on over the package ring (R365, R378). -/
def State.inboundDone (s : State) (m : Inbound) (v : Nat) : State :=
  let h := m.words.headD 0
  let f : FabricMsg := { id := s.nextId, uid := 0, vi := v, core := m.first.sunit, ctx := m.first.dctx, header := h, words := (m.words.drop 1).take (fabN h)
                         locs := [], room := 1, mid := m.first.mid, away := some m.first.smod }
  let s : State := { s with fabric := s.fabric ++ [f], nextId := s.nextId + 1, inbound := s.inbound.filter fun n => n != m }
  s.inject { s.fabFlit f 8 with slot := m.first.slot } (s.requestWords f)

/-- A memory request of another module for this one's memory (R364, R380): the bytes of a tier-1 one are written at their home, which no die's
remote-data cache notices (R193). What one of tier 0 asks for, the flit does not say and op does (log 74): 1 a context's release of a sync object, 2 an
engine's, 3 an arrival at a barrier object, and else a read. -/
def State.rackRequest (s : State) (f : Flit) (x op : Nat) : State :=
  let cells := maskCells f.words
  let obj := (f.words.getD 0 0).toNat % 2 ^ 56
  let w : Word := BitVec.ofNat 64 (memNat s.mem obj 8)
  if f.tier = 1 then if cells.all fun p => paMod p.1 = s.mod && s.backed p.1 then s.barePut cells else s
  else if f.tier != 0 || paMod obj != s.mod || !s.backed obj then s
  else
    match op with
    | 1 => s.relObject (eccDie obj) obj (objHeld w && objOwn w f.smod f.sunit x = w)
    | 2 => s.relObject (eccDie obj) obj false
    | 3 => s.barPost obj .arrive
    | _ => s

/-- A flit of the rack ring is taken by this module (R364, R365): a memory request is performed, and a message's words are collected; v is its
sender's interface, x the sender's context, and op the operation, which the route field does not give (log 74). What a reply is to, its own step
says. -/
def State.rackTaken (s : State) (f : Flit) (v x op : Nat) : State :=
  if f.reply then s
  else if f.dunit = 0x3FF then s.rackRequest f x op
  else
    let mine : Inbound → Bool := fun m => m.first.smod = f.smod && m.first.ssta = f.ssta && m.first.sunit = f.sunit && m.first.mid = f.mid
    let s : State :=
      if f.head then { s with inbound := s.inbound.filter (fun m => !mine m) ++ [{ first := { f with dctx := x }, words := f.words }] }
      else { s with inbound := s.inbound.map fun m => if mine m then { m with words := m.words ++ f.words } else m }
    if f.tail then (match s.inbound.find? mine with | some m => s.inboundDone m v | none => s) else s

/-- A flit that comes round the rack ring as this module's station knows it (R368, R369): one that has been refused without a reservation is
counted in U, and one with a reservation is as its escape entry says. -/
def Station.returning (k : Station) (f : Flit) : Flit :=
  match k.esc.find? fun e => !e.held && e.flit.same f with
  | some e => { f with esc := true, counted := e.flit.counted }
  | none => { f with esc := false, counted := f.lap && !f.esc }

/-- A flit of the rack ring reaches this module's station (R363, R365, R368-R370), which has room for it, or refuses it as a station of the package
ring does: it then goes on round the rack ring, which is outside. A reply to the Bivouac die is always taken. -/
def State.rackArrives (s : State) (f : Flit) (room : Bool) (v x op : Nat) : State :=
  if f.dmod != s.mod || !s.rctl.up then s
  else
    let k := s.station 9
    let (k', o) := k.arrive (k.returning f) (room || (f.reply && f.dsta = 8))
    let s := s.updStation 9 fun _ => k'
    if o = .taken then s.rackTaken f v x op else s

/-- FLIT_ARRIVAL (R368): flit i of the package ring reaches its station, whose buffer has room when k is not 0; or, with o = 1, escape entry k of
station i drains; or, with o = 2, the flit w comes over the rack ring to the station, which has room when k is not 0. -/
def execFlitArrival (s : State) : Host.Outcome State Fault Refusal :=
  let sink : State → Flit → State := fun s f =>
    if s.focus.i = 9 then s.rackTaken f (s.focus.v % 64) (s.focus.x % 4) s.focus.d else s.leavesRing f
  .next (match s.focus.o with
    | 1 => s.escDrains s.focus.i s.focus.k sink
    | 2 => s.rackArrives (Flit.ofBits s.focus.w) (s.focus.k != 0) (s.focus.v % 64) (s.focus.x % 4) s.focus.d
    | _ => s.flitArrives s.focus.i (s.focus.k != 0))

/-- FABRIC_MESSAGE_DELIVERY (R378): message i reaches its addressee, or is discarded. What becomes of a message to another module is the
answer k of that module: 0, 4 or 5. -/
def execFabricMessageDelivery (s : State) : Host.Outcome State Fault Refusal :=
  let i := s.focus.i
  .next (match s.fabric[i]? with
    | none => s
    | some m =>
      let h := m.header
      if fabKind h != 0 || m.resp.isSome || !s.arrived m.id false then s
      else if fabMod h != s.mod then
        if !s.reachable (fabMod h) then s.refuseMsg i m 4
        else if s.focus.k = 0 then s.ackMsg i m
        else s.refuseMsg i m (if s.focus.k = 5 then 5 else 4)
      else if s.addressee m then
        if (s.ctx (fabCore h) (fabCtx h)).recvRoom < m.words.length + 1 then s.refuseMsg i m 5
        else ((s.updCtx (fabCore h) (fabCtx h) fun t => t.receive (s.messageWords m)).ackMsg i m)
      else if (s.savedAt m).isSome then s
      else s.refuseMsg i m 4)

/-- A message is over. -/
def State.dropMsg (s : State) (i : Nat) : State := { s with fabric := s.fabric.eraseIdx i }

/-- A saved worker's image by its number. -/
def State.savedImage (s : State) (uid : Nat) : Option Nat := s.images.findIdx? fun i => i.uid = uid && i.spills

/-- FABRIC_RESPONSE (R376): the response of message i lands in its reserved words; that of an ended worker is dropped. -/
def execFabricResponse (s : State) : Host.Outcome State Fault Refusal :=
  let i := s.focus.i
  .next (match s.fabric[i]? with
    | none => s
    | some m =>
      match m.resp with
      | none => s
      | some ws =>
        if !s.arrived m.id true then s
        else if m.away.isSome then s.dropMsg i
        else if (s.savedImage m.uid).isSome then s
        else
          match s.place? m.uid with
          | some (c, x) => (s.updCtx c x fun t => { t.receive ws with recvRes := t.recvRes - m.room, owed := t.owed - 1 }).dropMsg i
          | none => s.dropMsg i)

/-! ## The spill area (R357) -/

/-- Words of a spill area go on to the FIFO of a worker that has been restored (R357). -/
def State.replay (s : State) (i : Image) (ws : List Word) (freed : Nat) : State :=
  match if i.fresh then s.place? i.uid else none with
  | some (c, x) => s.updCtx c x fun t => { t.receive ws with recvRes := t.recvRes - freed, owed := if freed = 0 then t.owed else t.owed - 1 }
  | none => s

/-- Words are appended to an image's spill area, whose flits its header counts (R355). -/
def State.spill (s : State) (n : Nat) (ws : List Word) (freed : Nat) : State :=
  match s.images[n]? with
  | none => s
  | some i =>
    let base := s.imageBase i
    let flits := (i.spill.length + ws.length + 7) / 8
    let counts := memNat s.mem (base + 0x40) 8
    let mem := memWrite s.mem (base + 0xBA00 + 8 * i.spill.length) (ws.flatMap wordBytes)
    { s.replay i ws freed with
             images := s.images.set n { i with spill := i.spill ++ ws, owed := i.owed - freed }
             mem := memWrite mem (base + 0x40) (natBytes 8 (counts % 2 ^ 34 + flits % 2 ^ 8 * 2 ^ 34 + counts / 2 ^ 42 * 2 ^ 42)) }

/-- The port of the core where a worker was saved forwards a message for it to the memory that holds its image, with the image slot in the
flits' slot field (R357, R364); within the die there is no way to go. -/
def State.forward (s : State) (k : Nat) (m : FabricMsg) (i : Image) : State :=
  let f := s.fabFlit m (fabCore m.header / 128)
  let s : State := { s with fabric := s.fabric.set k { m with fwd := some i.slot } }
  s.inject { f with dst := paDie (s.imageBase i), dsta := paDie (s.imageBase i), dunit := 0x3FF, slot := i.slot } (s.requestWords m)

/-- A message reaches the spill area of a saved worker (R357, R378): it is forwarded there, then written, or refused for want of room. -/
def State.spillMessage (s : State) (i : Nat) (m : FabricMsg) (n : Nat) : State :=
  match s.images[n]? with
  | none => s
  | some im =>
    if m.fwd != some im.slot && paDie (s.imageBase im) != fabCore m.header / 128 then s.forward i m im
    else if 1024 < im.spill.length + im.owed + m.words.length + 1 then s.refuseMsg i m 5
    else (s.spill n (s.messageWords m) 0).ackMsg i m

/-- SPILL_WRITE (R357): message i, or its response, reaches a worker that is saved: in the room reserved, or where room is left for it. -/
def execSpillWrite (s : State) : Host.Outcome State Fault Refusal :=
  let i := s.focus.i
  .next (match s.fabric[i]? with
    | none => s
    | some m =>
      match m.resp with
      | some ws =>
        match s.savedImage m.uid with
        | some n => if s.arrived m.id true && m.away.isNone then (s.spill n ws m.room).dropMsg i else s
        | none => s
      | none =>
        if fabKind m.header != 0 || fabMod m.header != s.mod || !s.arrived m.id false || s.addressee m then s
        else
          match s.savedAt m with
          | none => s
          | some n => s.spillMessage i m n)

end Sys2Proof.Machine
end

