-- ==== Sys2Proof/Machine/Groups.lean ====
section
/-!
DEFINITION. Multicast and reduction on the Bivouac die (R382-R388): the steps MULTICAST_PACKET, REDUCTION_CONTRIBUTION and
REDUCTION_RETRY.
-/

namespace Sys2Proof.Machine

/-! ## Members (R383) -/

/-- The base and the scale base of member k of a group. -/
def State.member (s : State) (g : Group) (k : Nat) : Nat × Nat :=
  let b : BitVec 128 := BitVec.ofNat 128 (memNat s.mem (grpMtab g.raw + 16 * k) 16)
  ((b.extractLsb' 0 56).toNat, (b.extractLsb' 64 56).toNat)

/-- A packet's writes at a member. -/
def Packet.writesAt (p : Packet) (base scale : Nat) : List (Nat × Byte) :=
  p.cells.map (fun e => (base + e.1, e.2)) ++ p.scales.map fun e => (scale + e.1, e.2)

/-- Changes the commands that a packet is of. -/
def State.updCmds (s : State) (ids : List Nat) (f : State → Nat → CopyCmd → State) : State :=
  ids.foldl (fun (s : State) id => match s.cmdCore id with | some (c, m) => f s c m | none => s) s

/-- A packet's writes are all performed: its commands owe one less and count their bytes, and a reduction's storage is free again. -/
def State.packetDone (s : State) (i : Nat) (p : Packet) : State :=
  let s : State := { s with packets := s.packets.eraseIdx i
                            redUnits := match p.unit with | some u => s.redUnits.filter fun r => r.id != u | none => s.redUnits }
  s.updCmds p.cmds fun s c m =>
    (s.updCmd c m.id fun m => { m with owed := m.owed - 1 }).wrote c m (p.cells.length + p.scales.length) false

/-- The write of a packet at one member: a member that no memory backs is skipped (R385); the dies of the commands that it is of drop what their
remote-data caches hold of it (R205), and a release at scope 6 awaits the expander (R387). -/
def State.packetWrite (s : State) (p : Packet) (g : Group) (k : Nat) : State :=
  let (b, sc) := s.member g k
  let ws := p.writesAt b sc
  if ws.all fun w => s.backed w.1 then (s.barePut ws).updCmds p.cmds fun s c m => (s.updDie (dieOf c) fun d => d.dropSectors (ws.map (·.1))).viewTier (m.view c) ws
  else s.updCmds p.cmds fun s c m => s.cmdStatus c m .window

/-- MULTICAST_PACKET (R385, R388): packet i latches its group's entry when its head reaches the switch, and is written at member k. -/
def execMulticastPacket (s : State) : Host.Outcome State Fault Refusal :=
  let i := s.focus.i
  let k := s.focus.k
  .next (match s.packets[i]? with
    | none => s
    | some p =>
      let g := p.latched.getD (s.group p.group)
      let left := if p.latched.isSome then p.left else List.range (grpNmem g.raw)
      let p := { p with latched := some g, left := left.filter fun j => j != k }
      let s := if left.contains k then s.packetWrite p g k else s
      if p.left.isEmpty then s.packetDone i p else { s with packets := s.packets.set i p })

/-! ## Reduction (R386, R387) -/

/-- The elements of a contribution, as f32 codes (R386). -/
def Contribution.values (fmt : FmtCode) (k : Contribution) : List Nat :=
  let r : XR → Nat := fun x => (f32.round 0#2 0 x.toRV).bits
  let w := fmtWidth fmt
  (List.range (k.data.length * 8 / w)).map fun i =>
    let x := fmtDecode fmt (codeAt w k.data i)
    r (if w = 8 then scaleBy x k.scale.toNat else x)

/-- Two values combined (R386): a sum rounded to f32, or the lesser or greater by R57. -/
def combTwo (gop : Nat) (a b : Nat) : Nat :=
  match gop with
  | 1 => (f32.round 0#2 0 ((f32.decode a).add (f32.decode b)).toRV).bits
  | 2 => pickMin f32 a b
  | _ => pickMax f32 a b

/-- Neighbours combined: a last one without a neighbour stays. -/
def combPairs (gop : Nat) : List Nat → List Nat
  | a :: b :: l => combTwo gop a b :: combPairs gop l
  | l => l

/-- The tree over the contributions of an element. -/
def combTree (gop : Nat) : Nat → List Nat → Nat
  | 0, l => l.headD 0
  | n + 1, l => combTree gop n (combPairs gop l)

/-- Contributions in ascending id, those of one context as their commands were issued. -/
def byId (l : List Contribution) : List Contribution :=
  let le : Contribution → Contribution → Bool := fun a b => a.id < b.id || (a.id = b.id && a.order ≤ b.order)
  l.foldl (fun r k => r.filter (fun q => le q k) ++ k :: r.filter fun q => !le q k) []

/-- The result of a unit: its bytes, its scale, and whether it holds a NaN or an infinity. -/
def RedUnit.result (u : RedUnit) : List Byte × Option Byte × Bool :=
  let fmt := grpFmt u.latched.raw
  let vs := (byId u.got).map (Contribution.values fmt)
  let n := match vs with | v :: _ => v.length | [] => 0
  let ys := (List.range n).map fun i => combTree u.gop 14 (vs.map fun v => v.getD i 0)
  if fmtWidth fmt = 8 then
    let b := encodeBlock (ys.map f32.decode) fmt 0 0
    (packCodes 8 b.codes, some (BitVec.ofNat 8 b.scale), b.nfs)
  else
    let rs := ys.map fun y => roundFmt fmt 0 0 (f32.decode y).toRV
    (packCodes (fmtWidth fmt) (rs.map (·.bits)), none, rs.any (·.nfs))

/-- Bytes that the result of a contribution's unit has: as many as the contribution, with its scale. -/
def Contribution.bytes (k : Contribution) : Nat := if k.data.length = 64 then 65 else k.data.length

/-- Storage that a unit takes (R387). -/
def RedUnit.bytes (u : RedUnit) : Nat := 64 * grpNcon u.latched.raw

/-- A unit that has all its contributions is combined: its result goes to the members. -/
def State.combine (s : State) (u : RedUnit) : State :=
  if u.combined || u.got.length < grpNcon u.latched.raw then s
  else
    let (bs, sc, nf) := u.result
    let ids := u.got.map (·.cmd)
    let p : Packet :=
      { cmds := ids, group := u.group, cells := bs.zipIdx.map fun e => (u.offset + e.2, e.1)
        scales := match sc with | some b => [(u.offset / 64, b)] | none => []
        latched := some u.latched, left := List.range (grpNmem u.latched.raw), unit := some u.id }
    let s : State := { s with packets := s.packets ++ [p]
                              redUnits := s.redUnits.map fun r => if r.id = u.id then { r with combined := true } else r }
    s.updCmds ids fun s c m => s.updCmd c m.id fun m => { m with nf := m.nf || nf }

/-- The unit of this module's storage that a contribution belongs to: one that was latched, whatever the entry now is (R388). -/
def State.unitOf (s : State) (k : Contribution) : Option RedUnit :=
  s.redUnits.find? fun u => u.group = k.group && u.gop = k.gop && u.offset = k.offset && !u.combined

/-- A contribution is taken at this module's root (R386, R387): it joins its unit, or opens one; none where there is no storage for it. -/
def State.takeContribution (s : State) (k : Contribution) : Option State :=
  match s.unitOf k with
  | some u =>
    let u' := { u with got := u.got ++ [k] }
    some (({ s with redUnits := s.redUnits.map fun r => if r.id = u.id then u' else r } : State).combine u')
  | none =>
    let u : RedUnit := { id := s.nextId, group := k.group, gop := k.gop, offset := k.offset, latched := s.group k.group, got := [k] }
    if 2 ^ 24 < (s.redUnits.map RedUnit.bytes).sum + u.bytes then none
    else some (({ s with redUnits := s.redUnits ++ [u], nextId := s.nextId + 1 } : State).combine u)

/-- The root answers a contribution with "retry": it may be sent again after 256 clk (R387). -/
def State.retryContrib (s : State) (i : Nat) (k : Contribution) : State :=
  { s with contribs := s.contribs.set i { k with refused := true, retryAt := s.clk + 256, away := false } }

/-- A contribution reaches this module's root: it is taken, or refused. -/
def State.contribute (s : State) (i : Nat) (k : Contribution) : State :=
  (({ s with contribs := s.contribs.eraseIdx i } : State).takeContribution k).getD (s.retryContrib i k)

/-- What the root in another module answers a contribution (R386, R387): 1 retry; 2, and 3 with a NaN or infinity, that the result is performed at
every member; 4 that it was not. -/
def State.contribAnswer (s : State) (i : Nat) (k : Contribution) (ans : Nat) : State :=
  let done : State := { s with contribs := s.contribs.eraseIdx i }
  let fin : (State → Nat → CopyCmd → State) → State := fun f =>
    done.updCmds [k.cmd] fun s c m => f (s.updCmd c m.id fun m => { m with owed := m.owed - 1 }) c m
  match ans with
  | 1 => s.retryContrib i k
  | 2 => fin fun s c m => s.wrote c m k.bytes false
  | 3 => fin fun s c m => s.wrote c m k.bytes true
  | 4 => fin fun s c m => s.cmdStatus c m .window
  | _ => s

/-- A contribution of another module's command comes to this module's root (R386): from module d - 1, its core c and context x, to group i with
operation k at offset o; its elements are the first bytes of w, and v its scale. -/
def State.contribComes (s : State) (f : Focus) : State :=
  let n := if fmtWidth (grpFmt (s.group f.i).raw) = 8 then 64 else 32
  let k : Contribution :=
    { cmd := 0, id := ((f.d - 1) % 64 * 1024 + f.c % 1024) * 4 + f.x % 4, order := s.nextId, group := f.i, gop := f.k, offset := f.o
      data := natBytes n f.w.toNat, scale := BitVec.ofNat 8 f.v }
  let g := (s.group f.i).raw
  if (s.unitOf k).isSome || (grpValid g && grpRed g && grpRoot g = s.mod) then (s.takeContribution k).getD s else s

/-- A contribution whose root cannot be reached ends its command with status 4 (R363). -/
def State.contribLost (s : State) (i : Nat) (k : Contribution) : State :=
  ({ s with contribs := s.contribs.eraseIdx i } : State).updCmds [k.cmd] fun s c m =>
    (s.updCmd c m.id fun m => { m with owed := m.owed - 1 }).cmdStatus c m .window

/-- Contribution i of this module's arrives at its root (R386, R388): that of the unit which was latched here, or the one that the entry names, in
this module or another, whose answer is given. -/
def State.contribArrives (s : State) (i ans : Nat) : State :=
  match s.contribs[i]? with
  | none => s
  | some k =>
    let root := grpRoot (s.group k.group).raw
    if k.refused then s
    else if k.away then s.contribAnswer i k ans
    else if (s.unitOf k).isSome || root = s.mod then s.contribute i k
    else if s.reachable root then { s with contribs := s.contribs.set i { k with away := true } }
    else s.contribLost i k

/-- REDUCTION_CONTRIBUTION (R386): contribution i goes to its root, whose answer, where that is in another module, is k; or, with d not 0, one comes from
module d - 1. -/
def execReductionContribution (s : State) : Host.Outcome State Fault Refusal :=
  .next (if s.focus.d = 0 then s.contribArrives s.focus.i s.focus.k else s.contribComes s.focus)

/-- REDUCTION_RETRY (R387): a refused contribution is sent again, after 256 clk. -/
def execReductionRetry (s : State) : Host.Outcome State Fault Refusal :=
  .next (match s.contribs[s.focus.i]? with
    | some k => if k.refused && k.retryAt ≤ s.clk then { s with contribs := s.contribs.set s.focus.i { k with refused := false } } else s
    | none => s)

/-- The rw bit of a group (R388): packets or units latched on an earlier value are still under way. -/
def State.groupRw (s : State) (i : Nat) : Bool :=
  let old : Option Group → Bool := fun o => match o with | some g => g.gen < (s.group i).gen | none => false
  (s.packets.any fun p => p.group = i && old p.latched) || s.redUnits.any fun u => u.group = i && old (some u.latched)

end Sys2Proof.Machine
end

