-- ==== Sys2Proof/Machine/HostIf.lean ====
section
/-!
DEFINITION. What the host and the management controller do (R394-R403): register writes, launch packets and their bodies, tables of the
Bivouac die, violations and resets, Ultra Ethernet, temperature, and the resets of the module.
-/

namespace Sys2Proof.Machine

/-! ## The control and mailbox region (R394) -/

/-- Where an offset of the control and mailbox region lies. -/
inductive Place where
  | vi (v o : Nat)
  | dseed (d : Nat)
  | clim (c : Nat)
  | rctl
  | slot (i : Nat) (high : Bool)
  | ue (v o : Nat)
  | reserved
deriving DecidableEq, Repr

/-- The registers without a row of their own, by offset. -/
def placeOf (o : Nat) : Place :=
  if o < 0x40_0000 then .vi (o / 0x10000) (o % 0x10000)
  else if 0x1_0000_0000 ≤ o && o < 0x1_0000_8000 && o % 0x1000 = 0 then .dseed ((o - 0x1_0000_0000) / 0x1000)
  else if 0x2_0000_0000 ≤ o && o < 0x2_0040_0000 && o % 0x1000 = 0 then .clim ((o - 0x2_0000_0000) / 0x1000)
  else if o = 0x3_0000_0000 then .rctl
  else if 0x3_0010_0000 ≤ o && o < 0x3_0010_1000 && o % 8 = 0 then .slot ((o - 0x3_0010_0000) / 16) (o % 16 = 8)
  else if 0x3_0020_0000 ≤ o && o < 0x3_0020_4000 then .ue ((o - 0x3_0020_0000) / 0x100) (o % 0x100)
  else .reserved

/-- A field of a word. -/
def wField (w : Word) (lo n : Nat) : Nat := (w.extractLsb' lo n).toNat

/-- The word of RCTL as written (R363). -/
def rctlOf (w : Word) : Rctl :=
  { s2 := w.extractLsb' 48 16, s1 := w.extractLsb' 32 16, up := w.getLsbD 16, nmod := w.extractLsb' 8 6, mod := w.extractLsb' 0 6 }

/-- A half of a 128-bit register replaced. -/
def setHalf (b : BitVec 128) (high : Bool) (w : Word) : BitVec 128 :=
  if high then w ++ b.extractLsb' 0 64 else b.extractLsb' 64 64 ++ w

/-- A write of CLIM (R180): what firmware last wrote is kept for R403. -/
def Core.setClim (k : Core) (w : Word) : Core :=
  { k.putClim (w.getLsbD 16) (wField w 0 16) with climSet := (w.getLsbD 16, wField w 0 16) }

/-! ## VI pages (R395, R396) -/

/-- The registers of a VI page that a virtual function writes. -/
def VI.writeOpen (k : VI) (o : Nat) (w : Word) : VI :=
  match o with
  | 0x020 => { k with elbase := w &&& ~~~0xFFF#64 }
  | 0x028 =>
    let n := wField w 0 5
    if n = 0 || (6 ≤ n && n ≤ 20) then { k with elsize := w.extractLsb' 0 5 } else k
  | 0x218 => { k with sseed := w }
  | _ => k

/-- The limits of a watchdog as written (R177): they are compared from the next clk on. -/
def Watchdog.limits (d : Watchdog) (w : Word) : Watchdog :=
  { d with l1 := wField w 0 20, l2 := wField w 20 20, l3 := wField w 40 20, was := some d.lims }

/-- The registers of a VI page that only the physical function writes, VICTL.reset apart. -/
def VI.writePf (k : VI) (o : Nat) (w : Word) : VI :=
  if o = 0x000 then { k with en := w.getLsbD 0, debug := w.getLsbD 2 }
  else if 0x100 ≤ o && o < 0x200 then
    if o % 16 = 0 then { k with wd := tset k.wd ((o - 0x100) / 16) ((k.dog ((o - 0x100) / 16)).limits w) } else k
  else if o = 0x200 then { k with crange := (wField w 0 12, wField w 16 13) }
  else if o = 0x208 then { k with lrange := (wField w 0 13, wField w 16 14) }
  else if o = 0x210 then { k with spool := (wField w 0 38, wField w 48 16) }
  else if 0x220 ≤ o && o < 0x260 && o % 8 = 0 then
    let i := (o - 0x220) / 16
    { k with part := tset k.part i (setHalf (tget 0 k.part i) (o % 16 = 8) w
        &&& (BitVec.ofNat 128 ((2 ^ 35 - 1) * 2 ^ 64 + (2 ^ 35 - 1) * 2 ^ 21))) }
  else k

/-! ## Resets of an interface (R400) -/

/-- The workers of an interface are killed (R349, R350): one in the system context when that handler returns. -/
def State.killVI (s : State) (v : Nat) : State :=
  let s : State := { s with launches := s.launches.map fun l => if l.vi = v then { l with killed := Nat.max l.killed 1 } else l }
  s.requestKill (fun w => w.vi = v) 1

/-- A reset of an interface starts: it freezes without a violation, its workers are killed, its queues emptied; it ends when its last
launch has, at the end of a clk, so that a packet of the clk in which it starts comes to it (R397). -/
def State.resetVI (s : State) (v : Nat) : State :=
  if (s.vi v).resetting then s
  else
    let s := if (s.vi v).frozen then s else s.freeze v
    let s := (s.updVI v fun k => { k with resetting := true }).killVI v
    { s with launchQ := s.launchQ.map fun q => if q.1 / 16 = v then (q.1, []) else q }

/-- VI_RESET (R400). -/
def execViReset (s : State) : Host.Outcome State Fault Refusal := .next (s.resetVI (s.focus.v % 64))

/-- Violation k of interface v can be (R399): 1 an access through a virtual function outside its map, 2 a host-memory access that ends in an error, or
3 a window of one of its launches outside its PART ranges. -/
def State.violates (s : State) (v k : Nat) : Bool :=
  match k with
  | 1 => v != 0
  | 2 => true
  | 3 => s.launches.any fun l => l.vi = v && (s.launchWins l).any (s.outsidePart v)
  | _ => false

/-- TENANT_VIOLATION (R399): violation k of an interface. -/
def execTenantViolation (s : State) : Host.Outcome State Fault Refusal :=
  let v := s.focus.v % 64
  .next (if s.violates v s.focus.k then s.violate v s.focus.k else s)

/-! ## Register writes (R4, R394, R395) -/

/-- A refused packet (R397). -/
def State.refusePacket (s : State) (v queue code : Nat) (seq : BitVec 32) : State :=
  s.logEvent v { kind := 2, code := code, queue := queue, lseq := seq }

/-- A write at an offset of a VI page: pf says that the physical function makes it. -/
def State.writePage (s : State) (v o : Nat) (w : Word) (pf : Bool) : State :=
  if 0x8000 ≤ o && o < 0x9000 then s.refusePacket v (wField w 32 4) 1 (w.truncate 32)
  else if pf && o = 0 && w.getLsbD 3 then (s.updVI v fun k => k.writePf o w).resetVI v
  else if pf then s.updVI v fun k => (k.writePf o w).writeOpen o w
  else s.updVI v fun k => k.writeOpen o w

/-- A register write of the host through the function of interface v (R394, R399). -/
def State.writeReg (s : State) (v o : Nat) (w : Word) : State :=
  if v != 0 then if o < 0x10000 then s.writePage v o w false else s.violate v 1
  else
    match placeOf o with
    | .vi u o => s.writePage u o w true
    | .dseed d => if w = 0 then s else s.updDie d fun k => { k with dseed := w }
    | .clim c => s.updCore c fun k => k.setClim w
    | .rctl => { s with rctlNext := some (s.clk / 2, rctlOf w) }
    | .slot i h =>
      { s with slots := tset s.slots i (setHalf (tget 0 s.slots i) h w
          &&& (BitVec.ofNat 128 ((2 ^ 40 - 1) * 2 ^ 64 + 2 ^ 62 - 1))) }
    | .ue u o =>
      let k : UeQueue := tget {} s.ueq u
      if o = 0 then { s with ueq := tset s.ueq u { k with base := w } }
      else if o = 8 then { s with ueq := tset s.ueq u { k with size := wField w 0 6 } }
      else s
    | .reserved => s

/-- The physical function of another module writes that module's RCTL: of the registers there, its up bit alone matters here (R363). -/
def State.peerWrite (s : State) (m o : Nat) (w : Word) : State :=
  if placeOf o = .rctl && m != s.mod && m < 64 then
    { s with peersUp := if w.getLsbD 16 then s.peersUp ||| (1#64 <<< m) else s.peersUp &&& ~~~(1#64 <<< m) }
  else s

/-- REGISTER_WRITE: the low 64 bits of w at offset o through the function of interface v; or, with d not 0, by the physical function of module
d - 1. -/
def execRegisterWrite (s : State) : Host.Outcome State Fault Refusal :=
  .next (if s.focus.d = 0 then s.writeReg (s.focus.v % 64) s.focus.o (s.focus.w.truncate 64)
    else s.peerWrite (s.focus.d - 1) s.focus.o (s.focus.w.truncate 64))

/-! ## Register reads (R4, R394) -/

/-- A register of a VI page as it reads (R177, R395, R396): the launch window reads zero. -/
def VI.read (k : VI) (o : Nat) : Word :=
  let pair : Nat × Nat → Nat → Word := fun p lo => BitVec.ofNat 64 (p.1 + p.2 * 2 ^ lo)
  let dog := k.dog ((o - 0x100) / 16)
  if o = 0x000 then
    BitVec.ofNat 64 (k.vcause.toNat * 2 ^ 8 + k.resetting.toNat * 2 ^ 3 + Bool.toNat k.debug * 2 ^ 2 + k.frozen.toNat * 2 + k.en.toNat)
  else if o = 0x008 then k.lseq.zeroExtend 64
  else if o = 0x010 then k.cseq.zeroExtend 64
  else if o = 0x018 then k.eseq.zeroExtend 64
  else if o = 0x020 then k.elbase
  else if o = 0x028 then k.elsize.zeroExtend 64
  else if 0x100 ≤ o && o < 0x200 then
    if o % 16 = 0 then BitVec.ofNat 64 (dog.l1 + dog.l2 * 2 ^ 20 + dog.l3 * 2 ^ 40) else if o % 16 = 8 then dog.stat else 0
  else if o = 0x200 then pair k.crange 16
  else if o = 0x208 then pair k.lrange 16
  else if o = 0x210 then pair k.spool 48
  else if o = 0x218 then k.sseed
  else if 0x220 ≤ o && o < 0x260 && o % 8 = 0 then
    (tget 0 k.part ((o - 0x220) / 16)).extractLsb' (if o % 16 = 8 then 64 else 0) 64
  else 0

/-- The word of RCTL as it reads (R363). -/
def Rctl.word (r : Rctl) : Word :=
  BitVec.ofNat 64 (r.s2.toNat * 2 ^ 48 + r.s1.toNat * 2 ^ 32 + r.up.toNat * 2 ^ 16 + r.nmod.toNat * 2 ^ 8 + r.mod.toNat)

/-- The tables of the Bivouac die as they read, by offset in the control and mailbox region (R282, R283, R314, R382, R403). -/
def State.readTable (s : State) (o : Nat) : Word :=
  let part : BitVec 256 → Word := fun b => b.extractLsb' (64 * (o / 8 % 4)) 64
  if o = 0x3_0000_0040 then s.temp.zeroExtend 64
  else if 0x3_0001_0000 ≤ o && o < 0x3_0001_8000 then (s.entry ((o - 0x3_0001_0000) / 8)).word
  else if 0x3_0001_8000 ≤ o && o < 0x3_0001_8040 then s.ladder ((o - 0x3_0001_8000) / 8)
  else if 0x3_0002_0000 ≤ o && o < 0x3_0006_0000 then
    let e := (o - 0x3_0002_0000) / 32
    part ((s.expert e).bits e)
  else if 0x3_0008_0000 ≤ o && o < 0x3_0008_8000 then
    let i := (o - 0x3_0008_0000) / 32
    part ((s.group i).raw ||| BitVec.ofNat 256 ((s.groupRw i).toNat * 2 ^ 165))
  else 0

/-- What a read of 8 bytes of the control and mailbox region gives the function of interface v (R394, R395): another function's register is not
there to be read, and its access a violation (TENANT_VIOLATION); what is reserved reads zero. -/
def State.readReg (s : State) (v o : Nat) : Word :=
  if v != 0 then if o < 0x10000 then (s.vi v).read o else 0
  else
    match placeOf o with
    | .vi u o => (s.vi u).read o
    | .dseed d => (s.die d).dseed
    | .clim c => BitVec.ofNat 64 ((s.core c).climEn.toNat * 2 ^ 16 + (s.core c).climLim)
    | .rctl => (match s.rctlNext with | some r => r.2 | none => s.rctl).word
    | .slot i h => (tget 0 s.slots i).extractLsb' (if h then 64 else 0) 64
    | .ue u o => let k : UeQueue := tget {} s.ueq u
      if o = 0 then k.base else if o = 8 then BitVec.ofNat 64 k.size else if o = 0x10 then BitVec.ofNat 64 k.prod else 0
    | .reserved => s.readTable o

/-- A write to the Compass, Larder or group page: only the physical function's map has them (R394). -/
def State.byPf (s : State) (f : State) : State := if s.focus.v % 64 = 0 then f else s.violate (s.focus.v % 64) 1

/-- COMPASS_ENTRY_WRITE (R282). -/
def execCompassEntryWrite (s : State) : Host.Outcome State Fault Refusal :=
  .next (s.byPf (s.entryWrite (s.focus.i % 4096) (s.focus.w.truncate 64)))

/-- LADDER_WRITE (R283). -/
def execLadderWrite (s : State) : Host.Outcome State Fault Refusal := .next (s.byPf (s.ladderWrite (s.focus.i % 8) (s.focus.w.truncate 64)))

/-- LARDER_ENTRY_WRITE (R316): entry i takes the bits of the focus. -/
def execLarderEntryWrite (s : State) : Host.Outcome State Fault Refusal :=
  .next (s.byPf (if s.focus.i < 8192 then s.larderWrite s.focus.i (s.focus.w.truncate 256) else s))

/-- GROUP_ENTRY_WRITE (R382, R388): entry i takes the bits of the focus, but for the reserved ones and rw. -/
def execGroupEntryWrite (s : State) : Host.Outcome State Fault Refusal :=
  let i := s.focus.i
  let raw : BitVec 256 := s.focus.w.truncate 256 &&& (BitVec.ofNat 256 ((2 ^ 92 - 1) * 2 ^ 164 - 2 ^ 165))
  .next (s.byPf (if i < 1024 then { s with groups := tset s.groups i { raw := raw, gen := (s.group i).gen + 1 } } else s))

/-! ## Launch packets (R397, R398) -/

/-- The first condition that a packet fails, by its code. -/
def State.packetCode (s : State) (v o : Nat) (w : BitVec 512) : Nat :=
  let k := s.vi v
  if o % 64 != 0 || 0x1000 ≤ o then 1
  else if !k.en || k.frozen || k.resetting then 2
  else if w.extractLsb' 0 32 != k.lseq + 1 then 3
  else if 64 ≤ s.queueFill (v * 16 + (w.extractLsb' 32 4).toNat) then 4
  else if w.extractLsb' 192 320 != 0 || w.extractLsb' 41 23 != 0 then 5
  else 0

/-- The launch of a packet, its body not read yet. -/
def State.packetLaunch (s : State) (v : Nat) (w : BitVec 512) : Launch :=
  { id := s.nextId, vi := v, queue := (w.extractLsb' 32 4).toNat, rcd := {}, taken := true, scope := nilScope
    body := .pending (w.extractLsb' 64 64).toNat 0 s.clk, fromHost := true, seq := w.extractLsb' 0 32, cookie := w.extractLsb' 128 64
    irq := w.getLsbD 40, vec := w.extractLsb' 36 4 }

/-- The record of a body segment, when its header and trailer carry the packet's number. -/
def readBody (m : List Host.Cell) (a : Nat) (seq : BitVec 32) : Option (BitVec 512) :=
  if memNat m a 8 = seq.toNat && memNat m (a + 128) 8 = seq.toNat then some (BitVec.ofNat 512 (memNat m (a + 64) 64)) else none

/-- Replaces a queued launch; none: it leaves its queue. -/
def State.setQueued (s : State) (q id : Nat) (n : Option Launch) : State :=
  { s with launchQ := tset s.launchQ q ((s.queue q).filterMap fun l => if l.id = id then n else some l) }

/-- A read of a launch's body: it is taken, to be tried again, or after the ninth read stale. A body that is taken counts into the scope
of its record. -/
def State.tryBody (s : State) (l : Launch) : State :=
  let q := l.vi * 16 + l.queue
  match l.body with
  | .taken => s
  | .pending a n _ =>
    match readBody s.hostMem a l.seq with
    | some b =>
      let r := LoopRec.ofBits b
      (s.setQueued q l.id (some { l with rcd := { r with queue := l.queue }, scope := r.scope, body := .taken })).countIn r.scope |>.1
    | none =>
      if 8 ≤ n then (s.setQueued q l.id none).finalEvent l { kind := 3 }
      else s.setQueued q l.id (some { l with body := .pending a (n + 1) s.clk })

/-- A read of a body of interface v: it ends in an error completion when k is not 0, which freezes the interface under violation 2. -/
def State.readLaunch (s : State) (l : Launch) (k : Nat) : State := if k = 0 then s.tryBody l else s.violate l.vi 2

/-- LAUNCH_PACKET (R397, R398): the 64 bytes w at offset o of the launch window of interface v; k says how the read of the body ends. -/
def execLaunchPacket (s : State) : Host.Outcome State Fault Refusal :=
  let v := s.focus.v % 64
  let w := s.focus.w
  let q := (w.extractLsb' 32 4).toNat
  let code := s.packetCode v s.focus.o w
  .next (if code != 0 then s.refusePacket v q code (w.extractLsb' 0 32)
    else
      let l := s.packetLaunch v w
      (((s.updVI v fun k => { k with lseq := w.extractLsb' 0 32 }).enqueue (v * 16 + q) l).readLaunch l s.focus.k))

/-- The queued launches whose bodies are not taken. -/
def State.bodies (s : State) : List Launch := s.launchQ.flatMap fun q => q.2.filter fun l => match l.body with | .pending .. => true | .taken => false

/-- The i-th body not yet taken is read again, 4,000 clk after its last read; not while its interface is frozen. -/
def State.retryBody (s : State) (i k : Nat) : State :=
  match s.bodies[i]? with
  | none => s
  | some l =>
    match l.body with
    | .pending _ _ last => if s.clk < last + 4000 || (s.vi l.vi).frozen then s else s.readLaunch l k
    | .taken => s

/-- BODY_RETRY (R398): body i is read again, k saying how the read ends; or, with o = 1, the host writes the first i bytes, at most 64, of w at the address
d of its memory, where it makes the segments. -/
def execBodyRetry (s : State) : Host.Outcome State Fault Refusal :=
  let f := s.focus
  .next (if f.o = 1 then { s with hostMem := memWrite s.hostMem f.d (natBytes (Nat.min 64 f.i) f.w.toNat) } else s.retryBody f.i f.k)

/-! ## Ultra Ethernet (R381, R402) -/

/-- The operation of a command-queue entry. -/
def ueOpOf (v : Nat) (b : BitVec 512) : UeOp :=
  let f : Nat → Nat := fun i => (Config.ueField b i).toNat
  { vi := v, op := f 0, addr := f 1, len := f 2, obj := f 3, want := (Config.ueField b 4).truncate 32, peer := Config.ueField b 5 }

/-- The acquire of an outbound operation's object, at its home (R212, R381): the version has been reached, or the object is free and is taken. -/
def State.ueAcquire (s : State) (u : UeOp) : Option State :=
  let w : Word := BitVec.ofNat 64 (memNat s.mem u.obj 8)
  if !s.backed u.obj || !objGrants w u.want false then none
  else if objExclusive w then
    let o := Config.ueOwner u.obj
    some (s.homePut (eccDie u.obj) u.obj 8 (objOwn w s.mod (o / 4) o).toNat)
  else some s

/-- An act of outbound operation i (R381): its acquire is looked at; then, piece by piece, its bytes are read at their scope-6 points and leave by the
port for the peer. -/
def State.ueSend (s : State) (i : Nat) : State :=
  match s.ueOps[i]? with
  | none => s
  | some u =>
    if u.op = 0 then s
    else if !u.acq then
      match s.ueAcquire u with
      | some s => { s with ueOps := s.ueOps.set i { u with acq := true } }
      | none => s
    else
      let n := Nat.min (32 - (u.addr + u.done) % 32) (u.len - u.done)
      let pas := (List.range n).map fun j => u.addr + u.done + j
      let s := s.correct pas
      let ops := if u.len ≤ u.done + n then s.ueOps.eraseIdx i else s.ueOps.set i { u with done := u.done + n }
      { s with ueOps := ops, ueSent := s.ueSent ++ [(u.vi, u.peer, u.addr + u.done, pas.map fun a => memGet s.mem a)] }

/-- The entries of a queue from its consumer index up to its producer index are started; a local address outside PART is a violation. -/
def State.ueStart (v : Nat) : Nat → State → State
  | 0, s => s
  | n + 1, s =>
    let k : UeQueue := tget {} s.ueq v
    if k.cons = k.prod || (s.vi v).frozen then s
    else
      let u := ueOpOf v (BitVec.ofNat 512 (memNat s.hostMem (k.base.toNat + 64 * (k.cons % 2 ^ k.size)) 64))
      let s : State := { s with ueq := tset s.ueq v { k with cons := (k.cons + 1) % 2 ^ 64 } }
      if v != 0 && !covered (s.vi v).parts 4 u.addr (u.addr + u.len) then s.violate v 3
      else ueStart v n { s with ueOps := s.ueOps ++ [u] }

/-- UE_COMMAND (R402): the producer index of interface v becomes w, and the entries are started; or, with o = 1, started operation i takes its
next step, where it is outbound (R381). -/
def execUeCommand (s : State) : Host.Outcome State Fault Refusal :=
  let v := s.focus.v % 64
  let k : UeQueue := tget {} s.ueq v
  .next (if s.focus.o = 1 then s.ueSend s.focus.i
    else
      let p := s.focus.w.toNat % 2 ^ 64
      State.ueStart v ((p + 2 ^ 64 - k.cons) % 2 ^ 64) { s with ueq := tset s.ueq v { k with prod := p } })

/-- Inbound bytes performed at scope 6, and the release of their object when they are the last. -/
def State.ueWrite (s : State) (a n obj : Nat) (last : Bool) (w : BitVec 512) : State :=
  let ws := (List.range n).zip (natBytes n w.toNat) |>.map fun e => (a + e.1, e.2)
  let s := if ws.all fun e => s.backed e.1 then s.barePut ws else s
  if last && s.backed obj then s.relObject (eccDie obj) obj false else s

/-- UE_INBOUND_WRITE (R381): the next bytes w of the read operation i; or, where i names none, d bytes from a peer at address o, which
release the object k. -/
def execUeInboundWrite (s : State) : Host.Outcome State Fault Refusal :=
  let f := s.focus
  .next (match s.ueOps[f.i]? with
    | some u =>
      if u.op != 0 then s
      else
        let n := Nat.min 64 (u.len - u.done)
        let s : State := { s with ueOps := if u.len ≤ u.done + n then s.ueOps.eraseIdx f.i else s.ueOps.set f.i { u with done := u.done + n } }
        s.ueWrite (u.addr + u.done) n u.obj (u.len ≤ u.done + n) f.w
    | none => s.ueWrite f.o (Nat.min 64 f.d) f.k true f.w)

/-! ## Temperature (R403) -/

/-- THERMAL_THROTTLE (R403): a reading of i sixteenths of a degree; above 105 degrees the limiter of every core is set and lowered by an
eighth, below 100 degrees what firmware wrote comes back. -/
def execThermalThrottle (s : State) : Host.Outcome State Fault Refusal :=
  let i := s.focus.i % 2 ^ 16
  let s : State := { s with temp := BitVec.ofNat 16 i }
  .next (if 105 * 16 < i then
      { s with cores := (List.range 1024).map fun c =>
          let k := s.core c
          (c, k.putClim true (k.climLim - k.climLim / 8)) }
    else if i < 100 * 16 then { s with cores := s.cores.map fun p => (p.1, p.2.putClim p.2.climSet.1 p.2.climSet.2) }
    else s)

/-- THERMAL_SHUTDOWN (R403): at a reading of 115 degrees every core is fenced and the module is down. -/
def execThermalShutdown (s : State) : Host.Outcome State Fault Refusal :=
  let i := s.focus.i % 2 ^ 16
  .next (if i < 115 * 16 then s
    else
      let s := (List.range 1024).foldl (fun (s : State) c => s.fenceCore 0 c) { s with temp := BitVec.ofNat 16 i }
      { s with down := true })

/-! ## Resets of the module (R389, R403) -/

/-- The module after a reset: its HBM scrubbed, its registers and tables at their reset values, its number in RCTL as it was; what is outside the module stays, as do
the numbers that the model gives out. -/
def State.moduleReset (s : State) : State :=
  { State.reset with
    rctl := { mod := s.rctl.mod }
    mem := s.mem.filter fun e => paMod e.1 != s.mod || paRegion e.1 = 2
    hostMem := s.hostMem, nvmeMem := s.nvmeMem, kernels := s.kernels, clk := s.clk, agenda := s.agenda, focus := s.focus
    freeCtr := s.freeCtr, nextId := s.nextId, temp := s.temp, peersUp := s.peersUp, ueSent := s.ueSent }

/-- COLD_RESET (R403). -/
def execColdReset (s : State) : Host.Outcome State Fault Refusal := .next s.moduleReset

/-- LANE_FAILURE (R389). -/
def execLaneFailure (s : State) : Host.Outcome State Fault Refusal := .next s.moduleReset

end Sys2Proof.Machine
end

