-- ==== Sys2Proof/Machine/Traffic.lean ====
section
/-!
DEFINITION. What rides on the rings beside the messages of contexts (R364, R366, R380), and the step RING_SLOT_ALLOCATION. The effects of this traffic
are those of its own steps; its flits, which an agenda may send, take slots from the others (log 34).
-/

namespace Sys2Proof.Machine

/-! ## Kinds and items (R366, R380) -/

/-- The kinds of traffic, but for the messages of contexts: the request class, and replies, acknowledgements and error responses (R366). -/
inductive Traffic where
  | load | sync | barrier | scope | team | compass | larder
  | store | copy | slab | group | ue
  | pagerFill | writeBack | larderFill
  | reply
deriving DecidableEq, Repr

/-- The tier of a kind (R366). -/
def Traffic.tier : Traffic → Nat
  | .load | .sync | .barrier | .scope | .team | .compass | .larder | .reply => 0
  | .store | .copy | .slab | .group | .ue => 1
  | .pagerFill | .writeBack | .larderFill => 2

/-- An item of traffic between stations: its kind, the station and the unit that it comes from (0x3FF a function of the station), the address it is for
with the bytes it carries or asks for, and, where it goes to no home, the station, unit and context that it is sent to. -/
structure Item where
  kind : Traffic
  src : Nat
  unit : Nat := 0x3FF
  pa : Nat
  cells : List (Nat × Byte) := []
  dest : Option (Nat × Nat × Nat) := none
deriving DecidableEq, Repr

/-- The station that an item goes to. -/
def State.itemStation (s : State) (i : Item) : Nat := match i.dest with | some t => t.1 | none => s.stationOf i.pa

/-- Items for bytes: one for each run of one aligned sector (R122, R364). -/
def sectorItems (cells : List (Nat × Byte)) (f : Nat → List (Nat × Byte) → Item) : List Item :=
  (sectorRuns (fun (a : Nat) => ((a / 32 : Nat) : Int)) cells).filterMap fun l => l.head?.map fun p => f p.1 l

/-- The bytes of a context's virtual addresses, where their pages are there. -/
def State.bytesAt (s : State) (c : Nat) (t : Ctx) (l : List (Int × Byte)) : List (Nat × Byte) :=
  l.filterMap fun p => ((s.locate c t p.1).bind s.resolve).map fun pa => (pa, p.2)

/-- The first byte of HBM of a die, or of the CXL tier: an address by which an item goes to a station that no access names. -/
def State.stationPa (s : State) (st : Nat) : Nat := s.mod * 2 ^ 50 + if st < 8 then st * 2 ^ 37 else 2 * 2 ^ 48

/-! ## What is under way -/

/-- What an LDQ entry has under way: requests for the bytes still to be read, and replies with those that have been. -/
def State.loadItems (s : State) (c x : Nat) (t : Ctx) (e : LdqEntry) : List Item :=
  let want := s.bytesAt c t (e.waitsFor.map fun a => (a, 0))
  let have' := s.bytesAt c t (e.req.img.filterMap fun p => (e.got.lookup p.2).map fun b => (p.1, b))
  if e.landed then []
  else
    sectorItems want (fun pa l => { kind := .load, src := dieOf c, unit := c, pa := pa, cells := l })
      ++ sectorItems have' fun pa l => { kind := .reply, src := s.stationOf pa, pa := pa, cells := l, dest := some (dieOf c, c, x) }

/-- What a sent item of a context has under way. -/
def State.flightItems (s : State) (c : Nat) (t : Ctx) (f : StoreFlight) : List Item :=
  let at' : Traffic → List Item := fun k =>
    (s.bytesAt c t [((f.req.va : Int), 0)]).map fun p => { kind := k, src := dieOf c, unit := c, pa := p.1 }
  match f.req.op with
  | .rel _ => at' .sync
  | .bini _ | .bexp _ | .barr _ => at' .barrier
  | .gvobs .. => [{ kind := .compass, src := dieOf c, unit := c, pa := s.stationPa 8 }]
  | .xscore => [{ kind := .larder, src := dieOf c, unit := c, pa := s.stationPa 8 }]
  | _ => sectorItems (f.cells.filterMap fun q => (s.resolve q.2.1).map fun pa => (pa, q.2.2)) fun pa l =>
      { kind := .store, src := dieOf c, unit := c, pa := pa, cells := l }

/-- The kind of a waiting bundle's request, and an address at the station that serves it: acq, bwait, scope operations, and Compass (R366). -/
def State.askedAt (s : State) (c : Nat) (t : Ctx) (a : Awaiting) : Option (Traffic × Nat) :=
  let byte : Traffic → Option (Traffic × Nat) := fun k => ((s.locate c t a.a.toNat).bind s.resolve).map fun pa => (k, pa)
  match a.code with
  | 0x343 => byte .sync
  | 0x2C7 => byte .barrier
  | 0x34A | 0x34B | 0x34C => (s.scopeReqs.find? fun r => r.rid = a.rid).map fun r => (.scope, s.stationPa (scopeDie r.id))
  | 0x38C | 0x38D => some (.compass, s.stationPa 8)
  | _ => none

/-- What a waiting bundle's request has under way: the request, or its reply. -/
def State.askItems (s : State) (c x : Nat) (t : Ctx) (a : Awaiting) : List Item :=
  match s.askedAt c t a with
  | none => []
  | some (k, pa) =>
    if a.reply.isNone then [{ kind := k, src := dieOf c, unit := c, pa := pa }]
    else [{ kind := .reply, src := s.stationOf pa, pa := pa, dest := some (dieOf c, c, x) }]

/-- What a context has under way. -/
def State.ctxItems (s : State) (c x : Nat) (t : Ctx) : List Item :=
  t.ldq.flatMap (s.loadItems c x t) ++ t.stFlight.flatMap (s.flightItems c t) ++ t.awaiting.flatMap (s.askItems c x t)

/-- Bytes of a copy on their way to their destination. -/
def State.copyOut (s : State) (c : Nat) (m : CopyCmd) (l : List (DstAt × Byte)) : List Item :=
  sectorItems (l.filterMap fun q => match q.1 with | .va a => (s.vaPa m.wins m.launch c a).map fun pa => (pa, q.2) | _ => none)
      (fun pa l => { kind := .copy, src := dieOf c, unit := c, pa := pa, cells := l })
    ++ if l.any fun q => match q.1 with | .nvme _ => true | _ => false then [{ kind := .copy, src := dieOf c, unit := c, pa := s.stationPa 8 }] else []

/-- The sectors of a piece's source on their way to the engine's port (R380). -/
def State.copyIn (s : State) (c : Nat) (m : CopyCmd) (js : List Nat) : List Item :=
  let port : Option (Nat × Nat × Nat) := some (dieOf c, c, 0)
  if recSkind m.rcd = 1 then [{ kind := .copy, src := 8, pa := s.stationPa 8, dest := port }]
  else
    let at' := ((js.flatMap m.sides.2.unitElems).flatMap m.elemVas).map fun a => a / 32 * 32
    (at'.eraseDups.filterMap fun a => s.vaPa m.wins m.launch c a).map fun pa =>
      { kind := .copy, src := s.stationOf pa, pa := pa, cells := (List.range 32).map fun j => (pa + j, memGet s.mem (pa + j)), dest := port }

/-- The pieces of what a command still has to read, each with the place of its first unit. -/
def CopyCmd.pieces (m : CopyCmd) : List (List Nat) :=
  (List.range m.todo.length).filterMap fun k => if (m.piece k).head? = m.todo[k]? then some (m.piece k) else none

/-- What a copy has under way (R380): its pieces' sources, their writes, those of its tile, and its packets and contributions. -/
def State.copyItems (s : State) (c : Nat) (m : CopyCmd) : List Item :=
  let sh := m.sides.2
  let group : List Item := [{ kind := .group, src := dieOf c, unit := c, pa := s.stationPa 8 }]
  let moving : List Item := m.pieces.flatMap fun js =>
    s.copyIn c m js ++ if sh.cv || sh.bs || recDkind m.rcd = 2 then [] else s.copyOut c m (s.pieceWrites c m (s.readPiece c m js)).1
  (if m.phase = .running || m.phase = .firmware then moving else [])
    ++ (m.out.flatMap fun p => s.copyOut c m p.cells)
    ++ (match m.busy with | some w => w.out.flatMap fun p => s.copyOut c m (p.map fun q => (.va q.1, q.2)) | none => [])
    ++ ((s.packets.filter fun p => p.cmds.contains m.id && p.latched.isNone).flatMap fun _ => group)
    ++ (s.contribs.filter fun p => p.cmd = m.id && !p.refused && !p.away).flatMap fun _ => group

/-- What the Bivouac die's collectives have under way: copies of packets to members, and contributions to another module's root (R385, R386). -/
def State.groupItems (s : State) : List Item :=
  (s.packets.flatMap fun p => match p.latched with
    | none => []
    | some g => p.left.flatMap fun k =>
      let (b, sc) := s.member g k
      sectorItems (p.writesAt b sc) fun pa l => { kind := .group, src := 8, pa := pa, cells := l })
    ++ (s.contribs.filter fun p => p.away).map fun p =>
      { kind := .group, src := 8, pa := grpRoot (s.group p.group).raw * 2 ^ 50 + 2 * 2 ^ 48 }

/-- What a die has under way: write-throughs and what acknowledges them, fills and write-backs of its pager (R193, R380). -/
def State.dieItems (s : State) (d : Nat) (k : Die) : List Item :=
  (k.wt.flatMap fun w => sectorItems w.cells (fun pa l => { kind := .store, src := d, pa := pa, cells := l })
    ++ sectorItems w.cells fun pa _ => { kind := .reply, src := s.stationOf pa, pa := pa, dest := some (d, 0x3FF, 0) })
    ++ k.frames.filterMap fun f => match f.2.state with
      | .filling => some { kind := .pagerFill, src := 8, pa := s.stationPa d }
      | .claimed => some { kind := .writeBack, src := d, pa := s.stationPa 8 }
      | _ => none

/-- What the machine's other messages have under way (R143, R150, R285, R307, R317, R381). -/
def State.otherItems (s : State) : List Item :=
  let coreOf : Nat → Nat := fun u => match s.place? u with | some (c, _) => c | none => 0
  let from_ : Traffic → Nat → Nat → Item := fun k u pa => { kind := k, src := dieOf (coreOf u), unit := coreOf u, pa := pa }
  let scopes := s.scopeReqs.map fun m => from_ .scope m.uid (s.stationPa (scopeDie m.id))
  let decs := s.scopeDecs.flatMap fun id => (List.range 8).map fun d => ({ kind := .scope, src := d, pa := s.stationPa (scopeDie id) } : Item)
  let teams := s.teamMsgs.filterMap fun m => (s.launch? m.launch).map fun l => from_ .team m.uid (s.stationPa l.lead)
  let slabs := s.slabs.map fun b => ({ kind := .slab, src := b.src, pa := b.dest } : Item)
  let fills := (s.larder.filter fun e => e.2.copying).map fun e => ({ kind := .larderFill, src := 8, pa := s.slotBase e.2 } : Item)
  let ue := (s.ueOps.filter fun u => u.op = 0).map fun u => ({ kind := .ue, src := 8, pa := u.addr + u.done } : Item)
  scopes ++ decs ++ teams ++ slabs ++ fills ++ ue

/-- The traffic under way, but for the messages of contexts: what of it goes between stations rides on the rings, by the routes of R380 at the tiers of
R366. -/
def State.traffic (s : State) : List Item :=
  let cores : List Item := s.cores.flatMap fun p =>
    ((List.range (5 + p.2.ghosts.length)).flatMap fun x => s.ctxItems p.1 x (p.2.ctx x)) ++ p.2.cmds.flatMap (s.copyItems p.1)
  let dies : List Item := s.dies.flatMap fun d => s.dieItems d.1 d.2
  (cores ++ dies ++ s.groupItems ++ s.otherItems).filter fun i => i.src != s.itemStation i || (i.dest.isNone && paMod i.pa != s.mod)

/-! ## RING_SLOT_ALLOCATION (R366, R367) -/

/-- The fields of an item's flits (R364). -/
def State.itemFlit (s : State) (i : Item) : Flit :=
  let st := s.itemStation i
  let far := i.dest.isNone && paMod i.pa != s.mod
  { msg := s.nextId, src := i.src, dst := st, reply := i.kind = .reply, tier := i.kind.tier, dir := false, seq := 0, head := true, tail := true, words := []
    smod := s.mod, ssta := i.src, sunit := i.unit, mid := s.sentBy i.src i.unit % 256, dmod := if far then paMod i.pa else s.mod
    dsta := if far && paRegion i.pa = 0 then paDie i.pa else st
    dunit := match i.dest with | some t => t.2.1 | none => 0x3FF, dctx := match i.dest with | some t => t.2.2 % 4 | none => 0 }

/-- The flits of an item of traffic join the queue of its station. -/
def State.sendItem (s : State) (i : Item) : State :=
  (({ s with nextId := s.nextId + 1 } : State).countSent i.src i.unit).inject (s.itemFlit i) (cellWords i.pa i.cells)

/-- RING_SLOT_ALLOCATION (R367): a ring cycle of station i / 2 in direction i mod 2, in which the slots of the lanes in the mask k that no flit
has pass empty; or, with o = 1, item k of the other traffic joins the queue of its station. -/
def execRingSlotAllocation (s : State) : Host.Outcome State Fault Refusal :=
  .next (if s.focus.o = 1 then (match s.traffic[s.focus.k]? with | some i => s.sendItem i | none => s)
    else s.ringSlots (s.focus.i / 2 % 10) (s.focus.i % 2 = 1) s.focus.k)

end Sys2Proof.Machine
end

