-- ==== Sys2Proof/Machine/Dispatch.lean ====
section
/-!
DEFINITION. The meaning of every step of the table of operations and events: one direct call an arm.
-/

namespace Sys2Proof.Machine

open Host

def exec (i : Instr) (s : State) : Host.Outcome State Fault Refusal :=
  match i with
  | .move g src d => Sys2Proof.Machine.execMove g src d s
  | .neverMove a b => Sys2Proof.Machine.execNeverMove a b s
  | .limm24 g x d => Sys2Proof.Machine.execLimm24 g x d s
  | .limm48 g x d => Sys2Proof.Machine.execLimm48 g x d s
  | .sd g src => Sys2Proof.Machine.execSd g src s
  | .vsd g src => Sys2Proof.Machine.execVsd g src s
  | .fsend g src => Sys2Proof.Machine.execFsend g src s
  | .fsendh g src => Sys2Proof.Machine.execFsendh g src s
  | .ldq g d => Sys2Proof.Machine.execLdq g d s
  | .vldq g d => Sys2Proof.Machine.execVldq g d s
  | .frecv g d => Sys2Proof.Machine.execFrecv g d s
  | .qp g h d => Sys2Proof.Machine.execQp g h d s
  | .qv g h d => Sys2Proof.Machine.execQv g h d s
  | .add g src u => Sys2Proof.Machine.execAdd g src u s
  | .sub g src u => Sys2Proof.Machine.execSub g src u s
  | .add32 g src u => Sys2Proof.Machine.execAdd32 g src u s
  | .sub32 g src u => Sys2Proof.Machine.execSub32 g src u s
  | .and g src u => Sys2Proof.Machine.execAnd g src u s
  | .or g src u => Sys2Proof.Machine.execOr g src u s
  | .xor g src u => Sys2Proof.Machine.execXor g src u s
  | .andn g src u => Sys2Proof.Machine.execAndn g src u s
  | .shl g src u => Sys2Proof.Machine.execShl g src u s
  | .shr g src u => Sys2Proof.Machine.execShr g src u s
  | .sar g src u => Sys2Proof.Machine.execSar g src u s
  | .rol g src u => Sys2Proof.Machine.execRol g src u s
  | .min g src u => Sys2Proof.Machine.execMin g src u s
  | .max g src u => Sys2Proof.Machine.execMax g src u s
  | .minu g src u => Sys2Proof.Machine.execMinu g src u s
  | .maxu g src u => Sys2Proof.Machine.execMaxu g src u s
  | .seq g src u => Sys2Proof.Machine.execSeq g src u s
  | .sne g src u => Sys2Proof.Machine.execSne g src u s
  | .slt g src u => Sys2Proof.Machine.execSlt g src u s
  | .sltu g src u => Sys2Proof.Machine.execSltu g src u s
  | .sle g src u => Sys2Proof.Machine.execSle g src u s
  | .sleu g src u => Sys2Proof.Machine.execSleu g src u s
  | .sext8 g src u => Sys2Proof.Machine.execSext8 g src u s
  | .sext16 g src u => Sys2Proof.Machine.execSext16 g src u s
  | .sext32 g src u => Sys2Proof.Machine.execSext32 g src u s
  | .zext32 g src u => Sys2Proof.Machine.execZext32 g src u s
  | .clz g src u => Sys2Proof.Machine.execClz g src u s
  | .ctz g src u => Sys2Proof.Machine.execCtz g src u s
  | .popc g src u => Sys2Proof.Machine.execPopc g src u s
  | .sh1add g src u => Sys2Proof.Machine.execSh1add g src u s
  | .sh2add g src u => Sys2Proof.Machine.execSh2add g src u s
  | .sh3add g src u => Sys2Proof.Machine.execSh3add g src u s
  | .pass g src u => Sys2Proof.Machine.execPass g src u s
  | .bext g src u => Sys2Proof.Machine.execBext g src u s
  | .mul g src => Sys2Proof.Machine.execMul g src s
  | .mulh g src => Sys2Proof.Machine.execMulh g src s
  | .mulhu g src => Sys2Proof.Machine.execMulhu g src s
  | .mul32 g src => Sys2Proof.Machine.execMul32 g src s
  | .div g src => Sys2Proof.Machine.execDiv g src s
  | .divu g src => Sys2Proof.Machine.execDivu g src s
  | .rem g src => Sys2Proof.Machine.execRem g src s
  | .remu g src => Sys2Proof.Machine.execRemu g src s
  | .fadd g src => Sys2Proof.Machine.execFadd g src s
  | .fsub g src => Sys2Proof.Machine.execFsub g src s
  | .fmul g src => Sys2Proof.Machine.execFmul g src s
  | .ffma g src => Sys2Proof.Machine.execFfma g src s
  | .fmin g src => Sys2Proof.Machine.execFmin g src s
  | .fmax g src => Sys2Proof.Machine.execFmax g src s
  | .feq g src => Sys2Proof.Machine.execFeq g src s
  | .flt g src => Sys2Proof.Machine.execFlt g src s
  | .fle g src => Sys2Proof.Machine.execFle g src s
  | .fun g src => Sys2Proof.Machine.execFun g src s
  | .fsqrt g src => Sys2Proof.Machine.execFsqrt g src s
  | .frcp g src => Sys2Proof.Machine.execFrcp g src s
  | .fcvti g src => Sys2Proof.Machine.execFcvti g src s
  | .icvtf g src => Sys2Proof.Machine.execIcvtf g src s
  | .dadd g src => Sys2Proof.Machine.execDadd g src s
  | .dsub g src => Sys2Proof.Machine.execDsub g src s
  | .dmul g src => Sys2Proof.Machine.execDmul g src s
  | .dfma g src => Sys2Proof.Machine.execDfma g src s
  | .fcvtd g src => Sys2Proof.Machine.execFcvtd g src s
  | .dcvtf g src => Sys2Proof.Machine.execDcvtf g src s
  | .br g src => Sys2Proof.Machine.execBr g src s
  | .brr g src => Sys2Proof.Machine.execBrr g src s
  | .call g src => Sys2Proof.Machine.execCall g src s
  | .callr g src => Sys2Proof.Machine.execCallr g src s
  | .ret g src => Sys2Proof.Machine.execRet g src s
  | .loop g src => Sys2Proof.Machine.execLoop g src s
  | .lbrk g src => Sys2Proof.Machine.execLbrk g src s
  | .vu0Vadd g src => Sys2Proof.Machine.execVu0Vadd g src s
  | .vu1Vadd g src => Sys2Proof.Machine.execVu1Vadd g src s
  | .vu0Vsub g src => Sys2Proof.Machine.execVu0Vsub g src s
  | .vu1Vsub g src => Sys2Proof.Machine.execVu1Vsub g src s
  | .vu0Vmul g src => Sys2Proof.Machine.execVu0Vmul g src s
  | .vu1Vmul g src => Sys2Proof.Machine.execVu1Vmul g src s
  | .vu0Vfma g src => Sys2Proof.Machine.execVu0Vfma g src s
  | .vu1Vfma g src => Sys2Proof.Machine.execVu1Vfma g src s
  | .vu0Vmin g src => Sys2Proof.Machine.execVu0Vmin g src s
  | .vu1Vmin g src => Sys2Proof.Machine.execVu1Vmin g src s
  | .vu0Vmax g src => Sys2Proof.Machine.execVu0Vmax g src s
  | .vu1Vmax g src => Sys2Proof.Machine.execVu1Vmax g src s
  | .vu0Vabs g src => Sys2Proof.Machine.execVu0Vabs g src s
  | .vu1Vabs g src => Sys2Proof.Machine.execVu1Vabs g src s
  | .vu0Vneg g src => Sys2Proof.Machine.execVu0Vneg g src s
  | .vu1Vneg g src => Sys2Proof.Machine.execVu1Vneg g src s
  | .vu0Vceq g src => Sys2Proof.Machine.execVu0Vceq g src s
  | .vu1Vceq g src => Sys2Proof.Machine.execVu1Vceq g src s
  | .vu0Vclt g src => Sys2Proof.Machine.execVu0Vclt g src s
  | .vu1Vclt g src => Sys2Proof.Machine.execVu1Vclt g src s
  | .vu0Vcle g src => Sys2Proof.Machine.execVu0Vcle g src s
  | .vu1Vcle g src => Sys2Proof.Machine.execVu1Vcle g src s
  | .vu0Vcun g src => Sys2Proof.Machine.execVu0Vcun g src s
  | .vu1Vcun g src => Sys2Proof.Machine.execVu1Vcun g src s
  | .vu0Vsel g src => Sys2Proof.Machine.execVu0Vsel g src s
  | .vu1Vsel g src => Sys2Proof.Machine.execVu1Vsel g src s
  | .vu0Vand g src => Sys2Proof.Machine.execVu0Vand g src s
  | .vu1Vand g src => Sys2Proof.Machine.execVu1Vand g src s
  | .vu0Vor g src => Sys2Proof.Machine.execVu0Vor g src s
  | .vu1Vor g src => Sys2Proof.Machine.execVu1Vor g src s
  | .vu0Vxor g src => Sys2Proof.Machine.execVu0Vxor g src s
  | .vu1Vxor g src => Sys2Proof.Machine.execVu1Vxor g src s
  | .vu0Vshl g src => Sys2Proof.Machine.execVu0Vshl g src s
  | .vu1Vshl g src => Sys2Proof.Machine.execVu1Vshl g src s
  | .vu0Vshr g src => Sys2Proof.Machine.execVu0Vshr g src s
  | .vu1Vshr g src => Sys2Proof.Machine.execVu1Vshr g src s
  | .vu0Vsar g src => Sys2Proof.Machine.execVu0Vsar g src s
  | .vu1Vsar g src => Sys2Proof.Machine.execVu1Vsar g src s
  | .vu0Vcvt g src => Sys2Proof.Machine.execVu0Vcvt g src s
  | .vu1Vcvt g src => Sys2Proof.Machine.execVu1Vcvt g src s
  | .vu0Vbcast g src => Sys2Proof.Machine.execVu0Vbcast g src s
  | .vu1Vbcast g src => Sys2Proof.Machine.execVu1Vbcast g src s
  | .vu0Vextr g src => Sys2Proof.Machine.execVu0Vextr g src s
  | .vu1Vextr g src => Sys2Proof.Machine.execVu1Vextr g src s
  | .vu0Vperm g src => Sys2Proof.Machine.execVu0Vperm g src s
  | .vu1Vperm g src => Sys2Proof.Machine.execVu1Vperm g src s
  | .vu0Vredadd g src => Sys2Proof.Machine.execVu0Vredadd g src s
  | .vu1Vredadd g src => Sys2Proof.Machine.execVu1Vredadd g src s
  | .vu0Vredmax g src => Sys2Proof.Machine.execVu0Vredmax g src s
  | .vu1Vredmax g src => Sys2Proof.Machine.execVu1Vredmax g src s
  | .vu0Vredmin g src => Sys2Proof.Machine.execVu0Vredmin g src s
  | .vu1Vredmin g src => Sys2Proof.Machine.execVu1Vredmin g src s
  | .vu0Vexp2 g src => Sys2Proof.Machine.execVu0Vexp2 g src s
  | .vu1Vexp2 g src => Sys2Proof.Machine.execVu1Vexp2 g src s
  | .vu0Vlog2 g src => Sys2Proof.Machine.execVu0Vlog2 g src s
  | .vu1Vlog2 g src => Sys2Proof.Machine.execVu1Vlog2 g src s
  | .vu0Vrcp g src => Sys2Proof.Machine.execVu0Vrcp g src s
  | .vu1Vrcp g src => Sys2Proof.Machine.execVu1Vrcp g src s
  | .vu0Vrsqrt g src => Sys2Proof.Machine.execVu0Vrsqrt g src s
  | .vu1Vrsqrt g src => Sys2Proof.Machine.execVu1Vrsqrt g src s
  | .vu0Vtanh g src => Sys2Proof.Machine.execVu0Vtanh g src s
  | .vu1Vtanh g src => Sys2Proof.Machine.execVu1Vtanh g src s
  | .vu0Vquant g src => Sys2Proof.Machine.execVu0Vquant g src s
  | .vu1Vquant g src => Sys2Proof.Machine.execVu1Vquant g src s
  | .vu0Vdeq g src => Sys2Proof.Machine.execVu0Vdeq g src s
  | .vu1Vdeq g src => Sys2Proof.Machine.execVu1Vdeq g src s
  | .vu0Vnf g src => Sys2Proof.Machine.execVu0Vnf g src s
  | .vu1Vnf g src => Sys2Proof.Machine.execVu1Vnf g src s
  | .vu0Vscan g src => Sys2Proof.Machine.execVu0Vscan g src s
  | .vu1Vscan g src => Sys2Proof.Machine.execVu1Vscan g src s
  | .vu0Vtopk g src => Sys2Proof.Machine.execVu0Vtopk g src s
  | .vu1Vtopk g src => Sys2Proof.Machine.execVu1Vtopk g src s
  | .vu0Vidx g src => Sys2Proof.Machine.execVu0Vidx g src s
  | .vu1Vidx g src => Sys2Proof.Machine.execVu1Vidx g src s
  | .ld8 g src => Sys2Proof.Machine.execLd8 g src s
  | .ld16 g src => Sys2Proof.Machine.execLd16 g src s
  | .ld32 g src => Sys2Proof.Machine.execLd32 g src s
  | .ld64 g src => Sys2Proof.Machine.execLd64 g src s
  | .vld g src => Sys2Proof.Machine.execVld g src s
  | .vldm g src => Sys2Proof.Machine.execVldm g src s
  | .vldg g src => Sys2Proof.Machine.execVldg g src s
  | .st8 g src => Sys2Proof.Machine.execSt8 g src s
  | .st16 g src => Sys2Proof.Machine.execSt16 g src s
  | .st32 g src => Sys2Proof.Machine.execSt32 g src s
  | .st64 g src => Sys2Proof.Machine.execSt64 g src s
  | .vst g src => Sys2Proof.Machine.execVst g src s
  | .vstm g src => Sys2Proof.Machine.execVstm g src s
  | .vsts g src => Sys2Proof.Machine.execVsts g src s
  | .ldblk g src => Sys2Proof.Machine.execLdblk g src s
  | .ldh g src => Sys2Proof.Machine.execLdh g src s
  | .amoadd g src => Sys2Proof.Machine.execAmoadd g src s
  | .amomin g src => Sys2Proof.Machine.execAmomin g src s
  | .amomax g src => Sys2Proof.Machine.execAmomax g src s
  | .amoand g src => Sys2Proof.Machine.execAmoand g src s
  | .amoor g src => Sys2Proof.Machine.execAmoor g src s
  | .amoxor g src => Sys2Proof.Machine.execAmoxor g src s
  | .amoswp g src => Sys2Proof.Machine.execAmoswp g src s
  | .amocas g src => Sys2Proof.Machine.execAmocas g src s
  | .amofadd g src => Sys2Proof.Machine.execAmofadd g src s
  | .qbind g src => Sys2Proof.Machine.execQbind g src s
  | .qpush g src => Sys2Proof.Machine.execQpush g src s
  | .qpushv g src => Sys2Proof.Machine.execQpushv g src s
  | .qtry g src => Sys2Proof.Machine.execQtry g src s
  | .qclose g src => Sys2Proof.Machine.execQclose g src s
  | .qfmt g src => Sys2Proof.Machine.execQfmt g src s
  | .qinfo g src => Sys2Proof.Machine.execQinfo g src s
  | .cpy g src => Sys2Proof.Machine.execCpy g src s
  | .chan g src => Sys2Proof.Machine.execChan g src s
  | .cpyq g src => Sys2Proof.Machine.execCpyq g src s
  | .bini g src => Sys2Proof.Machine.execBini g src s
  | .bexp g src => Sys2Proof.Machine.execBexp g src s
  | .barr g src => Sys2Proof.Machine.execBarr g src s
  | .bwait g src => Sys2Proof.Machine.execBwait g src s
  | .cabt g src => Sys2Proof.Machine.execCabt g src s
  | .mcall g src => Sys2Proof.Machine.execMcall g src s
  | .mgrant g src => Sys2Proof.Machine.execMgrant g src s
  | .mrel g src => Sys2Proof.Machine.execMrel g src s
  | .mstat g src => Sys2Proof.Machine.execMstat g src s
  | .mwr g src => Sys2Proof.Machine.execMwr g src s
  | .mabt g src => Sys2Proof.Machine.execMabt g src s
  | .wait g src => Sys2Proof.Machine.execWait g src s
  | .fence g src => Sys2Proof.Machine.execFence g src s
  | .acq g src => Sys2Proof.Machine.execAcq g src s
  | .rel g src => Sys2Proof.Machine.execRel g src s
  | .ctlr g src => Sys2Proof.Machine.execCtlr g src s
  | .ctlw g src => Sys2Proof.Machine.execCtlw g src s
  | .trap g src => Sys2Proof.Machine.execTrap g src s
  | .eret g src => Sys2Proof.Machine.execEret g src s
  | .yield g src => Sys2Proof.Machine.execYield g src s
  | .spawn g src => Sys2Proof.Machine.execSpawn g src s
  | .fso g src => Sys2Proof.Machine.execFso g src s
  | .fsc g src => Sys2Proof.Machine.execFsc g src s
  | .fsw g src => Sys2Proof.Machine.execFsw g src s
  | .tbar g src => Sys2Proof.Machine.execTbar g src s
  | .park g src => Sys2Proof.Machine.execPark g src s
  | .gbind g src => Sys2Proof.Machine.execGbind g src s
  | .gstep g src => Sys2Proof.Machine.execGstep g src s
  | .gwait g src => Sys2Proof.Machine.execGwait g src s
  | .gqry g src => Sys2Proof.Machine.execGqry g src s
  | .xscore g src => Sys2Proof.Machine.execXscore g src s
  | .xsettle g src => Sys2Proof.Machine.execXsettle g src s
  | .xemit g src => Sys2Proof.Machine.execXemit g src s
  | .xpref g src => Sys2Proof.Machine.execXpref g src s
  | .xqry g src => Sys2Proof.Machine.execXqry g src s
  | .gvobs g src => Sys2Proof.Machine.execGvobs g src s
  | .gvget g src => Sys2Proof.Machine.execGvget g src s
  | .gvepoch g src => Sys2Proof.Machine.execGvepoch g src s
  | .gvpin g src => Sys2Proof.Machine.execGvpin g src s
  | .bundleIssue => Sys2Proof.Machine.execBundleIssue s
  | .resultDelivery => Sys2Proof.Machine.execResultDelivery s
  | .contextSwitch => Sys2Proof.Machine.execContextSwitch s
  | .systemReturn => Sys2Proof.Machine.execSystemReturn s
  | .debugResume => Sys2Proof.Machine.execDebugResume s
  | .wdog => Sys2Proof.Machine.execWdog s
  | .laqSend => Sys2Proof.Machine.execLaqSend s
  | .ldqEntryLand => Sys2Proof.Machine.execLdqEntryLand s
  | .saqDrain => Sys2Proof.Machine.execSaqDrain s
  | .storePerform => Sys2Proof.Machine.execStorePerform s
  | .homeAccessArrival => Sys2Proof.Machine.execHomeAccessArrival s
  | .writeThroughAck => Sys2Proof.Machine.execWriteThroughAck s
  | .pagerFillStart => Sys2Proof.Machine.execPagerFillStart s
  | .claimComplete => Sys2Proof.Machine.execClaimComplete s
  | .pageFillComplete => Sys2Proof.Machine.execPageFillComplete s
  | .acqAtHome => Sys2Proof.Machine.execAcqAtHome s
  | .relAtHome => Sys2Proof.Machine.execRelAtHome s
  | .waiterRetry => Sys2Proof.Machine.execWaiterRetry s
  | .amoPerform => Sys2Proof.Machine.execAmoPerform s
  | .dispatchRound => Sys2Proof.Machine.execDispatchRound s
  | .workerStart => Sys2Proof.Machine.execWorkerStart s
  | .launchComplete => Sys2Proof.Machine.execLaunchComplete s
  | .teamMessageArrival => Sys2Proof.Machine.execTeamMessageArrival s
  | .scopeRemoteRequest => Sys2Proof.Machine.execScopeRemoteRequest s
  | .scopeDecrement => Sys2Proof.Machine.execScopeDecrement s
  | .stageEntryVisible => Sys2Proof.Machine.execStageEntryVisible s
  | .stageSlotFreed => Sys2Proof.Machine.execStageSlotFreed s
  | .balancerInterval => Sys2Proof.Machine.execBalancerInterval s
  | .energyChargeArrival => Sys2Proof.Machine.execEnergyChargeArrival s
  | .watchdogPre => Sys2Proof.Machine.execWatchdogPre s
  | .watchdogKill => Sys2Proof.Machine.execWatchdogKill s
  | .watchdogFence => Sys2Proof.Machine.execWatchdogFence s
  | .preemptSave => Sys2Proof.Machine.execPreemptSave s
  | .restore => Sys2Proof.Machine.execRestore s
  | .spillWrite => Sys2Proof.Machine.execSpillWrite s
  | .tenantViolation => Sys2Proof.Machine.execTenantViolation s
  | .viReset => Sys2Proof.Machine.execViReset s
  | .registerWrite => Sys2Proof.Machine.execRegisterWrite s
  | .launchPacket => Sys2Proof.Machine.execLaunchPacket s
  | .bodyRetry => Sys2Proof.Machine.execBodyRetry s
  | .compassEntryWrite => Sys2Proof.Machine.execCompassEntryWrite s
  | .ladderWrite => Sys2Proof.Machine.execLadderWrite s
  | .larderEntryWrite => Sys2Proof.Machine.execLarderEntryWrite s
  | .groupEntryWrite => Sys2Proof.Machine.execGroupEntryWrite s
  | .ueCommand => Sys2Proof.Machine.execUeCommand s
  | .ueInboundWrite => Sys2Proof.Machine.execUeInboundWrite s
  | .thermalThrottle => Sys2Proof.Machine.execThermalThrottle s
  | .thermalShutdown => Sys2Proof.Machine.execThermalShutdown s
  | .coldReset => Sys2Proof.Machine.execColdReset s
  | .laneFailure => Sys2Proof.Machine.execLaneFailure s
  | .copyCommandStart => Sys2Proof.Machine.execCopyCommandStart s
  | .copyPiece => Sys2Proof.Machine.execCopyPiece s
  | .copyCompletion => Sys2Proof.Machine.execCopyCompletion s
  | .channelStep => Sys2Proof.Machine.execChannelStep s
  | .firmwarePath => Sys2Proof.Machine.execFirmwarePath s
  | .barrierUpdate => Sys2Proof.Machine.execBarrierUpdate s
  | .bwaitReply => Sys2Proof.Machine.execBwaitReply s
  | .matrixCallStart => Sys2Proof.Machine.execMatrixCallStart s
  | .bankGrant => Sys2Proof.Machine.execBankGrant s
  | .halt => Sys2Proof.Machine.execHalt s
  | .tld => Sys2Proof.Machine.execTld s
  | .tst => Sys2Proof.Machine.execTst s
  | .tzero => Sys2Proof.Machine.execTzero s
  | .mma => Sys2Proof.Machine.execMma s
  | .retire => Sys2Proof.Machine.execRetire s
  | .scale => Sys2Proof.Machine.execScale s
  | .microLoop => Sys2Proof.Machine.execMicroLoop s
  | .padd => Sys2Proof.Machine.execPadd s
  | .signal => Sys2Proof.Machine.execSignal s
  | .teamsync => Sys2Proof.Machine.execTeamsync s
  | .compassContribution => Sys2Proof.Machine.execCompassContribution s
  | .compassEpoch => Sys2Proof.Machine.execCompassEpoch s
  | .compassObsAccept => Sys2Proof.Machine.execCompassObsAccept s
  | .compassPinAccept => Sys2Proof.Machine.execCompassPinAccept s
  | .slabSend => Sys2Proof.Machine.execSlabSend s
  | .localFill => Sys2Proof.Machine.execLocalFill s
  | .slabDelivery => Sys2Proof.Machine.execSlabDelivery s
  | .ldhCheck => Sys2Proof.Machine.execLdhCheck s
  | .stalehaloTimeout => Sys2Proof.Machine.execStalehaloTimeout s
  | .proposalArrive => Sys2Proof.Machine.execProposalArrive s
  | .expertFillStart => Sys2Proof.Machine.execExpertFillStart s
  | .expertFillComplete => Sys2Proof.Machine.execExpertFillComplete s
  | .expertFillFail => Sys2Proof.Machine.execExpertFillFail s
  | .walkBatchStart => Sys2Proof.Machine.execWalkBatchStart s
  | .blockDispatch => Sys2Proof.Machine.execBlockDispatch s
  | .waiterPoolRetry => Sys2Proof.Machine.execWaiterPoolRetry s
  | .ringSlotAllocation => Sys2Proof.Machine.execRingSlotAllocation s
  | .flitArrival => Sys2Proof.Machine.execFlitArrival s
  | .fabricMessageSend => Sys2Proof.Machine.execFabricMessageSend s
  | .fabricAccessPerform => Sys2Proof.Machine.execFabricAccessPerform s
  | .fabricMessageDelivery => Sys2Proof.Machine.execFabricMessageDelivery s
  | .fabricResponse => Sys2Proof.Machine.execFabricResponse s
  | .multicastPacket => Sys2Proof.Machine.execMulticastPacket s
  | .reductionContribution => Sys2Proof.Machine.execReductionContribution s
  | .reductionRetry => Sys2Proof.Machine.execReductionRetry s
  | .coreReset => Sys2Proof.Machine.execCoreReset s
  | .nvmeFailure => Sys2Proof.Machine.execNvmeFailure s

end Sys2Proof.Machine
end

