-- ==== Sys2Proof/Machine/Front.lean ====
section
/-!
DEFINITION. The front of the step function (log 1): the bundle that a core fetches next, a bundle that holds one move alone (a row of the
table of operations), what the next step is to execute, and the placing of such a bundle where the fetch looks for it.
-/

namespace Sys2Proof.Machine

/-- A bundle whose slot 0 holds its only move, or that holds none: the row of the table that it is. -/
def soloOf : List Slot → Option Instr
  | [] => none
  | l :: ls => if ls.any slotMove then none else l.res.toOption

/-- The row of the table that a core's next bundle is, when it is one. -/
def State.solo? (s : State) (c : Nat) : Option Instr :=
  match s.fetching c with
  | none => none
  | some (x, w) =>
    match s.fetch c w (s.ctx c x).pc with
    | .ok l => soloOf l
    | .error _ => none

/-- An act of the agenda: what it is about is in the focus, and the issue of a bundle is that of the bundle fetched. -/
def State.actOf (s : State) (a : Act) (rest : List Act) : State × Instr :=
  ({ s.tick a.after with agenda := rest, focus := a.focus }, if a.instr.isSlot then .bundleIssue else a.instr)

/-- Where the words of a fabric message that arrives come from (R376): module, core and context of a message's sender; of a response the module and
core that answer, the core being 0x3FF for an access, which a station answers (log 34). -/
def State.arrivalParty (s : State) (a : Act) : Option Nat :=
  match a.instr with
  | .fabricMessageDelivery | .fabricResponse | .spillWrite =>
    (s.fabric[a.focus.i]?).map fun m =>
      if m.resp.isNone then m.away.getD s.mod * 2 ^ 12 + m.core * 4 + m.ctx
      else if fabKind m.header = 0 then fabMod m.header * 2 ^ 12 + fabCore m.header * 4 + fabCtx m.header
      else paMod (s.fabPa m) * 2 ^ 12 + 0x3FF * 4
  | _ => none

/-- The acts that start a reset of an interface: VI_RESET, and the physical function's write of VICTL that says so (R396, R400). -/
def Act.resets (a : Act) : Bool :=
  a.instr = .viReset
    || (a.instr = .registerWrite && a.focus.v % 64 = 0 && a.focus.d = 0 && a.focus.o < 0x40_0000 && a.focus.o % 0x10000 = 0 && a.focus.w.getLsbD 3)

/-- The order that the rules give the acts of one clk, by their kinds: the reset of an interface before its packets (R397); the ends of expert
fills before pins, and those before fill starts (R318); a check of a Guyline's tags before they advance (R312); a frame's pins, the pager's
choices, then the ends of claims and of fills (R199; pins fall at the clk's end); progress before the limits of a watchdog (R176); and the bank
allocators (R264). -/
def Act.rank (a : Act) : Nat :=
  if a.resets then 0
  else
    match a.instr with
    | .expertFillComplete | .expertFillFail | .ldhCheck => 1
    | .expertFillStart => 3
    | .pagerFillStart => 4
    | .claimComplete | .pageFillComplete | .nvmeFailure => 5
    | .watchdogPre | .watchdogKill | .watchdogFence => 6
    | .bankGrant => 7
    | _ => 2

/-- Of two acts of one clk, the first comes before the second, whatever the agenda says: by their ranks; bundles in the order of ascending cores
(R152); and arriving words in that of their senders (R376). -/
def State.actBefore (s : State) (a b : Act) : Bool :=
  let issue : Act → Bool := fun a => a.instr.isSlot || a.instr = .bundleIssue
  a.rank < b.rank || (issue a && issue b && a.focus.c < b.focus.c)
    || match s.arrivalParty a, s.arrivalParty b with | some m, some n => m < n | _, _ => false

/-- The place of the act that is next among those of one clk: the first that none of the others comes before. -/
def State.nextAct (s : State) (l : List Act) : Nat := (l.findIdx? fun b => !(l.any fun a => s.actBefore a b)).getD 0

/-- What the next step executes, and the state it executes it in: the next act of the agenda, or, with no act given, a switch that is due
on the core in the focus, or the bundle of its next cycle. -/
def State.upcoming (s : State) : State × Instr :=
  match s.agenda with
  | a :: rest =>
    let now := a :: rest.takeWhile fun b => b.after = 0
    let k := s.nextAct now
    let b := now.getD k a
    s.actOf { b with after := a.after } ((now.eraseIdx k).map (fun e => { e with after := 0 }) ++ rest.dropWhile fun b => b.after = 0)
  | [] =>
    if (s.switchDue s.focus.c).isSome then (s, .contextSwitch)
    else
      let s := s.tick 1
      match s.solo? s.focus.c with
      | some i => (s.fetches s.focus.c, i)
      | none => (s, .bundleIssue)

/-- The bytes of the bundle that holds in slot 0 the move whose bits are w, its data slots as far as w gives them, and
never-moves in the other slots. -/
def soloBytes (nbits w : Nat) : List Byte :=
  let w := w % 2 ^ nbits
  let own := 1 + match (slotSrc (BitVec.ofNat 24 w)) with
    | 0x1FE => if slotGuard (BitVec.ofNat 24 w) = 0b10000#5 then 0 else 1
    | 0x1FF => if slotGuard (BitVec.ofNat 24 w) = 0b10000#5 then 0 else 2
    | _ => 0
  natBytes (3 * own) w ++ (List.replicate (8 - own) (natBytes 3 0x800000)).flatten

/-- The code window of a bare worker: 2 MiB from address 0 of die 0 of this module's HBM, readable, writable and executable (R186). -/
def bareWindow (mod : Nat) : Window :=
  { index := 0, vbase := 0, target := mod * 2 ^ 29, lsize := 21, r := true, w := true, x := true, ro := false
    place := 0, paged := false, nvme := false, hdie := 0 }

/-- A worker with a code window and nothing else, for a bundle that no launch has brought. -/
def bareWorker (s : State) (code : CodeView) : Worker :=
  { uid := 0, launch := 0, vi := 0, code := code
    rcd := { counts := [0, 0, 0, 0], trip := 1, kend := BitVec.allOnes 47, regs := 7, accs := 15, tiles := 0xFFFF }
    wins := [bareWindow s.mod], die := 0, dieRank := 0, modRank := 0, phase := .iteration, dieFirst := 0, dieSize := 1
    coreFirst := 0, coreSize := 1, dp := 0, cp := 0, it := 0, stage := none, move := none, walk := none }

/-- Replaces the code of a context's worker. -/
def Ctx.withCode (t : Ctx) (v : CodeView) : Ctx := { t with worker := t.worker.map fun w => { w with code := v } }

/-- A bundle's bytes stored where the core in the focus fetches next: in the code of its running worker, or in that of a bare worker
in its context 0 where no bundle is to be fetched. -/
def State.putBundle (s : State) (bs : List Byte) : State :=
  let c := s.focus.c
  let found := match s.fetching c with
    | some (x, w) =>
      match s.bundleLocs c w (s.ctx c x).pc with
      | .ok ls =>
        let pas := ls.filterMap s.resolve
        if pas.length = 24 then some (x, pas) else none
      | .error _ => none
    | none => none
  match found with
  | some (x, pas) =>
    let m := memPut s.mem (pas.zip bs)
    { s.updCtx c x fun t => t.withCode { s.codeView with mem := m } with mem := m }
  | none =>
    let m := memWrite s.mem (s.mod * 2 ^ 50) bs
    let t : Ctx := { worker := some (bareWorker s { mem := m }), tiles := 0xFFFF, accs := 15 }
    { s.setCore c { (s.core c).setCtx 0 t with running := some 0, lastWorker := some 0, stall := 0, fenced := false } with mem := m }

end Sys2Proof.Machine
end

