-- ==== Sys2Proof/Machine/Step.lean ====
section
/-!
DEFINITION. One step of the module (log 1): the next act of the agenda, or, with no act given, one clk of the core in the focus.
-/

namespace Sys2Proof.Machine

open Host

/-- One step. -/
def step (s : State) : Host.Outcome State Fault Refusal :=
  let (t, i) := s.upcoming
  if s.down && i != .coldReset then .fault .poweredDown else exec i t

/-- The bundle that holds the row's word alone, stored where the next step fetches. -/
def State.withFetchWord (s : State) (nbits w : Nat) : State :=
  { s with agenda := [] }.putBundle (soloBytes nbits w)

end Sys2Proof.Machine
end

