-- ==== Sys2Proof/Safety.lean ====
section
/-!
DEFINITION. What counts as a safe run, and the terms in which the statements speak of a step: when a core issues a context's bundle, what
the bundle leaves of the context, and what else it leaves alone.
-/

namespace Sys2Proof

/-- A run of n steps from a state reaches a next state: neither a fault nor a refusal of the model has ended it. -/
def SafeRun (n : Nat) (s : Machine.State) : Prop := ∃ t, core.run n s = .next t

namespace Machine

/-- The core that a step is about. -/
def State.at (s : State) : Core := s.core s.focus.c

/-- Context x of the core in the focus, as the cycle of its next bundle finds it: the results due have been delivered (R19). -/
def State.begun (s : State) (x : Nat) : Ctx := (s.ctx s.focus.c x).begin

/-- The core in the focus is to issue the next bundle of its running context x, which holds worker w, its limiter is off, and no eret has the
bundle skipped (R24, R25, R131, R179, R346). -/
structure Issuing (s : State) (x : Nat) (w : Worker) : Prop where
  inCore : x < 4
  unfenced : s.at.fenced = false
  noStall : s.at.stall = 0
  runs : s.at.running = some x
  noLimit : s.at.clim.1 = false
  same : s.at.lastWorker = some w.uid ∨ s.at.paid = some w.uid
  holds : (s.ctx s.focus.c x).worker = some w
  runnable : (s.ctx s.focus.c x).runnable = true
  noStep : (s.ctx s.focus.c x).stepDue = false
  noKill : (s.ctx s.focus.c x).killReq = none
  running : w.phase ≠ .done ∧ w.phase ≠ .waiting
  acts : (s.ctx s.focus.c x).asNever = false

/-- No fault of a context is pending, no divide is busy, and at most 16 of the 24 results it may have are outstanding (R17, R121, R244,
R276). -/
structure Calm (t : Ctx) : Prop where
  store : t.storeFault = none
  copy : t.copyFault = none
  nan : t.mxnanPend = false
  drained : t.drainFirst = false
  moves : t.asNever = false
  divide : t.divBusy = 0
  results : t.snap.length ≤ 16

/-- The fetch decision after a context's next bundle goes to the bundle that follows it (R66): no transfer is pending, no loop level is
armed or about to be, the nullifier is off, and the bundle is not the last of its phase. -/
structure Straight (t : Ctx) : Prop where
  noTransfer : t.xfer = []
  noChange : t.changes = []
  noLoop : ∀ l, l < 4 → (lvl t.loops l).armed = false
  noNull : t.ctl.nullen = 0
  notLast : t.pc ≠ t.fin

/-- A source gives v and takes p from the queues (R11, R21, R86, R155); a register that it names is in the context's allotment (R9). -/
structure Gives (s : State) (x : Nat) (src : Src) (v : VWord) (p : PopSt) : Prop where
  reads : s.readSrc (s.begun x) { seed := (s.begun x).ctl.seed } src = (.val v, p)
  allotted : ∀ i, src = .g i → i.toNat < (s.begun x).nregs

/-- The next bundle of context x issues, a move in it with guard g acts, and its source gives v and takes p. -/
structure Fires (s : State) (x : Nat) (w : Worker) (g : Guard) (src : Src) (v : VWord) (p : PopSt) : Prop where
  issuing : Issuing s x w
  calm : Calm (s.begun x)
  straight : Straight (s.begun x)
  guarded : (s.begun x).guard g = true
  gives : Gives s x src v p

/-- The state in which the cycle examines the bundle of context x: the results due have been delivered (R19). -/
def State.atBundle (s : State) (x : Nat) : State := s.beginBundle s.focus.c x

/-- The state in which the moves of a bundle act: what the bundle pops has been taken (R21). -/
def State.popped (s : State) (x : Nat) (p : PopSt) : State := (s.atBundle x).takePops s.focus.c x p

/-- What a bundle that takes p from the LDQ and the receive FIFO leaves of a context: SEED has moved on with its conversions (R7, R79). -/
def Ctx.took (t : Ctx) (p : PopSt) : Ctx :=
  { t with ldq := t.ldq.drop p.ldq, recvF := t.recvF.drop p.frecv, ctl := { t.ctl with seed := p.seed } }

/-- The context in which the moves of a bundle act. -/
def State.front (s : State) (x : Nat) (p : PopSt) : Ctx := (s.begun x).took p

/-- What a trigger that stands alone sees: the context as the bundle finds it, and its latches (R18). -/
def State.env (s : State) (x : Nat) : Env :=
  { c := s.focus.c, x := x, t0 := s.begun x, lat := (s.begun x).lat, ldqf := (s.begun x).ctl.ldqf }

/-- NFS after a bundle whose pops have converted: set where a conversion was not faithful (R56, R87). -/
def Ctx.noted (t : Ctx) (n : Bool) : Ctx := { t with ctl := { t.ctl with nfs := if n then t.ctl.nfs ||| 1 else t.ctl.nfs } }

/-- A context after the issue cycle of a bundle that has changed it to t (R16, R19, R23, R66): fetch is at the bundle that follows, and every
outstanding result is one cycle nearer. -/
def Ctx.passed (t : Ctx) : Ctx :=
  { t with pc := t.pc + 1, nul := false, snap := countDown t.snap, divBusy := t.divBusy - 1, awaiting := [], blocked := 0, tokDone := false
           hasBlocked := false, resumed := false, asNever := false, stepDue := t.ctl.step.getLsbD 0 }

/-- From s to t nothing has changed but context x of the core in the focus, which has become f, what the core and its launch are charged, and
the worker that issued last (R25, R172, R179): no byte of memory, no other context or core, no die, queue or interface. -/
structure Only (s t : State) (x : Nat) (w : Worker) (f : Ctx) : Prop where
  core : t.core s.focus.c = { (s.core s.focus.c).setCtx x f with window := (t.core s.focus.c).window, lastWorker := some w.uid }
  cores : ∀ d, d ≠ s.focus.c → t.core d = s.core d
  rest : t = { s with cores := t.cores, launches := t.launches, energyMsgs := t.energyMsgs }
  launches : t.launches.map (fun l => { l with charge := 0 }) = s.launches.map fun l => { l with charge := 0 }
  messages : s.energyMsgs <+: t.energyMsgs

/-- A blocked cycle of context x of the core in the focus (R23): its count of blocked cycles has risen, and the core's charge window has taken a
cycle; nothing else has changed from s to t, but that the results due at the end of the last issue cycle are delivered. -/
structure Stalls (s t : State) (x : Nat) : Prop where
  core : t.core s.focus.c = { (s.core s.focus.c).setCtx x { s.begun x with blocked := (s.begun x).blocked + 1, hasBlocked := true } with
    window := (t.core s.focus.c).window }
  cores : ∀ d, d ≠ s.focus.c → t.core d = s.core d
  rest : t = { s with cores := t.cores }

/-- A result that an operation starts: its port, its value, its latency and its flags (R16, R19). -/
def Ctx.starts (t : Ctx) (r : ResPort) (v : VWord) (lat : Nat) (flags : BitVec 2) : Ctx :=
  { t with snap := t.snap ++ [{ port := r, val := v, left := lat, flags := flags }] }

end Machine

end Sys2Proof
end

