-- ==== Sys2Proof/Certificates/Slice0/Obligations.lean ====
section
/-!
DEFINITION. The statements for the provers. Tables in the namespace Sys2Proof.Claims name the rows that a statement is about, and give what
the spec says each computes.
-/

-- One after another: side by side they take too much memory.
set_option Elab.async false

open Sys2Proof Sys2Proof.Machine

namespace Sys2Proof.Claims

/-! ## Places of workers -/

/-- Worker uid has started in context x of core c, and is in no other context; no core stands twice in the list of cores. -/
def stands (s : State) (uid c x : Nat) : Prop :=
  x < 4 ∧ (s.ctx c x).isWorker uid = true ∧ (s.ctx c x).starting = false ∧ (∀ d y, y < 4 → (s.ctx d y).isWorker uid = true → d = c ∧ y = x)
    ∧ (s.cores.map (·.1)).Nodup

/-- Every context but x of core c is as it was. -/
def others (s t : State) (c x : Nat) : Prop := ∀ d y, d ≠ c ∨ y ≠ x → t.ctx d y = s.ctx d y

/-! ## Moves, pops, pushes -/

/-- The rows that move a source to a register or a latch, with guard, source and destination (R11, R33-R36, R86, R155, R376). -/
def moveRow (i : Instr) : Option (Guard × Src × Dst) :=
  match i with
  | .move g src d => some (g, src, d)
  | .limm24 g x d => some (g, .limm24 x, d)
  | .limm48 g x d => some (g, .limm48 x, d)
  | .ldq g d => some (g, .ldq, d)
  | .vldq g d => some (g, .vldq, d)
  | .frecv g d => some (g, .frecv, d)
  | .qp g h d => some (g, .qp h, d)
  | .qv g h d => some (g, .qv h, d)
  | _ => none

/-- A context once a move has written v to d, cut or zero-extended to the width of d (R10, R11). -/
def moved (t : Ctx) (d : Dst) (v : VWord) : Ctx :=
  match d with
  | .g i => { t with g := vset t.g i.toNat (v.truncate 64) }
  | .p i => { t with p := if i = 0 then t.p else if v.getLsbD 0 then t.p ||| (1#16 <<< i.toNat) else t.p &&& ~~~(1#16 <<< i.toNat) }
  | .v i => { t with v := vset t.v i.toNat v }
  | .k i => { t with k := if i = 0 then t.k else vset t.k i.toNat (v.truncate 256) }
  | .pk => { t with p := v.truncate 16 ||| 1 }
  | .lr => { t with lr := v.truncate 64 }
  | .latch (.tc i) => if t.tiles.getLsbD i.toNat then { t with lat := t.lat.put (.tc i) v } else t
  | .latch l => { t with lat := t.lat.put l v }

/-- The rows that push, with guard, source and queue (R118, R372, R374). -/
def pushRow (i : Instr) : Option (Guard × Src × PushTo) :=
  match i with
  | .sd g src => some (g, src, .sd)
  | .vsd g src => some (g, src, .vsd)
  | .fsend g src => some (g, src, .fsend)
  | .fsendh g src => some (g, src, .fsendh)
  | _ => none

/-- The payload words that a fabric header calls for, by its kind, n and aop (R372, R373). -/
def fabOwed (h : Word) : Nat :=
  if h.extractLsb' 60 4 = 0 then (h.extractLsb' 51 5).toNat
  else if h.extractLsb' 60 4 = 1 then 1
  else if h.extractLsb' 60 4 = 2 then 1 + (h.extractLsb' 51 5).toNat
  else if h.extractLsb' 60 4 = 3 then (if h.extractLsb' 46 4 = 7 then 3 else 2)
  else 0

/-! ## The scalar units -/

/-- A truth value as 0 or 1. -/
def bit (b : Bool) : Word := if b then 1 else 0

/-- The low w bits of b, sign-extended. -/
def sx (b : Word) (w : Nat) : Word := (b.truncate w : BitVec w).signExtend 64

/-- The rows of ia0 and ia1, with guard, source, unit and R48's result of a and b. -/
def iaRow (i : Instr) : Option (Guard × Src × BitVec 1 × (Word → Word → Word)) :=
  match i with
  | .add g s u => some (g, s, u, fun a b => a + b)
  | .sub g s u => some (g, s, u, fun a b => a - b)
  | .add32 g s u => some (g, s, u, fun a b => sx (a + b) 32)
  | .sub32 g s u => some (g, s, u, fun a b => sx (a - b) 32)
  | .and g s u => some (g, s, u, fun a b => a &&& b)
  | .or g s u => some (g, s, u, fun a b => a ||| b)
  | .xor g s u => some (g, s, u, fun a b => a ^^^ b)
  | .andn g s u => some (g, s, u, fun a b => a &&& ~~~b)
  | .shl g s u => some (g, s, u, fun a b => a <<< (b.toNat % 64))
  | .shr g s u => some (g, s, u, fun a b => a >>> (b.toNat % 64))
  | .sar g s u => some (g, s, u, fun a b => BitVec.ofInt 64 (a.toInt / 2 ^ (b.toNat % 64)))
  | .rol g s u => some (g, s, u, fun a b => (a <<< (b.toNat % 64)) ||| (a >>> (64 - b.toNat % 64)))
  | .min g s u => some (g, s, u, fun a b => if a.toInt ≤ b.toInt then a else b)
  | .max g s u => some (g, s, u, fun a b => if a.toInt ≤ b.toInt then b else a)
  | .minu g s u => some (g, s, u, fun a b => if a.toNat ≤ b.toNat then a else b)
  | .maxu g s u => some (g, s, u, fun a b => if a.toNat ≤ b.toNat then b else a)
  | .seq g s u => some (g, s, u, fun a b => bit (a = b))
  | .sne g s u => some (g, s, u, fun a b => bit (a ≠ b))
  | .slt g s u => some (g, s, u, fun a b => bit (a.toInt < b.toInt))
  | .sltu g s u => some (g, s, u, fun a b => bit (a.toNat < b.toNat))
  | .sle g s u => some (g, s, u, fun a b => bit (a.toInt ≤ b.toInt))
  | .sleu g s u => some (g, s, u, fun a b => bit (a.toNat ≤ b.toNat))
  | .sext8 g s u => some (g, s, u, fun _ b => sx b 8)
  | .sext16 g s u => some (g, s, u, fun _ b => sx b 16)
  | .sext32 g s u => some (g, s, u, fun _ b => sx b 32)
  | .zext32 g s u => some (g, s, u, fun _ b => b &&& 0xFFFFFFFF)
  | .clz g s u => some (g, s, u, fun _ b => BitVec.ofNat 64 ((List.range 64).takeWhile fun k => !b.getLsbD (63 - k)).length)
  | .ctz g s u => some (g, s, u, fun _ b => BitVec.ofNat 64 ((List.range 64).takeWhile fun k => !b.getLsbD k).length)
  | .popc g s u => some (g, s, u, fun _ b => BitVec.ofNat 64 ((List.range 64).filter fun k => b.getLsbD k).length)
  | .sh1add g s u => some (g, s, u, fun a b => 2 * a + b)
  | .sh2add g s u => some (g, s, u, fun a b => 4 * a + b)
  | .sh3add g s u => some (g, s, u, fun a b => 8 * a + b)
  | .pass g s u => some (g, s, u, fun _ b => b)
  | .bext g s u => some (g, s, u, fun a b => BitVec.ofNat 64 (a.toNat / 2 ^ (b.toNat % 64) % 2 ^ (b.toNat / 64 % 64 + 1)))
  | _ => none

/-- The quotient and the remainder of the signed divide (R52). -/
def sdiv (a b : Word) : Int × Int :=
  if b = 0 then (-1, a.toInt) else (a.toInt.tdiv b.toInt, a.toInt - b.toInt * a.toInt.tdiv b.toInt)

/-- The quotient and the remainder of the unsigned divide (R52). -/
def udiv (a b : Word) : Nat × Nat := if b = 0 then (2 ^ 64 - 1, a.toNat) else (a.toNat / b.toNat, a.toNat % b.toNat)

/-- The rows of im, with guard, source, latency and R51's and R52's result of a and b. -/
def imRow (i : Instr) : Option (Guard × Src × Nat × (Word → Word → Word)) :=
  match i with
  | .mul g s => some (g, s, 3, fun a b => BitVec.ofNat 64 (a.toNat * b.toNat))
  | .mulh g s => some (g, s, 3, fun a b => (a.signExtend 128 * b.signExtend 128).extractLsb' 64 64)
  | .mulhu g s => some (g, s, 3, fun a b => (a.zeroExtend 128 * b.zeroExtend 128).extractLsb' 64 64)
  | .mul32 g s => some (g, s, 3, fun a b => sx a 32 * sx b 32)
  | .div g s => some (g, s, 18, fun a b => BitVec.ofInt 64 (sdiv a b).1)
  | .divu g s => some (g, s, 18, fun a b => BitVec.ofNat 64 (udiv a b).1)
  | .rem g s => some (g, s, 18, fun a b => BitVec.ofInt 64 (sdiv a b).2)
  | .remu g s => some (g, s, 18, fun a b => BitVec.ofNat 64 (udiv a b).2)
  | _ => none

/-- The low half of an operand as an FP32 value (R54). -/
def single (w : Word) : XR := f32.decode (w.toNat % 2 ^ 32)

/-- An operand as an FP64 value (R54). -/
def double (w : Word) : XR := f64.decode w.toNat

/-- A result of fa that has been rounded, and how it is extended to 64 bits. -/
abbrev FaOp := Word → Word → Word → RMode → Word → Rounded

/-- The exact result of an FP32 or FP64 operation, rounded once (R55, R56). -/
def once (f : Fp) (go : Word → Word → Word → RV) : FaOp := fun x y t m seed => f.round m seed (go x y t)

/-- A code that no rounding makes: it draws nothing; NFS is due where it is a value that is not finite, and the row may deliver one (R56,
R57). -/
def pick (may : Bool) (go : Word → Word → Nat) : FaOp := fun x _ t _ seed =>
  { bits := go x t, nfs := may && !(f32.decode (go x t)).isFin, inexact := false, seed := seed }

/-- The rows of fa, with guard, source, latency and R54-R58's result: x from fa.o, y from fa.p, t the trigger value. -/
def faRow (i : Instr) : Option (Guard × Src × Nat × FaOp) :=
  match i with
  | .fadd g s => some (g, s, 4, once f32 fun x _ t => ((single x).add (single t)).toRV)
  | .fsub g s => some (g, s, 4, once f32 fun x _ t => ((single x).sub (single t)).toRV)
  | .fmul g s => some (g, s, 4, once f32 fun x _ t => ((single x).mul (single t)).toRV)
  | .ffma g s => some (g, s, 4, once f32 fun x y t => (((single x).mul (single y)).add (single t)).toRV)
  | .fmin g s => some (g, s, 4, pick true fun x t => pickMin f32 (x.toNat % 2 ^ 32) (t.toNat % 2 ^ 32))
  | .fmax g s => some (g, s, 4, pick true fun x t => pickMax f32 (x.toNat % 2 ^ 32) (t.toNat % 2 ^ 32))
  | .feq g s => some (g, s, 4, pick false fun x t => if (single x).eq (single t) then 1 else 0)
  | .flt g s => some (g, s, 4, pick false fun x t => if (single x).lt (single t) then 1 else 0)
  | .fle g s => some (g, s, 4, pick false fun x t => if (single x).le (single t) then 1 else 0)
  | .fun g s => some (g, s, 4, pick false fun x t => if (single x).isNaN || (single t).isNaN then 1 else 0)
  | .fsqrt g s => some (g, s, 12, once f32 fun _ _ t => (single t).sqrt)
  | .frcp g s => some (g, s, 12, once f32 fun _ _ t => (single t).rcp)
  | .fcvti g s => some (g, s, 4, fun _ _ t m seed =>
      let r := roundToInt 32 true m seed (single t).toRV
      { r with bits := ((BitVec.ofNat 32 r.bits).signExtend 64).toNat })
  | .icvtf g s => some (g, s, 4, once f32 fun _ _ t => (XR.ofInt t.toInt).toRV)
  | .dadd g s => some (g, s, 6, once f64 fun x _ t => ((double x).add (double t)).toRV)
  | .dsub g s => some (g, s, 6, once f64 fun x _ t => ((double x).sub (double t)).toRV)
  | .dmul g s => some (g, s, 6, once f64 fun x _ t => ((double x).mul (double t)).toRV)
  | .dfma g s => some (g, s, 6, once f64 fun x y t => (((double x).mul (double y)).add (double t)).toRV)
  | .fcvtd g s => some (g, s, 6, once f64 fun _ _ t => (single t).toRV)
  | .dcvtf g s => some (g, s, 6, once f32 fun _ _ t => (double t).toRV)
  | _ => none

/-- A context in which a vector operation of unit u has started its results: the vector, the mask, the scalar, each where the operation names its
port, with the flags it sets (R91). -/
def vecStarts (t : Ctx) (u : BitVec 1) (lat : Nat) (r : VRes) : Ctx :=
  let fl : BitVec 2 := (if r.nfs then 1 else 0) ||| (if r.sclamp then 2 else 0)
  let t := match r.v with | some y => t.starts (.vuV u) y lat fl | none => t
  let t := match r.m with | some y => t.starts (.vuM u) (y.zeroExtend 2048) lat fl | none => t
  match r.s with
  | some y => t.starts (.vuS u) (y.zeroExtend 2048) lat fl
  | none => t

/-- The rows of vu0 and vu1, with guard, source, unit, the latencies under an integer and a floating-point VFMT (R16), whether .v, .m and .s
are written (R92), and what they compute of their operands (R88-R107). -/
def vecRow (i : Instr) : Option (Guard × Src × BitVec 1 × Nat × Nat × (Bool × Bool × Bool) × (VArgs → VRes)) :=
  match i with
  | .vu0Vadd g s => some (g, s, 0, 2, 4, (true, false, false), (vArith (fun a _ t => a.add t) (fun a _ t => a + t)))
  | .vu0Vsub g s => some (g, s, 0, 2, 4, (true, false, false), (vArith (fun a _ t => a.sub t) (fun a _ t => a - t)))
  | .vu0Vmul g s => some (g, s, 0, 2, 4, (true, false, false), (vArith (fun a _ t => a.mul t) (fun a _ t => a * t)))
  | .vu0Vfma g s => some (g, s, 0, 2, 4, (true, false, false), (vArith XR.fma (fun a b t => a * b + t)))
  | .vu0Vmin g s => some (g, s, 0, 2, 4, (true, false, false), (vPick pickMin fun t a => t < a))
  | .vu0Vmax g s => some (g, s, 0, 2, 4, (true, false, false), (vPick pickMax fun t a => a < t))
  | .vu0Vabs g s => some (g, s, 0, 2, 4, (true, false, false), (vUnary XR.abs fun n => (n.natAbs : Int)))
  | .vu0Vneg g s => some (g, s, 0, 2, 4, (true, false, false), (vUnary XR.neg fun n => -n))
  | .vu0Vceq g s => some (g, s, 0, 2, 2, (false, true, true), (vCompare XR.eq fun a t => a = t))
  | .vu0Vclt g s => some (g, s, 0, 2, 2, (false, true, true), (vCompare XR.lt fun a t => a < t))
  | .vu0Vcle g s => some (g, s, 0, 2, 2, (false, true, true), (vCompare XR.le fun a t => a ≤ t))
  | .vu0Vcun g s => some (g, s, 0, 2, 2, (false, true, true), (vCompare (fun a t => a.isNaN || t.isNaN) fun _ _ => false))
  | .vu0Vsel g s => some (g, s, 0, 2, 2, (true, false, false), vSelect)
  | .vu0Vand g s => some (g, s, 0, 2, 2, (true, false, false), (vLogic fun a t => a &&& t))
  | .vu0Vor g s => some (g, s, 0, 2, 2, (true, false, false), (vLogic fun a t => a ||| t))
  | .vu0Vxor g s => some (g, s, 0, 2, 2, (true, false, false), (vLogic fun a t => a ^^^ t))
  | .vu0Vshl g s => some (g, s, 0, 2, 2, (true, false, false), (vShift fun _ b d => b <<< d))
  | .vu0Vshr g s => some (g, s, 0, 2, 2, (true, false, false), (vShift fun _ b d => b >>> d))
  | .vu0Vsar g s => some (g, s, 0, 2, 2, (true, false, false), (vShift sarBits))
  | .vu0Vcvt g s => some (g, s, 0, 4, 4, (true, false, true), vConvert)
  | .vu0Vbcast g s => some (g, s, 0, 2, 2, (true, false, false), vBcast)
  | .vu0Vextr g s => some (g, s, 0, 2, 2, (false, false, true), vExtract)
  | .vu0Vperm g s => some (g, s, 0, 2, 2, (true, false, false), vPermute)
  | .vu0Vredadd g s => some (g, s, 0, 4, 4, (false, false, true), vReduceAdd)
  | .vu0Vredmax g s => some (g, s, 0, 4, 4, (false, false, true), (vReduce pickMax fun q p => p < q))
  | .vu0Vredmin g s => some (g, s, 0, 4, 4, (false, false, true), (vReduce pickMin fun q p => q < p))
  | .vu0Vexp2 g s => some (g, s, 0, 8, 8, (true, false, false), (vTrans exp2RV))
  | .vu0Vlog2 g s => some (g, s, 0, 8, 8, (true, false, false), (vTrans log2RV))
  | .vu0Vrcp g s => some (g, s, 0, 8, 8, (true, false, false), (vTrans XR.rcp))
  | .vu0Vrsqrt g s => some (g, s, 0, 8, 8, (true, false, false), (vTrans rsqrtRV))
  | .vu0Vtanh g s => some (g, s, 0, 8, 8, (true, false, false), (vTrans tanhRV))
  | .vu0Vquant g s => some (g, s, 0, 6, 6, (true, true, true), vQuant)
  | .vu0Vdeq g s => some (g, s, 0, 4, 4, (true, false, true), vDequant)
  | .vu0Vnf g s => some (g, s, 0, 4, 4, (false, true, true), vNonFinite)
  | .vu0Vscan g s => some (g, s, 0, 4, 4, (true, false, true), vScan)
  | .vu0Vtopk g s => some (g, s, 0, 4, 4, (true, true, true), vTopk)
  | .vu0Vidx g s => some (g, s, 0, 2, 2, (true, false, false), vIndex)
  | .vu1Vadd g s => some (g, s, 1, 2, 4, (true, false, false), (vArith (fun a _ t => a.add t) (fun a _ t => a + t)))
  | .vu1Vsub g s => some (g, s, 1, 2, 4, (true, false, false), (vArith (fun a _ t => a.sub t) (fun a _ t => a - t)))
  | .vu1Vmul g s => some (g, s, 1, 2, 4, (true, false, false), (vArith (fun a _ t => a.mul t) (fun a _ t => a * t)))
  | .vu1Vfma g s => some (g, s, 1, 2, 4, (true, false, false), (vArith XR.fma (fun a b t => a * b + t)))
  | .vu1Vmin g s => some (g, s, 1, 2, 4, (true, false, false), (vPick pickMin fun t a => t < a))
  | .vu1Vmax g s => some (g, s, 1, 2, 4, (true, false, false), (vPick pickMax fun t a => a < t))
  | .vu1Vabs g s => some (g, s, 1, 2, 4, (true, false, false), (vUnary XR.abs fun n => (n.natAbs : Int)))
  | .vu1Vneg g s => some (g, s, 1, 2, 4, (true, false, false), (vUnary XR.neg fun n => -n))
  | .vu1Vceq g s => some (g, s, 1, 2, 2, (false, true, true), (vCompare XR.eq fun a t => a = t))
  | .vu1Vclt g s => some (g, s, 1, 2, 2, (false, true, true), (vCompare XR.lt fun a t => a < t))
  | .vu1Vcle g s => some (g, s, 1, 2, 2, (false, true, true), (vCompare XR.le fun a t => a ≤ t))
  | .vu1Vcun g s => some (g, s, 1, 2, 2, (false, true, true), (vCompare (fun a t => a.isNaN || t.isNaN) fun _ _ => false))
  | .vu1Vsel g s => some (g, s, 1, 2, 2, (true, false, false), vSelect)
  | .vu1Vand g s => some (g, s, 1, 2, 2, (true, false, false), (vLogic fun a t => a &&& t))
  | .vu1Vor g s => some (g, s, 1, 2, 2, (true, false, false), (vLogic fun a t => a ||| t))
  | .vu1Vxor g s => some (g, s, 1, 2, 2, (true, false, false), (vLogic fun a t => a ^^^ t))
  | .vu1Vshl g s => some (g, s, 1, 2, 2, (true, false, false), (vShift fun _ b d => b <<< d))
  | .vu1Vshr g s => some (g, s, 1, 2, 2, (true, false, false), (vShift fun _ b d => b >>> d))
  | .vu1Vsar g s => some (g, s, 1, 2, 2, (true, false, false), (vShift sarBits))
  | .vu1Vcvt g s => some (g, s, 1, 4, 4, (true, false, true), vConvert)
  | .vu1Vbcast g s => some (g, s, 1, 2, 2, (true, false, false), vBcast)
  | .vu1Vextr g s => some (g, s, 1, 2, 2, (false, false, true), vExtract)
  | .vu1Vperm g s => some (g, s, 1, 2, 2, (true, false, false), vPermute)
  | .vu1Vredadd g s => some (g, s, 1, 4, 4, (false, false, true), vReduceAdd)
  | .vu1Vredmax g s => some (g, s, 1, 4, 4, (false, false, true), (vReduce pickMax fun q p => p < q))
  | .vu1Vredmin g s => some (g, s, 1, 4, 4, (false, false, true), (vReduce pickMin fun q p => q < p))
  | .vu1Vexp2 g s => some (g, s, 1, 8, 8, (true, false, false), (vTrans exp2RV))
  | .vu1Vlog2 g s => some (g, s, 1, 8, 8, (true, false, false), (vTrans log2RV))
  | .vu1Vrcp g s => some (g, s, 1, 8, 8, (true, false, false), (vTrans XR.rcp))
  | .vu1Vrsqrt g s => some (g, s, 1, 8, 8, (true, false, false), (vTrans rsqrtRV))
  | .vu1Vtanh g s => some (g, s, 1, 8, 8, (true, false, false), (vTrans tanhRV))
  | .vu1Vquant g s => some (g, s, 1, 6, 6, (true, true, true), vQuant)
  | .vu1Vdeq g s => some (g, s, 1, 4, 4, (true, false, true), vDequant)
  | .vu1Vnf g s => some (g, s, 1, 4, 4, (false, true, true), vNonFinite)
  | .vu1Vscan g s => some (g, s, 1, 4, 4, (true, false, true), vScan)
  | .vu1Vtopk g s => some (g, s, 1, 4, 4, (true, true, true), vTopk)
  | .vu1Vidx g s => some (g, s, 1, 2, 2, (true, false, false), vIndex)
  | _ => none

/-! ## Control -/

/-- The transfers of cu, with guard, source, target of PC_B, t and lr, and whether lr is written (R60, R61). -/
def transferRow (i : Instr) : Option (Guard × Src × (BIndex → Word → Word → BIndex) × Bool) :=
  match i with
  | .br g s => some (g, s, fun _ t _ => t.truncate 47, false)
  | .brr g s => some (g, s, fun b t _ => b + t.truncate 47, false)
  | .call g s => some (g, s, fun _ t _ => t.truncate 47, true)
  | .callr g s => some (g, s, fun b t _ => b + t.truncate 47, true)
  | .ret g s => some (g, s, fun _ _ lr => lr.truncate 47, false)
  | _ => none

/-- A context with one more pending transfer, whose two delay bundles are still to issue (R26, R63). -/
def pending (t : Ctx) (target : BIndex) (eret : Option (BitVec 1)) : Ctx :=
  { t with xfer := t.xfer ++ [{ target := target, left := 2, eret := eret }] }

/-- A context with a change of a loop level registered, for the bundles at the third fetch position and beyond (R65, R68). -/
def changing (t : Ctx) (level : BitVec 2) (armed : Bool) (n : BitVec 32) : Ctx :=
  { t with changes := t.changes ++ [{ level := level, armed := armed, c := n, left := 2 }] }

/-- A loop level of a context, that a trigger may change: it has an entry, and no user handler is active (R65, R68, R344). -/
def mayChange (t : Ctx) (level : BitVec 2) : Bool := (lvl t.loops level.toNat).valid && t.handler.isNone

end Sys2Proof.Claims

/-! ## Statements about one bundle of one move -/

/-- R21, R32: a move whose guard is false reads, pops, pushes, triggers and writes nothing, whatever its row: its bundle takes its issue cycle and fetch goes on; only
the context's counts of that cycle change. A bundle of never-moves does the same, whatever their other bits hold. -/
def Obligations.FalseGuardsAndNeverMovesPass : Prop :=
  (∀ (i : Instr) (g : Guard) (src : Src) (a : MoveAct) (s : State) (x : Nat) (w : Worker), moveOf i = some (g, src, a) →
      Issuing s x w → Calm (s.begun x) → Straight (s.begun x) → (s.begun x).guard g = false →
      (soloMove g src a).check (s.begun x).nregs false = none →
      ∃ t, exec i s = .next t ∧ Only s t x w (s.begun x).passed)
  ∧ ∀ (a : BitVec 9) (b : BitVec 10) (s : State) (x : Nat) (w : Worker), Issuing s x w → Calm (s.begun x) → Straight (s.begun x) →
      ∃ t, exec (.neverMove a b) s = .next t ∧ Only s t x w (s.begun x).passed

/-- R10, R11: a move, a long immediate or a pop writes its value, cut or zero-extended, to its destination and nothing else. A destination g
register lies in the allotment (R9), and a write to g[SPREG] is not below SLIM (R15). -/
def Obligations.MovesWriteTheirDestination : Prop :=
  ∀ (i : Instr) (g : Guard) (src : Src) (d : Dst) (s : State) (x : Nat) (w : Worker) (v : VWord) (p : PopSt), Claims.moveRow i = some (g, src, d) →
    Fires s x w g src v p → (∀ k, d = .g k → k.toNat < (s.begun x).nregs ∧ (k = (s.begun x).ctl.spreg → (s.begun x).ctl.slim.toNat ≤ v.toNat % 2 ^ 64)) →
    ∃ t, exec i s = .next t ∧ Only (s.popped x p) t x w ((Claims.moved (s.front x p) d v).noted p.nfs).passed

/-- R15: a move to g[SPREG] of a value below SLIM takes STACK, and the register is not written: with no user handler enabled the context goes to the system context,
which runs next, and every byte of memory is as it was. R9: a move that names a g register at or above the allotment, as source or as destination, takes
REGBOUND whatever its guard's predicate gives, and with UTVEC enabled the context goes to its user handler: the trap word names the cause, the
register and the bundle (R343). Both bundles have made no close of a scope: one that has takes no trap (R145; the model's reading, log 71). -/
def Obligations.RegisterChecksTrap : Prop :=
  (∀ (g : Guard) (src : Src) (s : State) (x : Nat) (w : Worker) (v : VWord) (p : PopSt),
      Fires s x w g src v p → (s.begun x).closing = false → (s.begun x).ctl.spreg.toNat < (s.begun x).nregs → v.toNat % 2 ^ 64 < (s.begun x).ctl.slim.toNat →
      (s.begun x).ctl.utvec.getLsbD 0 = false →
      ∃ t, exec (.move g src (.g (s.begun x).ctl.spreg)) s = .next t ∧ (t.core s.focus.c).running = some 4 ∧ t.mem = s.mem
        ∧ (t.ctx s.focus.c x).g = (s.begun x).g ∧ (t.ctx s.focus.c x).sys.map (·.cause) = some .stack
        ∧ (t.ctx s.focus.c x).sys.map (·.pc) = some (s.begun x).pc ∧ (t.ctx s.focus.c x).ldq = (s.begun x).ldq)
  ∧ ∀ (g : Guard) (src : Src) (d : Dst) (s : State) (x : Nat) (w : Worker) (k : BitVec 6),
      g ≠ 0b10000#5 → Issuing s x w → (s.begun x).closing = false → (src = .g k ∨ (d = .g k ∧ ∀ j, src ≠ .g j)) → (s.begun x).nregs ≤ k.toNat →
      (s.begun x).ctl.utvec.getLsbD 0 = true → (s.begun x).handler = none →
      ∃ t, exec (.move g src d) s = .next t ∧ t.mem = s.mem ∧ (t.ctx s.focus.c x).pc = (s.begun x).ctl.utvec.extractLsb' 1 47
        ∧ (t.ctx s.focus.c x).port.sy = BitVec.ofNat 64 (4 * 2 ^ 59 + k.toNat * 2 ^ 47 + (s.begun x).pc.toNat)
        ∧ (t.ctx s.focus.c x).g = (s.begun x).g ∧ (t.ctx s.focus.c x).handler.map (·.pc) = some (s.begun x).pc

/-- R38, R118, R372, R374: sd and vsd add an entry at the end of the SDQ, numbered by the pushes before it; fsend and fsendh add a word at the
end of the send FIFO, and a header opens a message that awaits the words its fields call for. There is room, and a payload word that is
a message's address passes its lookup. -/
def Obligations.PushesAppend : Prop :=
  ∀ (i : Instr) (g : Guard) (src : Src) (q : PushTo) (s : State) (x : Nat) (w : Worker) (v : VWord) (p : PopSt), Claims.pushRow i = some (g, src, q) →
    Fires s x w g src v p → (q = .sd ∨ q = .vsd → (s.begun x).sdq.length < 32) → (q = .fsend ∨ q = .fsendh → (s.begun x).sendF.length < 128) →
    sendTrap (s.env x) (s.atBundle x) (s.begun x).sendOpen q v = none →
    ∃ (t : State) (f : Ctx), exec i s = .next t ∧ Only (s.popped x p) t x w (f.noted p.nfs).passed ∧
      match q with
      | .sd => f = { s.front x p with sdq := (s.begun x).sdq ++ [{ num := (s.begun x).pushes, vec := false, data := (v.truncate 64 : Word).zeroExtend 2048 }], pushes := (s.begun x).pushes + 1 }
      | .vsd => f = { s.front x p with sdq := (s.begun x).sdq ++ [{ num := (s.begun x).pushes, vec := true, data := v }], pushes := (s.begun x).pushes + 1 }
      | .fsend => (∃ l, f = { s.front x p with sendF := (s.begun x).sendF ++ [{ isHeader := false, word := v.truncate 64, loc := l }], sendOpen := f.sendOpen })
          ∧ f.sendOpen.map (·.owed) = ((s.begun x).sendOpen.bind fun m => if m.owed ≤ 1 then none else some (m.owed - 1))
      | .fsendh => (∃ l, f = { s.front x p with sendF := (s.begun x).sendF ++ [{ isHeader := true, word := v.truncate 64, loc := l }], sendOpen := f.sendOpen })
          ∧ f.sendOpen.map (·.owed) = (if Claims.fabOwed (v.truncate 64) = 0 then none else some (Claims.fabOwed (v.truncate 64)))

/-- R47-R49: an operation of ia0 or ia1 delivers R48's result of its .o latch and the trigger value to the unit's .r port with latency 1, sets
no flag, and changes nothing else. -/
def Obligations.IntegerUnitsDeliver : Prop :=
  ∀ (i : Instr) (g : Guard) (src : Src) (u : BitVec 1) (f : Word → Word → Word) (s : State) (x : Nat) (w : Worker) (v : VWord) (p : PopSt),
    Claims.iaRow i = some (g, src, u, f) → Fires s x w g src v p →
    ∃ t, exec i s = .next t ∧ Only (s.popped x p) t x w
      (((s.front x p).starts (.ia u) ((f (s.begun x).lat.iaO[u.toNat] (v.truncate 64)).zeroExtend 2048) 1 0).noted p.nfs).passed

/-- R51-R53: an operation of im delivers R51's or R52's result to im.r, a multiply with latency 3 and a divide with latency 18; a divide holds im busy for 18 issue
cycles, its own among them. A trigger of im while a divide is busy takes UNITBUSY: the divide's count and its outstanding result stay as they are (a bundle that has made a close of a scope takes no trap: the model's reading of R145, log 71). -/
def Obligations.MultiplyDivideDeliver : Prop :=
  (∀ (i : Instr) (g : Guard) (src : Src) (lat : Nat) (f : Word → Word → Word) (s : State) (x : Nat) (w : Worker) (v : VWord) (p : PopSt),
      Claims.imRow i = some (g, src, lat, f) → Fires s x w g src v p →
      ∃ t, exec i s = .next t ∧ Only (s.popped x p) t x w
        ((({ s.front x p with divBusy := if lat = 18 then 18 else 0 } : Ctx).starts .im
          ((f (s.begun x).lat.imO (v.truncate 64)).zeroExtend 2048) lat 0).noted p.nfs).passed)
  ∧ ∀ (i : Instr) (g : Guard) (src : Src) (lat : Nat) (f : Word → Word → Word) (s : State) (x : Nat) (w : Worker),
      Claims.imRow i = some (g, src, lat, f) → Issuing s x w → (s.begun x).closing = false → (s.begun x).divBusy ≠ 0 → (s.begun x).asNever = false →
      (s.begun x).guard g = true → (∀ k, src = .g k → k.toNat < (s.begun x).nregs) →
      ∃ t, exec i s = .next t ∧ (t.core s.focus.c).running = some 4 ∧ (t.ctx s.focus.c x).sys.map (·.cause) = some .unitbusy
        ∧ (t.ctx s.focus.c x).snap = (s.begun x).snap ∧ (t.ctx s.focus.c x).divBusy = (s.begun x).divBusy ∧ t.mem = s.mem

/-- R54-R59: an operation of fa delivers its result to fa.r with R55's latency, rounded once under RM from SEED; SEED moves on at the end of the
bundle, and NFS is set at delivery where the result calls for it. -/
def Obligations.FloatUnitDelivers : Prop :=
  ∀ (i : Instr) (g : Guard) (src : Src) (lat : Nat) (f : Claims.FaOp) (s : State) (x : Nat) (w : Worker) (v : VWord) (p : PopSt),
    Claims.faRow i = some (g, src, lat, f) → Fires s x w g src v p →
    ∃ t r, r = f (s.begun x).lat.faO (s.begun x).lat.faP (v.truncate 64) (s.begun x).ctl.rm p.seed ∧ exec i s = .next t ∧
      Only (s.popped x p) t x w
        ((({ s.front x p with ctl := { (s.begun x).ctl with seed := r.seed } } : Ctx).starts .fa
          ((BitVec.ofNat 64 r.bits).zeroExtend 2048) lat (if r.nfs then 1 else 0)).noted p.nfs).passed

/-- R59, R88-R92: an operation of vu0 or vu1 delivers what it computes to the ports R92 names, with the latency of VFMT's class at the trigger; its
operands are the unit's latches, VFMT and RM at the bundle's start, and SEED, which moves on at the end of the bundle. The lanes of vand, vor, vxor and vperm are the model's reading (log 13). -/
def Obligations.VectorUnitsDeliver : Prop :=
  ∀ (i : Instr) (g : Guard) (src : Src) (u : BitVec 1) (li lf : Nat) (ports : Bool × Bool × Bool)
    (f : VArgs → VRes) (s : State) (x : Nat) (w : Worker) (v : VWord) (p : PopSt),
    Claims.vecRow i = some (g, src, u, li, lf, ports, f) → Fires s x w g src v p →
    ∃ t r, r = f { a := (s.begun x).lat.vuO[u.toNat], b := (s.begun x).lat.vuP[u.toNat], k := (s.begun x).lat.vuK[u.toNat], t := v
                   fmt := (s.begun x).ctl.vfmt, rm := (s.begun x).ctl.rm, seed := p.seed }
      ∧ (r.v.isSome, r.m.isSome, r.s.isSome) = ports ∧ exec i s = .next t ∧
      Only (s.popped x p) t x w
        ((Claims.vecStarts ({ s.front x p with ctl := { (s.begun x).ctl with seed := r.seed } } : Ctx) u
          (if fmtIsFp (s.begun x).ctl.vfmt then lf else li) r).noted p.nfs).passed

/-- R60, R61, R63: a control transfer pends its target behind two delay bundles; call and callr write lr with the index of the third bundle that
follows, which is three on where fetch goes straight. Fetch itself goes on to the next bundle. R65, R68, R344: loop registers the arming of a level with the
count in cu.o, lbrk its disarming, for the bundles at the third fetch position and beyond, and with v[2] lbrk is a transfer past the level's end; a level
with no entry is left alone, and so is every level while a user handler is active. -/
def Obligations.TransfersAndLoopsRegister : Prop :=
  (∀ (i : Instr) (g : Guard) (src : Src) (f : BIndex → Word → Word → BIndex) (link : Bool) (s : State) (x : Nat) (w : Worker) (v : VWord)
      (p : PopSt), Claims.transferRow i = some (g, src, f, link) → Fires s x w g src v p →
      ∃ t lr, exec i s = .next t ∧ Only (s.popped x p) t x w
          (({ Claims.pending (s.front x p) (f (s.begun x).pc (v.truncate 64) (s.begun x).lr) none with lr := lr } : Ctx).noted p.nfs).passed
        ∧ (link = false → lr = (s.begun x).lr)
        ∧ (link = true → lr = ((s.begun x).pc + 3).zeroExtend 64))
  ∧ ∀ (g : Guard) (src : Src) (s : State) (x : Nat) (w : Worker) (v : VWord) (p : PopSt) (l : BitVec 2), Fires s x w g src v p → l = v.truncate 2 →
      (∃ t, exec (.loop g src) s = .next t ∧ Only (s.popped x p) t x w
        ((if Claims.mayChange (s.begun x) l then Claims.changing (s.front x p) l true ((s.begun x).lat.cuO.truncate 32)
          else s.front x p).noted p.nfs).passed)
      ∧ ∃ t, exec (.lbrk g src) s = .next t ∧ Only (s.popped x p) t x w
        ((if Claims.mayChange (s.begun x) l then
            (if v.getLsbD 2 then Claims.pending (Claims.changing (s.front x p) l false 0) ((lvl (s.begun x).loops l.toNat).last + 1) none
             else Claims.changing (s.front x p) l false 0)
          else s.front x p).noted p.nfs).passed

/-- R14: ctlr delivers the control register that the low 6 bits name, as it stands at the bundle's start, to sy.r with latency 1; ctlw writes sy.o to it, masked to its
fields, at the end of the bundle. R12: a write changes no read-only and no unassigned register, and reads of the latter give zero; it keeps the bits of a
field and no others; a write of NFS clears the bits that are 1 in it. -/
def Obligations.ControlRegistersReadAndWrite : Prop :=
  (∀ (g : Guard) (src : Src) (s : State) (x : Nat) (w : Worker) (v : VWord) (p : PopSt), Fires s x w g src v p →
      (∃ t, exec (.ctlr g src) s = .next t ∧ Only (s.popped x p) t x w
        (((s.front x p).starts .sy (((s.begun x).ctlRead s.focus.c x (v.toNat % 64)).zeroExtend 2048) 1 0).noted p.nfs).passed)
      ∧ ∃ t, exec (.ctlw g src) s = .next t ∧ Only (s.popped x p) t x w
        (({ s.front x p with ctl := (s.front x p).ctl.write (v.toNat % 64) (s.begun x).lat.syO } : Ctx).noted p.nfs).passed)
  ∧ ∀ (k : Control) (v : Word) (t : Ctx) (c x : Nat),
      (∀ n, n = 9 ∨ n = 10 ∨ 12 ≤ n → k.write n v = k)
      ∧ (∀ n, 13 ≤ n → t.ctlRead c x n = 0)
      ∧ ({ t with ctl := k.write 1 v } : Ctx).ctlRead c x 1 = v &&& 3
      ∧ ({ t with ctl := k.write 3 v } : Ctx).ctlRead c x 3 = k.nfs.zeroExtend 64 &&& ~~~v
      ∧ ({ t with ctl := k.write 4 v } : Ctx).ctlRead c x 4 = v
      ∧ ({ t with ctl := k.write 5 v } : Ctx).ctlRead c x 5 = v &&& 0x3F
      ∧ ({ t with ctl := k.write 6 v } : Ctx).ctlRead c x 6 = v &&& 0xFFFFFFFFFFFF
      ∧ ({ t with ctl := k.write 7 v } : Ctx).ctlRead c x 7 = v &&& 1
      ∧ ({ t with ctl := k.write 8 v } : Ctx).ctlRead c x 8 = v &&& 0xFFFF

/-- R133, R346: yield marks its context for a switch after the commit; eret, while a user handler of the context is active, is a transfer behind two delay bundles with
its t[0], and has no effect otherwise. What its redirect leaves: the trapping bundle is next, the held results, transfers and loop changes are back,
the handler's own are gone, and with t[0] the bundle issues once as never-moves. -/
def Obligations.YieldAndEretCommit : Prop :=
  (∀ (g : Guard) (src : Src) (s : State) (x : Nat) (w : Worker) (v : VWord) (p : PopSt), Fires s x w g src v p →
      (∃ t, exec (.yield g src) s = .next t ∧ Only (s.popped x p) t x w (({ s.front x p with yielded := true } : Ctx).noted p.nfs).passed)
      ∧ ∃ t, exec (.eret g src) s = .next t ∧ Only (s.popped x p) t x w
        ((if (s.begun x).handler.isSome then Claims.pending (s.front x p) 0 (some (v.truncate 1)) else s.front x p).noted p.nfs).passed)
  ∧ ∀ (t : Ctx) (tr : Trap) (b : BitVec 1) (u : Ctx), t.handler = none → u = (t.enterUser tr) →
      ∀ (snap : List Pend) (xs : List Transfer) (cs : List LoopChange) (n : Nat),
        ({ u with snap := snap, xfer := xs, changes := cs, divBusy := n } : Ctx).leaveUser b
          = { t with port := u.port, nul := false, resumed := true, asNever := b == 1 }

/-- R339, R341-R343, R345: sy.trap raises BREAK with info t[8:0]. The bundle has no effect; with UTVEC enabled and no handler active the context goes
to its handler with the trap word in sy.r, what it had outstanding being held for the eret, and otherwise to the system context. Entry costs six
cycles, the trapping one among them. A guarded-off sy.trap raises nothing, and `#3 -> sy.trap` is 0x050F47. A bundle that has made a close of a scope takes no trap: the model's reading of R145
(log 71). -/
def Obligations.BreakTakesItsTrap : Prop :=
  (∀ (g : Guard) (src : Src) (s : State) (x : Nat) (w : Worker) (v : VWord) (p : PopSt), Fires s x w g src v p → (s.begun x).closing = false →
      ∃ t, exec (.trap g src) s = .next t ∧ t.mem = s.mem ∧ (t.core s.focus.c).stall = 5 ∧ (t.ctx s.focus.c x).g = (s.begun x).g ∧
        (t.ctx s.focus.c x).ldq = (s.begun x).ldq ∧
        if (s.begun x).ctl.utvec.getLsbD 0 && (s.begun x).handler.isNone then
          (t.core s.focus.c).running = some x
          ∧ (t.ctx s.focus.c x).pc = (s.begun x).ctl.utvec.extractLsb' 1 47
          ∧ (t.ctx s.focus.c x).port.sy = BitVec.ofNat 64 (14 * 2 ^ 59 + v.toNat % 512 * 2 ^ 47 + (s.begun x).pc.toNat)
          ∧ (t.ctx s.focus.c x).handler.map (fun h => (h.pc, h.snap, h.xfer, h.changes)) = some ((s.begun x).pc, (s.begun x).snap, (s.begun x).xfer, (s.begun x).changes)
          ∧ (t.ctx s.focus.c x).snap = [] ∧ (t.ctx s.focus.c x).xfer = []
        else
          (t.core s.focus.c).running = some 4
          ∧ (t.ctx s.focus.c x).sys.map (fun y => (y.cause, y.pc)) = some (.brk, (s.begun x).pc) ∧ (t.ctx s.focus.c x).pc = (s.begun x).pc)
  ∧ (∀ (g : Guard) (src : Src) (a : MoveAct) (s : State) (x : Nat) (w : Worker), moveOf (.trap g src) = some (g, src, a) → Issuing s x w → Calm (s.begun x) →
      Straight (s.begun x) → (s.begun x).guard g = false → (soloMove g src a).check (s.begun x).nregs false = none →
      ∃ t, exec (.trap g src) s = .next t ∧ Only s t x w (s.begun x).passed)
  ∧ decodeTableWord 24 0x050F47 = some (.trap 0 (.short 0x43))


namespace Sys2Proof.Claims

/-! ## Accesses -/

/-- V of au.o and the trigger value (R109). -/
def vbase (a t : Word) : Nat := (a.toNat + t.toNat) % 2 ^ 48

/-- The image length of au.x, and its element code (R110). -/
def imgLen (x : Word) : Nat := if x.toNat % 512 = 0 ∨ 256 < x.toNat % 512 then 256 else x.toNat % 512
def esCode (x : Word) : Nat := x.toNat / 2 ^ 24 % 8

/-- The bytes lo to hi - 1 of an image at v: the exact address of each, and its place. -/
def run (v lo hi : Nat) : List (Int × Nat) := (List.range (hi - lo)).map fun i => (((v + lo + i : Nat) : Int), lo + i)

/-- The bytes of a strided image (R114). -/
def strided (v : Nat) (x : Word) : List (Int × Nat) :=
  (List.range (imgLen x / 2 ^ (esCode x - 1))).flatMap fun (k : Nat) => (List.range (2 ^ (esCode x - 1))).map fun (j : Nat) =>
    ((v : Int) + (k : Int) * (x.extractLsb' 32 32 : BitVec 32).toInt + (j : Int), k * 2 ^ (esCode x - 1) + j)

/-- The image of vld and vst (R110, R114). -/
def vectorImage (v : Nat) (x : Word) : List (Int × Nat) := if esCode x = 0 ∨ 4 < esCode x then run v 0 (imgLen x) else strided v x

/-- The first active byte of vldm and vstm (R110). -/
def firstByte (x : Word) : Nat := x.toNat / 512 % 512

/-- The loads whose image is known at their trigger: guard, source, kind of entry, image of V and au.x, length (R111, R113, R114). -/
def loadRow (i : Instr) : Option (Guard × Src × Bool × (Nat → Word → List (Int × Nat)) × (Word → Nat)) :=
  match i with
  | .ld8 g s => some (g, s, false, fun v _ => run v 0 1, fun _ => 1)
  | .ld16 g s => some (g, s, false, fun v _ => run v 0 2, fun _ => 2)
  | .ld32 g s => some (g, s, false, fun v _ => run v 0 4, fun _ => 4)
  | .ld64 g s => some (g, s, false, fun v _ => run v 0 8, fun _ => 8)
  | .vld g s => some (g, s, true, vectorImage, imgLen)
  | .vldm g s => some (g, s, true, fun v x => run v (firstByte x) (imgLen x), imgLen)
  | _ => none

/-- The stores whose bytes are known at their trigger: guard, source, image of V and au.x, whether a mask entry is claimed too (R111, R119). -/
def storeRow (i : Instr) : Option (Guard × Src × (Nat → Word → List (Int × Nat)) × (Word → Bool)) :=
  match i with
  | .st8 g s => some (g, s, fun v _ => run v 0 1, fun _ => false)
  | .st16 g s => some (g, s, fun v _ => run v 0 2, fun _ => false)
  | .st32 g s => some (g, s, fun v _ => run v 0 4, fun _ => false)
  | .st64 g s => some (g, s, fun v _ => run v 0 8, fun _ => false)
  | .vst g s => some (g, s, vectorImage, fun _ => false)
  | .vstm g s => some (g, s, fun v x => run v (firstByte x) (imgLen x), fun x => x.getLsbD 31)
  | _ => none

/-- The scalar loads and stores. -/
def scalarRow (i : Instr) : Option (Guard × Src) :=
  match i with
  | .ld8 g s | .ld16 g s | .ld32 g s | .ld64 g s | .st8 g s | .st16 g s | .st32 g s | .st64 g s => some (g, s)
  | _ => none

/-- The read-modify-write operations, with guard, source and operation (R217). -/
def amoRow (i : Instr) : Option (Guard × Src × AmoOp) :=
  match i with
  | .amoadd g s => some (g, s, .add)
  | .amomin g s => some (g, s, .min)
  | .amomax g s => some (g, s, .max)
  | .amoand g s => some (g, s, .and)
  | .amoor g s => some (g, s, .or)
  | .amoxor g s => some (g, s, .xor)
  | .amoswp g s => some (g, s, .swp)
  | .amocas g s => some (g, s, .cas)
  | .amofadd g s => some (g, s, .fadd)
  | _ => none

/-- The scope that a word names in bits 2:0: the code 7 reads as 6 (R203). -/
def scope (t : Word) : BitVec 3 := if t.toNat % 8 = 7 then 6 else t.truncate 3

/-- The width of an amo, and its aligned address (R217). -/
def amoW (o : AmoOp) (t : Word) : Nat := if o ≠ .fadd ∧ t.getLsbD 63 then 8 else 4
def amoA (o : AmoOp) (a t : Word) : Nat := vbase a t - vbase a t % amoW o t

/-- The lookup at a trigger finds nothing to report (R112): no byte is looked up, or every byte lies between two of them and that whole span
in one window that gives the permission. -/
def spanOk (s : State) (x : Nat) (addrs : List Int) (need : Need) : Prop :=
  addrs = [] ∨ ∃ lo ∈ addrs, ∃ hi ∈ addrs, (∀ a ∈ addrs, lo ≤ a ∧ a ≤ hi) ∧ s.lookup s.focus.c (s.begun x) lo hi need = none

/-- A context whose LAQ has one more load-type request, which claims k SDQ entries (R108, R111, R123). -/
def asks (t : Ctx) (r : LoadReq) (k : Nat) : Ctx :=
  { t with laq := t.laq ++ [{ r with seq := t.seq }], seq := t.seq + 1, claims := t.claims + k
           cnt := { t.cnt with loads := t.cnt.loads + 1, stores := if k = 0 then t.cnt.stores else t.cnt.stores + 1 } }

/-- A context whose SAQ has one more item, which claims k SDQ entries (R108, R111, R118, R123). -/
def stores (t : Ctx) (op : StoreOp) (va k : Nat) : Ctx :=
  { t with saq := t.saq ++ [{ seq := t.seq, va := va, op := op, claim := t.claims, nclaim := k }], seq := t.seq + 1, claims := t.claims + k
           cnt := { t.cnt with stores := t.cnt.stores + 1 } }

/-- The rows that take a place in the SAQ and claim no SDQ entry: guard, source, item and address of the latches and the trigger value (R213,
R239, R290, R321). -/
def itemRow (i : Instr) : Option (Guard × Src × (Latches → Word → StoreOp × Nat)) :=
  match i with
  | .rel g s => some (g, s, fun l t => (.rel (scope t), l.syO.toNat % 2 ^ 48 / 64 * 64))
  | .bini g s => some (g, s, fun l t => (.bini (t.truncate 16), l.ceO.toNat % 2 ^ 48 / 32 * 32))
  | .bexp g s => some (g, s, fun l t => (.bexp (t.truncate 48), l.ceO.toNat % 2 ^ 48 / 32 * 32))
  | .barr g s => some (g, s, fun l t => (.barr (scope t), l.ceO.toNat % 2 ^ 48 / 32 * 32))
  | .gvobs g s => some (g, s, fun l t => (.gvobs (t.toNat % 4096) (t.extractLsb' 12 2) (l.xuO.truncate 32), 0))
  | .xscore g s => some (g, s, fun l t => (.xscore, vbase l.xuO t / 64 * 64))
  | _ => none

/-- The lookup that a row makes at its trigger reports nothing. -/
def looked (i : Instr) (s : State) (x : Nat) (v : VWord) : Prop :=
  ∀ g src tr, moveOf i = some (g, src, .trig tr) → tr.check (s.env x) (s.atBundle x) v = none


/-! ## Waits -/

/-- A count is at most a limit, 0xF being no condition (R124). -/
def atMost (n m : Nat) : Prop := m = 15 ∨ n ≤ m

/-- The rows that write nothing and only wait: guard, source and what they wait for (R124, R134, R149, R214, R309). -/
def waitRow (i : Instr) : Option (Guard × Src × (State → Nat → Nat → Ctx → Word → Prop)) :=
  match i with
  | .wait g s => some (g, s, fun _ _ _ t v => (∀ j, j < 8 → v.getLsbD (16 + j) = true → (vget t.tok j {}).count = 0)
      ∧ atMost t.cnt.loads (v.toNat / 2 ^ 12 % 16) ∧ atMost t.cnt.stores (v.toNat / 2 ^ 8 % 16) ∧ atMost t.cnt.copies (v.toNat / 2 ^ 4 % 16)
      ∧ atMost t.cnt.tiles (v.toNat % 16))
  | .park g s => some (g, s, fun u _ _ t v => v.toNat % 256 = 0
      ∨ (∃ h, h < 4 ∧ v.getLsbD h = true ∧ ∃ k q, u.handleQueue t h = some (k, q) ∧ 0 < if k.output then q.room else q.present)
      ∨ (v.getLsbD 4 = true ∧ t.recvF ≠ []) ∨ (v.getLsbD 5 = true ∧ t.tokDone = true) ∨ (v.getLsbD 6 = true ∧ t.storeFault ≠ none))
  | .fsw g s => some (g, s, fun u _ _ _ v => u.scopeLive (v.truncate 16) = false)
  | .gwait g s => some (g, s, fun u c _ t v => ∀ d n o, u.gridOf c t (v.toNat % 4) = some (d, n, o) →
      if v.getLsbD 2 then ∃ m, o.sent = some m ∧ t.lat.xuO.toNat % 2 ^ 32 ≤ m
      else ∀ r ∈ gridRegions o.raw, ∃ m, o.tags.getD r none = some m ∧ t.lat.xuO.toNat % 2 ^ 32 ≤ m)
  | _ => none

end Sys2Proof.Claims

/-! ## Statements about accesses -/

/-- R108-R114: a load whose lookup passes joins the LAQ with the bytes it reads, its kind, its length and LDQF's pair, and is counted; its
entry comes to the LDQ later. No register, port or byte of memory changes. -/
def Obligations.LoadsJoinTheLaq : Prop :=
  ∀ (i : Instr) (g : Guard) (src : Src) (vec : Bool) (img : Nat → Word → List (Int × Nat)) (len : Word → Nat) (s : State) (x : Nat) (w : Worker)
    (v : VWord) (p : PopSt) (a : Nat), Claims.loadRow i = some (g, src, vec, img, len) → Fires s x w g src v p →
    a = Claims.vbase (s.begun x).lat.auO (v.truncate 64) → (s.begun x).laq.length < 32 →
    Claims.spanOk s x ((img a (s.begun x).lat.auX).map (·.1)) .read →
    ∃ t eb, exec i s = .next t ∧ Only (s.popped x p) t x w
      ((Claims.asks (s.front x p) { seq := 0, op := .plain, va := a, img := img a (s.begun x).lat.auX, eb := eb, len := len (s.begun x).lat.auX
                                    vec := vec, pair := (s.begun x).ctl.ldqf } 0).noted p.nfs).passed

/-- R111, R112, R118, R119: a store whose lookup passes joins the SAQ with the bytes it is to write and claims its SDQ entries; nothing is
written yet. -/
def Obligations.StoresJoinTheSaq : Prop :=
  ∀ (i : Instr) (g : Guard) (src : Src) (img : Nat → Word → List (Int × Nat)) (mk : Word → Bool) (s : State) (x : Nat) (w : Worker)
    (v : VWord) (p : PopSt) (a : Nat), Claims.storeRow i = some (g, src, img, mk) → Fires s x w g src v p →
    a = Claims.vbase (s.begun x).lat.auO (v.truncate 64) → (s.begun x).saq.length < 32 →
    Claims.spanOk s x ((img a (s.begun x).lat.auX).map (·.1)) .write →
    ∃ t eb, exec i s = .next t ∧ Only (s.popped x p) t x w
      ((Claims.stores (s.front x p) (.plain (img a (s.begun x).lat.auX) eb (mk (s.begun x).lat.auX)) a
        (if mk (s.begun x).lat.auX then 2 else 1)).noted p.nfs).passed

/-- R115, R119: vldg and vsts join their queues with the base, the index block and the number of elements; the block of 4n bytes is looked up for reading. R195, R311:
ldblk joins the LAQ with its lines and its direction at its address with bits 6:0 cleared, ldh as a contiguous vector load with its step and its
handle. -/
def Obligations.WideAccessesJoinTheirQueues : Prop :=
  (∀ (g : Guard) (src : Src) (s : State) (x : Nat) (w : Worker) (v : VWord) (p : PopSt) (eb n : Nat), Fires s x w g src v p →
      eb = (if 1 ≤ Claims.esCode (s.begun x).lat.auX ∧ Claims.esCode (s.begun x).lat.auX ≤ 4 then 2 ^ (Claims.esCode (s.begun x).lat.auX - 1) else 4) →
      n = Claims.imgLen (s.begun x).lat.auX / eb →
      Claims.spanOk s x ((Claims.run (v.toNat % 2 ^ 48) 0 (4 * n)).map (·.1)) .read →
      ((s.begun x).laq.length < 32 → ∃ t, exec (.vldg g src) s = .next t ∧ Only (s.popped x p) t x w
        ((Claims.asks (s.front x p) { seq := 0, op := .gather ((s.begun x).lat.auO.toNat % 2 ^ 48) (v.toNat % 2 ^ 48) n eb false
                                      va := (s.begun x).lat.auO.toNat % 2 ^ 48, img := [], eb := eb, len := Claims.imgLen (s.begun x).lat.auX
                                      vec := true, pair := (s.begun x).ctl.ldqf } 0).noted p.nfs).passed)
      ∧ ((s.begun x).saq.length < 32 → ∃ t, exec (.vsts g src) s = .next t ∧ Only (s.popped x p) t x w
        ((Claims.stores (s.front x p) (.scatter ((s.begun x).lat.auO.toNat % 2 ^ 48) (v.toNat % 2 ^ 48) n eb)
          ((s.begun x).lat.auO.toNat % 2 ^ 48) 1).noted p.nfs).passed))
  ∧ ∀ (g : Guard) (src : Src) (s : State) (x : Nat) (w : Worker) (v : VWord) (p : PopSt) (a b n : Nat), Fires s x w g src v p →
      a = Claims.vbase (s.begun x).lat.auO (v.truncate 64) → b = a - a % 128 → n = (s.begun x).lat.auX.toNat % 64 + 1 →
      (s.begun x).laq.length < 32 →
      (s.lookup s.focus.c (s.begun x) (b : Nat) ((b + 128 * n - 1 : Nat) : Int) .read = none →
        ∃ t, exec (.ldblk g src) s = .next t ∧ Only (s.popped x p) t x w
          ((Claims.asks (s.front x p) { seq := 0, op := .ldblk ((s.begun x).lat.auX.getLsbD 7) n, va := b, img := [], eb := 8, len := 8
                                        vec := false, pair := 0 } 0).noted p.nfs).passed)
      ∧ (Claims.spanOk s x ((Claims.run a 0 (Claims.imgLen (s.begun x).lat.auX)).map (·.1)) .read →
        ∃ t eb, exec (.ldh g src) s = .next t ∧ Only (s.popped x p) t x w
          ((Claims.asks (s.front x p)
            { seq := 0, op := .ldh ((s.begun x).lat.auX.extractLsb' 32 32) ((s.begun x).lat.auX.extractLsb' 24 2) none, va := a
              img := Claims.run a 0 (Claims.imgLen (s.begun x).lat.auX), eb := eb, len := Claims.imgLen (s.begun x).lat.auX
              vec := true, pair := (s.begun x).ctl.ldqf } 0).noted p.nfs).passed)

/-- R203, R217, R218: an amo joins the LAQ at its aligned address with its width and scope, claims its operands, counts as a load and as a store, and
its entry is scalar with the raw pair. -/
def Obligations.AmosJoinTheLaq : Prop :=
  ∀ (i : Instr) (g : Guard) (src : Src) (o : AmoOp) (s : State) (x : Nat) (w : Worker) (v : VWord) (p : PopSt) (a n : Nat),
    Claims.amoRow i = some (g, src, o) → Fires s x w g src v p → n = Claims.amoW o (v.truncate 64) →
    a = Claims.amoA o (s.begun x).lat.auO (v.truncate 64) → (s.begun x).laq.length < 32 →
    s.lookup s.focus.c (s.begun x) (a : Nat) ((a + n - 1 : Nat) : Int) .both = none →
    ∃ t, exec i s = .next t ∧ Only (s.popped x p) t x w
      ((Claims.asks (s.front x p) { seq := 0, op := .amo o n (Claims.scope (s.begun x).lat.auX) (s.begun x).claims 0 0, va := a, img := Claims.run a 0 n
                                    eb := n, len := n, vec := false, pair := 0 } (if o = .cas then 2 else 1)).noted p.nfs).passed

/-- R112: a scalar load or store of which the lowest byte lies in no window takes WINDOW at that byte, whatever the queues hold: nothing is queued, and with no
user class for WINDOW the system context runs next. A bundle that has made a close of a scope takes no trap (R145; the model's reading, log 71). -/
def Obligations.AccessesOutsideWindowsTrap : Prop :=
  ∀ (i : Instr) (g : Guard) (src : Src) (s : State) (x : Nat) (w : Worker) (v : VWord) (p : PopSt) (a : Nat),
    Claims.scalarRow i = some (g, src) →
    Fires s x w g src v p → (s.begun x).closing = false → a = Claims.vbase (s.begun x).lat.auO (v.truncate 64) → findWindow (s.begun x).wins (a : Nat) = none →
    ∃ t, exec i s = .next t ∧ (t.core s.focus.c).running = some 4 ∧ t.mem = s.mem
      ∧ (t.ctx s.focus.c x).sys.map (fun y => (y.cause, y.addr)) = some (.window, a)
      ∧ (t.ctx s.focus.c x).laq = (s.begun x).laq ∧ (t.ctx s.focus.c x).saq = (s.begun x).saq ∧ (t.ctx s.focus.c x).cnt = (s.begun x).cnt

/-- R108, R213, R239, R290, R321: rel, bini, bexp, barr, gvobs and xscore take a place in the SAQ, count as stores and claim no SDQ entry; what they do is
done at the head. -/
def Obligations.ItemsJoinTheSaq : Prop :=
  ∀ (i : Instr) (g : Guard) (src : Src) (f : Latches → Word → StoreOp × Nat) (s : State) (x : Nat) (w : Worker) (v : VWord) (p : PopSt),
    Claims.itemRow i = some (g, src, f) → Fires s x w g src v p → (s.begun x).saq.length < 32 → Claims.looked i s x v →
    ∃ t, exec i s = .next t ∧ Only (s.popped x p) t x w
      ((Claims.stores (s.front x p) (f (s.begun x).lat (v.truncate 64)).1 (f (s.begun x).lat (v.truncate 64)).2 0).noted p.nfs).passed

/-- R23: a bundle whose pop finds its queue short blocks, whatever its move does: for that cycle the core freezes, and no count, port, register,
queue or byte of memory changes but the count of blocked cycles. -/
def Obligations.ShortQueuesBlock : Prop :=
  ∀ (i : Instr) (g : Guard) (src : Src) (act : MoveAct) (s : State) (x : Nat) (w : Worker) (q : PopSt), moveOf i = some (g, src, act) →
    Issuing s x w → Calm (s.begun x) → (s.begun x).guard g = true → (soloMove g src act).check (s.begun x).nregs false = none →
    s.readSrc (s.begun x) { seed := (s.begun x).ctl.seed } src = (.wait, q) → (∀ tr, act = .trig tr → tr.results (s.begun x) ≤ 8) →
    ∃ t, exec i s = .next t ∧ Stalls s t x

/-- R124, R134, R149, R309: wait, park, fsw and gwait block, cycle by cycle, until what they wait for holds; then they issue, write no port and change
nothing. R203, R214: a fence issues once every earlier access of its context is performed at its scope and, from scope 4 on, every line of the die's
remote-data cache may go, as it then does; scope 0 waits for nothing. It blocks until then: from scope 4 on the lines that are clean go at once (R193, R208). -/
def Obligations.WaitsAndFencesIssueWhenSatisfied : Prop :=
  (∀ (i : Instr) (g : Guard) (src : Src) (f : State → Nat → Nat → Ctx → Word → Prop) (s : State) (x : Nat) (w : Worker) (v : VWord) (p : PopSt),
      Claims.waitRow i = some (g, src, f) → Fires s x w g src v p →
      (f (s.atBundle x) s.focus.c x (s.begun x) (v.truncate 64) →
        ∃ t, exec i s = .next t ∧ Only (s.popped x p) t x w ((s.front x p).noted p.nfs).passed)
      ∧ (¬ f (s.atBundle x) s.focus.c x (s.begun x) (v.truncate 64) → ∃ t, exec i s = .next t ∧ Stalls s t x))
  ∧ ∀ (g : Guard) (src : Src) (s : State) (x : Nat) (w : Worker) (v : VWord) (p : PopSt) (sc : Nat), Fires s x w g src v p →
      sc = (if v.toNat % 8 = 7 then 6 else v.toNat % 8) →
      (sc = 0 ∨ (sc < 4 ∧ (s.atBundle x).performed s.focus.c x (s.begun x).seq sc = true) →
        ∃ t, exec (.fence g src) s = .next t ∧ Only (s.popped x p) t x w ((s.front x p).noted p.nfs).passed)
      ∧ (4 ≤ sc → (s.atBundle x).performed s.focus.c x (s.begun x).seq sc = true →
        ((∀ l ∈ (s.die (dieOf s.focus.c)).rdc, l.dirty = 0) → ∃ t u, exec (.fence g src) s = .next t
          ∧ u = (s.popped x p).dropSel (dieOf s.focus.c) (fun _ => true) ∧ Only u t x w ((u.ctx s.focus.c x).noted p.nfs).passed
          ∧ (t.die (dieOf s.focus.c)).rdc = [])
        ∧ ((∃ l ∈ (s.die (dieOf s.focus.c)).rdc, l.dirty ≠ 0) → ∃ t, exec (.fence g src) s = .next t ∧ t.mem = s.mem
          ∧ (t.ctx s.focus.c x).pc = (s.begun x).pc ∧ (t.ctx s.focus.c x).g = (s.begun x).g
          ∧ ∀ l ∈ (t.die (dieOf s.focus.c)).rdc, l.dirty ≠ 0))
      ∧ (0 < sc → (s.atBundle x).performed s.focus.c x (s.begun x).seq sc = false → ∃ t, exec (.fence g src) s = .next t ∧ Stalls s t x)

/-- R145, R212, R239, R292: a bundle whose request has been answered issues with the answer: acq delivers the version to sy.r and gvepoch and gvpin
the reply to xu.r, each with latency 1; bwait writes no port. What an acquire is to drop, every line of the bound regions from scope 4 on (R208, R212), goes from the
remote-data cache as it issues. -/
def Obligations.AnswersAreDelivered : Prop :=
  ∀ (g : Guard) (src : Src) (s : State) (x : Nat) (w : Worker) (v : VWord) (p : PopSt) (r : Awaiting) (y : Word), Fires s x w g src v p →
    r.reply = some (.value y) →
    ((s.begun x).request .sy = some r → Claims.looked (.acq g src) s x v → (s.atBundle x).droppable (dieOf s.focus.c) r.drops = true →
      ∃ t u, exec (.acq g src) s = .next t ∧ u = (s.popped x p).dropSel (dieOf s.focus.c) r.drops
        ∧ Only u t x w (((u.ctx s.focus.c x).starts .sy (y.zeroExtend 2048) 1 0).noted p.nfs).passed
        ∧ ∀ n, 4 ≤ r.t.toNat % 8 → inRegions r.regions n = true → (t.die (dieOf s.focus.c)).line n = none)
    ∧ ((s.begun x).request .ce = some r → Claims.looked (.bwait g src) s x v →
      (s.atBundle x).droppable (dieOf s.focus.c) (fun _ => bwaitDrops (v.truncate 64)) = true →
      ∃ t u, exec (.bwait g src) s = .next t ∧ u = (s.popped x p).dropSel (dieOf s.focus.c) (fun _ => bwaitDrops (v.truncate 64))
        ∧ Only u t x w ((u.ctx s.focus.c x).noted p.nfs).passed)
    ∧ ((s.begun x).request .xu = some r →
      (∃ t, exec (.gvepoch g src) s = .next t ∧ Only (s.popped x p) t x w (((s.front x p).starts .xu (y.zeroExtend 2048) 1 0).noted p.nfs).passed)
      ∧ ∃ t, exec (.gvpin g src) s = .next t ∧ Only (s.popped x p) t x w (((s.front x p).starts .xu (y.zeroExtend 2048) 1 0).noted p.nfs).passed)

namespace Sys2Proof.Claims

/-! ## The units of the core -/

/-- A context that has started a result of qu, ce, mx or xu with a latency: no flag goes with it (R141, R145, R154, R223, R254, R289). -/
def answers (t : Ctx) (r : ResPort) (y : Nat) (lat : Nat) : Ctx := t.starts r ((BitVec.ofNat 64 y).zeroExtend 2048) lat 0

/-- The queue that a worker's pipeline gives a number, and whether the worker's stage has it in a direction (R151, R153). -/
def declares (s : State) (t : Ctx) (n : Nat) (out : Bool) : Prop :=
  ∃ p k pl q, t.worker.bind (·.stage) = some (p, k) ∧ s.pipes.find? (fun q => q.id = p) = some pl ∧ pl.queues[n]? = some q
    ∧ (if out then q.src else q.dst) = k

/-- A context whose token has one more operation pending; nothing for no token (R232, R256). -/
def counted (t : Ctx) (tok : Option Nat) : Ctx :=
  match tok with
  | some i => { t with tok := vset t.tok i { vget t.tok i {} with count := (vget t.tok i {}).count + 1 } }
  | none => t

/-- The token that a word selects, bits at and above lo, none where its flag is set (R223, R256). -/
def tokenAt (v : Word) (lo flag : Nat) : Option Nat := if v.getLsbD flag then none else some (v.toNat / 2 ^ lo % 8)

/-- A command or call of a worker that t of a cabt or mabt selects, by its token or with all others (R245, R259). -/
def selects (w : Worker) (v : VWord) (uid : Nat) (tok : Option Nat) : Bool :=
  uid = w.uid && (v.getLsbD 8 || match tok with | some i => i < 8 && v.getLsbD i | none => false)

/-- The copy commands, on whatever core they are, that a cabt takes out of their queue: of those it selects, the ones with nothing in flight (R245). -/
def cutCopies (s : State) (w : Worker) (v : VWord) : List CopyCmd :=
  s.cores.flatMap fun p => p.2.cmds.filter fun m => selects w v m.uid m.tok && m.owed = 0 && m.busy.isNone

/-- The matrix calls that a mabt takes out of their queue: of those it selects, the ones that hold no tile's stamp (R242, R259). -/
def cutCalls (s : State) (w : Worker) (v : VWord) : List MatCall :=
  s.cores.flatMap fun p => p.2.calls.filter fun m => selects w v m.uid m.tok && m.busy.isNone

/-- A token once the commands or calls that signal it, each with its bytes and its slow and nf flags, have ended with status 1 (R236, R245, R259). -/
def cutToken (k : Token) (l : List (Nat × Bool × Bool)) : Token :=
  if l = [] then k
  else { count := k.count - l.length, slow := k.slow || l.any (·.2.1), nf := k.nf || l.any (·.2.2), status := Nat.max k.status 1
         bytes := Nat.min (k.bytes + (l.map (·.1)).sum) (2 ^ 48 - 1) }

/-- A token may take one more operation (R232, R256). -/
def tokenRoom (t : Ctx) (tok : Option Nat) : Prop := ∀ i, tok = some i → (vget t.tok i {}).count < 255

end Sys2Proof.Claims

/-! ## Statements about the queue unit and the copy unit -/

/-- R153, R154, R156: qbind binds the handle to a queue that the worker's stage has in the direction asked for, with qu.r = 0, and leaves it unbound with 1 otherwise;
qinfo and qtry only read. Each result has latency 2. qclose closes the queue of its handle for good, and qfmt sets its pair, with qu.r = 0, when the
pair is valid; a qfmt through an unbound handle, or with an invalid pair, changes nothing and gives 1. -/
def Obligations.StageHandlesAnswer : Prop :=
  (∀ (g : Guard) (src : Src) (s : State) (x : Nat) (w : Worker) (v : VWord) (p : PopSt) (h n : Nat) (out : Bool), Fires s x w g src v p →
      h = v.toNat % 4 → n = v.toNat / 16 % 16 → out = v.getLsbD 2 →
      (∃ t b, exec (.qbind g src) s = .next t ∧ Only (s.popped x p) t x w
          ((Claims.answers { s.front x p with handles := vset (s.begun x).handles h b } .qu (if b.isSome then 0 else 1) 2).noted p.nfs).passed
        ∧ (Claims.declares (s.popped x p) (s.begun x) n out → b = some { queue := n, output := out })
        ∧ (¬ Claims.declares (s.popped x p) (s.begun x) n out → b = none))
      ∧ (∃ t y, exec (.qtry g src) s = .next t ∧ Only (s.popped x p) t x w ((Claims.answers (s.front x p) .qu y 2).noted p.nfs).passed
        ∧ ((s.popped x p).handleQueue (s.begun x) h = none → y = 0)
        ∧ ∀ k q, (s.popped x p).handleQueue (s.begun x) h = some (k, q) →
            y = (if k.output then q.room else q.present) + if q.closed = true ∧ q.entries = [] then 2 ^ 63 else 0)
      ∧ ∃ t y, exec (.qinfo g src) s = .next t ∧ Only (s.popped x p) t x w ((Claims.answers (s.front x p) .qu y 2).noted p.nfs).passed
        ∧ (v.toNat % 256 = 0x20 → y = if w.phase = .iteration then w.it else 0)
        ∧ (v.toNat % 256 = 0x24 → y = match w.stage with | some (_, k) => k | none => 0xFF)
        ∧ (0x25 ≤ v.toNat % 256 → y = 0))
  ∧ ∀ (g : Guard) (src : Src) (s : State) (x : Nat) (w : Worker) (v : VWord) (p : PopSt) (h : Nat) (pr : BitVec 14), Fires s x w g src v p →
      h = v.toNat % 4 → pr = v.extractLsb' 16 14 →
      (∃ t, exec (.qclose g src) s = .next t ∧ Only ((s.popped x p).updHandleQueue (s.begun x) h fun q => { q with closed := true }) t x w
        ((s.front x p).noted p.nfs).passed)
      ∧ (((s.popped x p).handleQueue (s.begun x) h).isSome = true → pairValid (pairSrc pr) (pairSnk pr) = true →
        ∃ t, exec (.qfmt g src) s = .next t ∧ Only ((s.popped x p).updHandleQueue (s.begun x) h fun q => { q with pair := pr }) t x w
          ((Claims.answers (s.front x p) .qu 0 2).noted p.nfs).passed)
      ∧ (((s.popped x p).handleQueue (s.begun x) h).isSome = false ∨ pairValid (pairSrc pr) (pairSnk pr) = false →
        ∃ t, exec (.qfmt g src) s = .next t ∧ Only (s.popped x p) t x w ((Claims.answers (s.front x p) .qu 1 2).noted p.nfs).passed)

/-- R152, R155: qpush adds a scalar entry of 8 bytes and qpushv a vector entry of len bytes, with the queue's pair, to the open queue that its handle is
bound to as output; its consumers do not see it yet. Through a handle that is unbound or bound as input, and to a closed queue, nothing is
pushed. A full queue blocks the bundle. -/
def Obligations.StagePushesAppend : Prop :=
  ∀ (g : Guard) (src : Src) (s : State) (x : Nat) (w : Worker) (v : VWord) (p : PopSt) (h n : Nat), Fires s x w g src v p → h = v.toNat % 4 →
    n = (if v.toNat / 2 ^ 16 % 512 = 0 ∨ 256 < v.toNat / 2 ^ 16 % 512 then 256 else v.toNat / 2 ^ 16 % 512) →
    (∀ k q, (s.atBundle x).handleQueue (s.begun x) h = some (k, q) → k.output = true → q.closed = false → 0 < q.room →
      (s.popped x p).handleQueue (s.begun x) h = some (k, q) →
      (∃ t, exec (.qpush g src) s = .next t ∧ Only (((s.popped x p).updHandleQueue (s.begun x) h fun q =>
          { q with entries := q.entries ++ [{ vec := false, len := 8, pair := q.pair, data := (s.begun x).lat.quO.zeroExtend 2048, since := s.clk, visible := false }] }).progress
            (s.begun x).launch) t x w ((s.front x p).noted p.nfs).passed)
      ∧ ∃ t, exec (.qpushv g src) s = .next t ∧ Only (((s.popped x p).updHandleQueue (s.begun x) h fun q =>
          { q with entries := q.entries ++ [{ vec := true, len := n, pair := q.pair
                                              data := BitVec.ofNat 2048 ((vget (s.begun x).v (v.toNat / 2 ^ 8 % 32) 0).toNat % 2 ^ (8 * n)), since := s.clk, visible := false }] }).progress
            (s.begun x).launch) t x w ((s.front x p).noted p.nfs).passed)
    ∧ (∀ k q, (s.atBundle x).handleQueue (s.begun x) h = some (k, q) → k.output = true → q.closed = false → q.room = 0 →
      (∃ t, exec (.qpush g src) s = .next t ∧ Stalls s t x) ∧ ∃ t, exec (.qpushv g src) s = .next t ∧ Stalls s t x)
    ∧ ((∀ k q, (s.atBundle x).handleQueue (s.begun x) h = some (k, q) → k.output = false ∨ q.closed = true) →
      (∀ k q, (s.popped x p).handleQueue (s.begun x) h = some (k, q) → k.output = false ∨ q.closed = true) →
      (∃ t, exec (.qpush g src) s = .next t ∧ Only (s.popped x p) t x w ((s.front x p).noted p.nfs).passed)
      ∧ ∃ t, exec (.qpushv g src) s = .next t ∧ Only (s.popped x p) t x w ((s.front x p).noted p.nfs).passed)

/-- R224, R232: cpy puts one command at the end of the core's command queue, for the record at ce.o with bits 5:0 cleared; the copies counter and, unless
nt is 1, the token's count rise by 1 and ce.r is 0. With the token's count at 255, ce.r is 1 and nothing else happens. -/
def Obligations.CopiesAreQueued : Prop :=
  ∀ (g : Guard) (src : Src) (s : State) (x : Nat) (w : Worker) (v : VWord) (p : PopSt) (tok : Option Nat), Fires s x w g src v p →
    tok = Claims.tokenAt (v.truncate 64) 0 3 → Claims.looked (.cpy g src) s x v → (s.at).cmds.length < 64 →
    (Claims.tokenRoom (s.begun x) tok → ∃ t m, exec (.cpy g src) s = .next t
      ∧ Only (({ s.popped x p with nextId := s.nextId + 1 } : State).updCore s.focus.c fun k => { k with cmds := k.cmds ++ [m] }) t x w
        ((Claims.answers { Claims.counted (s.front x p) tok with seq := (s.begun x).seq + 1
                                                                 cnt := { (s.begun x).cnt with copies := (s.begun x).cnt.copies + 1 } } .ce 0 2).noted p.nfs).passed
      ∧ m.id = s.nextId ∧ m.ctx = x ∧ m.uid = w.uid ∧ m.tok = tok ∧ m.rva = (s.begun x).lat.ceO.toNat % 2 ^ 48 / 64 * 64 ∧ m.seq = (s.begun x).seq)
    ∧ (¬ Claims.tokenRoom (s.begun x) tok →
      ∃ t, exec (.cpy g src) s = .next t ∧ Only (s.popped x p) t x w ((Claims.answers (s.front x p) .ce 1 2).noted p.nfs).passed)

/-- R233, R237: chan starts an idle channel at the record ce.o names, with ce.r = 0, and has no effect on a running one, with 1; cpyq reads a channel's
word, or a token's, and clears a token whose count is 0 when t[3] asks for it. R245, R259: cabt and mabt take the worker's commands, or matrix calls, that signal a
selected token, or with t[8] all of them, out of the core's queue, but for those that have writes in flight or a tile whose stamp they have set busy (R242): these make
no further ones. The others stay. Each that leaves the queue lowers the copies counter, or the tile-operations counter, and ends for its token with status 1 (R236). Of the context nothing else
changes, but that with t[8] cabt stops both channels; no other context changes, and no byte of memory. -/
def Obligations.CopyControlsActAndCancel : Prop :=
  (∀ (g : Guard) (src : Src) (s : State) (x : Nat) (w : Worker) (v : VWord) (p : PopSt) (k j : Nat), Fires s x w g src v p →
      k = v.toNat % 2 → j = v.toNat % 8 →
      (Claims.looked (.chan g src) s x v → (vget (s.begun x).chan k {}).running = false →
        ∃ t, exec (.chan g src) s = .next t ∧ Only (s.popped x p) t x w
          ((Claims.answers { s.front x p with
              chan := vset (s.begun x).chan k { running := true, head := BitVec.ofNat 48 ((s.begun x).lat.ceO.toNat % 2 ^ 48 / 64 * 64), seq := (s.begun x).seq }
              seq := (s.begun x).seq + 1 } .ce 0 2).noted p.nfs).passed)
      ∧ (Claims.looked (.chan g src) s x v → (vget (s.begun x).chan k {}).running = true →
        ∃ t, exec (.chan g src) s = .next t ∧ Only (s.popped x p) t x w ((Claims.answers (s.front x p) .ce 1 2).noted p.nfs).passed)
      ∧ (v.getLsbD 4 = true → ∃ t, exec (.cpyq g src) s = .next t ∧ Only (s.popped x p) t x w
          ((Claims.answers (s.front x p) .ce ((vget (s.begun x).chan k {}).head.toNat + if (vget (s.begun x).chan k {}).running then 2 ^ 48 else 0) 2).noted p.nfs).passed)
      ∧ (v.getLsbD 4 = false → ∃ t, exec (.cpyq g src) s = .next t ∧ Only (s.popped x p) t x w
          (({ s.front x p with
              tok := if v.getLsbD 3 = true ∧ (vget (s.begun x).tok j {}).count = 0 then vset (s.begun x).tok j {} else (s.begun x).tok } : Ctx).starts .ce
            ((vget (s.begun x).tok j {}).word.zeroExtend 2048) 2 0 |>.noted p.nfs).passed))
  ∧ ∀ (g : Guard) (src : Src) (s : State) (x : Nat) (w : Worker) (v : VWord) (p : PopSt), Fires s x w g src v p →
      (∃ t, exec (.cabt g src) s = .next t ∧ t.mem = s.mem
        ∧ (t.core s.focus.c).cmds.filter (fun m => !Claims.selects w v m.uid m.tok) = (s.at).cmds.filter (fun m => !Claims.selects w v m.uid m.tok)
        ∧ (∀ m ∈ (t.core s.focus.c).cmds, Claims.selects w v m.uid m.tok = true → m.phase = .aborted ∧ m.todo = [] ∧ m.out = [] ∧ (0 < m.owed ∨ m.busy ≠ none))
        ∧ (t.ctx s.focus.c x).g = (s.begun x).g ∧ (t.ctx s.focus.c x).pc = (s.begun x).pc + 1 ∧ (t.ctx s.focus.c x).laq = (s.begun x).laq
        ∧ (v.getLsbD 8 = true → ∀ k, k < 2 → (vget (t.ctx s.focus.c x).chan k {}).running = false)
        ∧ (Claims.stands s w.uid s.focus.c x → Claims.others s t s.focus.c x ∧ ∃ tk ch, t.ctx s.focus.c x =
            (({ s.front x p with cnt := { (s.begun x).cnt with copies := (s.begun x).cnt.copies - (Claims.cutCopies s w v).length }
                                 tok := tk, chan := ch } : Ctx).noted p.nfs).passed
          ∧ (∀ j, j < 8 → vget tk j {} = Claims.cutToken (vget (s.begun x).tok j {})
              (((Claims.cutCopies s w v).filter fun m => m.tok = some j).map fun m => (m.written, m.slow, m.nf)))
          ∧ (v.getLsbD 8 = false → ch = (s.begun x).chan)))
      ∧ ∃ t, exec (.mabt g src) s = .next t ∧ t.mem = s.mem
        ∧ (t.core s.focus.c).calls.filter (fun m => !Claims.selects w v m.uid m.tok) = (s.at).calls.filter (fun m => !Claims.selects w v m.uid m.tok)
        ∧ (∀ m ∈ (t.core s.focus.c).calls, Claims.selects w v m.uid m.tok = true → m.phase = .ended ∧ m.busy ≠ none)
        ∧ (t.core s.focus.c).holds = (s.at).holds ∧ (t.ctx s.focus.c x).g = (s.begun x).g ∧ (t.ctx s.focus.c x).pc = (s.begun x).pc + 1
        ∧ (t.ctx s.focus.c x).laq = (s.begun x).laq
        ∧ (Claims.stands s w.uid s.focus.c x → Claims.others s t s.focus.c x ∧ ∃ tk, t.ctx s.focus.c x =
            (({ s.front x p with cnt := { (s.begun x).cnt with tiles := (s.begun x).cnt.tiles - (Claims.cutCalls s w v).length }
                                 tok := tk } : Ctx).noted p.nfs).passed
          ∧ ∀ j, j < 8 → vget tk j {} = Claims.cutToken (vget (s.begun x).tok j {})
              (((Claims.cutCalls s w v).filter fun m => m.tok = some j).map fun m => (m.bytes, m.slow, m.nf)))

/-! ## Statements about the matrix unit -/

/-- R256: mcall, while the core's queue of 16 has room, queues one call with the context's latches and control words, raises the tile-operations counter and
the token's count, and gives 0; an invalid entry gives 2, and a token at 255 gives 1, with no other effect. A full queue blocks the bundle. -/
def Obligations.MatrixCallsAreQueued : Prop :=
  ∀ (g : Guard) (src : Src) (s : State) (x : Nat) (w : Worker) (v : VWord) (p : PopSt) (tok : Option Nat), Fires s x w g src v p →
    tok = Claims.tokenAt (v.truncate 64) 8 11 →
    ((s.at).calls.length < 16 → rtValid ((s.at).routine x (v.toNat % 256)) = true → Claims.tokenRoom (s.begun x) tok →
      ∃ t m, exec (.mcall g src) s = .next t
        ∧ Only (({ s.popped x p with nextId := s.nextId + 1 } : State).updCore s.focus.c fun k => { k with calls := k.calls ++ [m] }) t x w
          ((Claims.answers { Claims.counted (s.front x p) tok with seq := (s.begun x).seq + 1
                                                                   cnt := { (s.begun x).cnt with tiles := (s.begun x).cnt.tiles + 1 } } .mx 0 2).noted p.nfs).passed
        ∧ m.id = s.nextId ∧ m.uid = w.uid ∧ m.ctx = x ∧ m.phase = .queued ∧ m.t = v.truncate 64 ∧ m.mp = (s.begun x).lat.mp ∧ m.tc = (s.begun x).lat.tc)
    ∧ ((s.at).calls.length < 16 → rtValid ((s.at).routine x (v.toNat % 256)) = false →
      ∃ t, exec (.mcall g src) s = .next t ∧ Only (s.popped x p) t x w ((Claims.answers (s.front x p) .mx 2 2).noted p.nfs).passed)
    ∧ ((s.at).calls.length < 16 → rtValid ((s.at).routine x (v.toNat % 256)) = true → ¬ Claims.tokenRoom (s.begun x) tok →
      ∃ t, exec (.mcall g src) s = .next t ∧ Only (s.popped x p) t x w ((Claims.answers (s.front x p) .mx 1 2).noted p.nfs).passed)
    ∧ (16 ≤ (s.at).calls.length → ∃ t, exec (.mcall g src) s = .next t ∧ Stalls s t x)

/-- R264, R265: mgrant of a total that the worker's holding covers keeps its lowest-numbered banks and releases the rest at once; of more, it releases all and asks;
of 0, of more than 16, or while a request waits, it has no effect and gives 1. mrel below the holding releases down to n and has no effect otherwise.
R251, R257: mstat delivers the word its selector names to mx.r with latency 2: a tile's control word, or 0 outside the context's mask; the MXNAN
report; 0 for a selector that names nothing. -/
def Obligations.BanksAndStatusAnswer : Prop :=
  (∀ (g : Guard) (src : Src) (s : State) (x : Nat) (w : Worker) (v : VWord) (p : PopSt) (n : Nat), Fires s x w g src v p → n = v.toNat % 32 →
      (1 ≤ n → n ≤ 16 → (s.at).request w.uid = none →
        ∃ t, exec (.mgrant g src) s = .next t ∧ Only ((s.popped x p).updCore s.focus.c fun k =>
            if n ≤ bankCount (k.hold w.uid) then k.trim w.uid n
            else { k.trim w.uid 0 with bankNew := k.bankNew ++ [{ uid := w.uid, ctx := x, n := n }] }) t x w
          ((Claims.answers (s.front x p) .mx 0 2).noted p.nfs).passed)
      ∧ (n = 0 ∨ 16 < n ∨ (s.at).request w.uid ≠ none →
        ∃ t, exec (.mgrant g src) s = .next t ∧ Only (s.popped x p) t x w ((Claims.answers (s.front x p) .mx 1 2).noted p.nfs).passed)
      ∧ ∃ t, exec (.mrel g src) s = .next t ∧ Only ((s.popped x p).updCore s.focus.c fun k =>
            if (s.at).request w.uid = none ∧ n < bankCount ((s.at).hold w.uid) then k.trim w.uid n else k) t x w ((s.front x p).noted p.nfs).passed)
  ∧ ∀ (g : Guard) (src : Src) (s : State) (x : Nat) (w : Worker) (v : VWord) (p : PopSt) (sel : Nat), Fires s x w g src v p → sel = v.toNat % 256 →
      ∃ t y, exec (.mstat g src) s = .next t ∧ Only (s.popped x p) t x w ((Claims.answers (s.front x p) .mx y 2).noted p.nfs).passed
        ∧ (sel < 16 → y = if (s.begun x).tiles.getLsbD sel then (vget (s.begun x).lat.tc sel 0).toNat else 0)
        ∧ (sel = 0x12 → y = (s.begun x).mxnan.toNat) ∧ (0x14 ≤ sel → y = 0)

/-- R33, R258: in the system context, mwr writes its value to the store word, or to the routine-table entry, that the context's mp0 addresses; in a user context its
slot takes PRIV, and nothing is written (in a bundle that has made no close of a scope: R145; the model's reading, log 71). -/
def Obligations.SystemContextWritesTheStore : Prop :=
  (∀ (g : Guard) (src : Src) (s : State) (t : Ctx) (y : VWord) (v a : Word), t = s.ctx s.focus.c 4 → s.at.fenced = false → s.at.stall = 0 → s.at.running = some 4 →
    s.at.clim.1 = false → t.worker = none → Calm t → t.guard g = true → (∀ k, src = .g k → k.toNat < t.nregs) →
    s.readSrc t { seed := t.ctl.seed } src = (.val y, { seed := t.ctl.seed }) → v = y.truncate 64 → a = vget t.lat.mp 0 0 →
    ∃ u, exec (.mwr g src) s = .next u ∧ u.mem = s.mem
      ∧ (a.getLsbD 13 = false → (u.core s.focus.c).mstore = tset s.at.mstore (a.toNat % 4096) v ∧ (u.core s.focus.c).rtab = s.at.rtab)
      ∧ (a.getLsbD 13 = true → (u.core s.focus.c).rtab = tset s.at.rtab (routineKey (a.toNat / 2 ^ 11 % 4) (a.toNat % 256)) (routineLoad v)
          ∧ (u.core s.focus.c).mstore = s.at.mstore))
  ∧ ∀ (g : Guard) (src : Src) (s : State) (x : Nat) (w : Worker), Issuing s x w → (s.begun x).closing = false → (∀ k, src = .g k → k.toNat < (s.begun x).nregs) →
    ∃ u, exec (.mwr g src) s = .next u ∧ u.mem = s.mem ∧ (u.core s.focus.c).mstore = s.at.mstore ∧ (u.core s.focus.c).rtab = s.at.rtab
      ∧ (u.core s.focus.c).running = some 4 ∧ (u.ctx s.focus.c x).sys.map (·.cause) = some .priv
namespace Sys2Proof.Claims

/-! ## Scopes, teams, objects -/

/-- An entry of a die's scope table that an fso may take, the lowest of them (R146). -/
def firstFree (s : State) (die i : Nat) : Prop :=
  let e : Nat → Scope := fun j => tget {} (s.die die).scopes j
  i < 256 ∧ ((e i).valid = false ∧ (e i).reserved = false) ∧ ∀ j, j < i → (e j).valid = true ∨ (e j).reserved = true

/-- The state with the scope that an fso of context x makes in entry i of its die's table, with a parent (R146). -/
def opened (s : State) (x i : Nat) (parent : BitVec 16) : State :=
  let e := tget ({} : Scope) (s.die (dieOf s.focus.c)).scopes i
  let n : Scope := { valid := true, reserved := false, gen := e.gen + 1, pending := 1, isOpen := true, parent := parent, owner := (s.focus.c, x)
                     uid := (s.begun x).uid }
  s.updDie (dieOf s.focus.c) fun d => { d with scopes := tset d.scopes i n }

/-- The id of that scope (R144). -/
def openedId (s : State) (i : Nat) : Nat :=
  ((tget ({} : Scope) (s.die (dieOf s.focus.c)).scopes i).gen + 1).toNat * 2 ^ 12 + dieOf s.focus.c % 8 * 2 ^ 8 + i

/-- A scope on the core's die, or none, that takes one more count (R146, R148), and the state in which it has. -/
def mayCount (s : State) (id : BitVec 16) : Prop := scopeNil id = true ∨ (s.scopeLive id = true ∧ (s.scope id).pending ≠ 2 ^ 32 - 1)
def countedIn (s : State) (id : BitVec 16) : State := if scopeNil id then s else s.updScope id fun e => { e with pending := e.pending + 1 }

/-- A value with bit 63 set. -/
def top (n : Nat) : Nat := 2 ^ 63 + n

end Sys2Proof.Claims

/-! ## Statements about scopes, spawns and barriers -/

/-- R145-R147: under a parent that is nil or live, fso makes a scope with pending 1, open, in the lowest free entry of its die's table, counts it in the
parent and returns its id; with no free entry, or under a parent that is neither, it returns 2^63 + 2^11 and makes none. A parent on another die is
counted there, and its answer decides. fsc closes a scope that is live and open, taking its open hold away, and returns 0; else 1. -/
def Obligations.ScopesOpenAndClose : Prop :=
  ∀ (g : Guard) (src : Src) (s : State) (x : Nat) (w : Worker) (v : VWord) (p : PopSt) (id : BitVec 16) (u : State), Fires s x w g src v p →
    id = v.truncate 16 → u = s.popped x p →
    ((s.begun x).request .sy = none → scopeRemote s.focus.c id = false →
      (∀ i, Claims.firstFree u (dieOf s.focus.c) i → Claims.mayCount u id →
        ∃ t, exec (.fso g src) s = .next t
          ∧ Only (Claims.opened (Claims.countedIn u id) x i id) t x w ((Claims.answers (s.front x p) .sy (Claims.openedId u i) 2).noted p.nfs).passed)
      ∧ ((∀ i, ¬ Claims.firstFree u (dieOf s.focus.c) i) ∨ ¬ Claims.mayCount u id →
        ∃ t, exec (.fso g src) s = .next t ∧ Only u t x w ((Claims.answers (s.front x p) .sy (Claims.top 0x800) 2).noted p.nfs).passed)
      ∧ (u.scopeLive id = true → (u.scope id).isOpen = true →
        ∃ t, exec (.fsc g src) s = .next t ∧ Only (((u.updScope id fun e => { e with isOpen := false }).applyDec id).progress (s.begun x).launch) t x w
          ((Claims.answers (s.front x p) .sy 0 2).noted p.nfs).passed)
      ∧ (u.scopeLive id = false ∨ (u.scope id).isOpen = false →
        ∃ t, exec (.fsc g src) s = .next t ∧ Only (u.progress (s.begun x).launch) t x w ((Claims.answers (s.front x p) .sy 1 2).noted p.nfs).passed))
    ∧ ∀ r y, (s.begun x).request .sy = some r → r.reply = some (.value y) →
      (∀ e, r.entry = some e → y = 0 → ∃ t, exec (.fso g src) s = .next t
        ∧ Only (Claims.opened u x (scopeEntry e) id) t x w ((Claims.answers (s.front x p) .sy (Claims.openedId u (scopeEntry e)) 2).noted p.nfs).passed)
      ∧ (∀ e, r.entry = some e → y ≠ 0 → ∃ t, exec (.fso g src) s = .next t
        ∧ Only (u.updScope e fun k => { k with reserved := false }) t x w ((Claims.answers (s.front x p) .sy (Claims.top 0x800) 2).noted p.nfs).passed)
      ∧ ∃ t, exec (.fsc g src) s = .next t ∧ Only (u.progress (s.begun x).launch) t x w ((Claims.answers (s.front x p) .sy y.toNat 2).noted p.nfs).passed

/-- R148: spawn counts the child in its scope, puts it at the end of the queue that its record names, of the spawner's interface, with the four fields of the
record, and returns 0; a scope that is not live gives 1, a full count 2 and a full queue 3, and nothing is queued. -/
def Obligations.SpawnQueuesAChild : Prop :=
  ∀ (g : Guard) (src : Src) (s : State) (x : Nat) (w : Worker) (v : VWord) (p : PopSt) (id : BitVec 16) (u : State) (b : BitVec 512) (q : Nat),
    Fires s x w g src v p → id = v.truncate 16 → u = s.popped x p → Claims.looked (.spawn g src) s x v → (s.begun x).request .sy = none →
    scopeRemote s.focus.c id = false → spawnAbsent (s.env x) (s.atBundle x) = [] → b = u.spawnRecord (s.env x) → q = w.vi * 16 + recQueue b →
    (u.queueFill q < 64 → Claims.mayCount u id → ∃ t l n, exec (.spawn g src) s = .next t
      ∧ Only ({ Claims.countedIn u id with launchQ := tset u.launchQ q (tget [] u.launchQ q ++ [l]), nextId := n } : State) t x w
        ((Claims.answers (s.front x p) .sy 0 2).noted p.nfs).passed
      ∧ u.nextId < n ∧ l.vi = w.vi ∧ l.queue = recQueue b ∧ l.rcd.prio = recPrio b ∧ l.rcd.tickets = recTickets b ∧ l.rcd.dies = recDies b ∧ l.scope = id
      ∧ l.taken = false ∧ l.recVa = (s.begun x).lat.syO.toNat % 2 ^ 48)
    ∧ (u.queueFill q < 64 → scopeNil id = false → u.scopeLive id = false →
      ∃ t, exec (.spawn g src) s = .next t ∧ Only u t x w ((Claims.answers (s.front x p) .sy 1 2).noted p.nfs).passed)
    ∧ (u.queueFill q < 64 → u.scopeLive id = true → (u.scope id).pending = 2 ^ 32 - 1 →
      ∃ t, exec (.spawn g src) s = .next t ∧ Only u t x w ((Claims.answers (s.front x p) .sy 2 2).noted p.nfs).passed)
    ∧ (64 ≤ u.queueFill q → ∃ t, exec (.spawn g src) s = .next t ∧ Only u t x w ((Claims.answers (s.front x p) .sy 3 2).noted p.nfs).passed)

/-- R143, R324: tbar's first cycle registers the worker's arrival at its die team, or sends it to its module team; it then blocks until the generation it has
seen has advanced, which is at the end of a cycle, and completes. xsettle waits for its launch's round in the same way and delivers the tokens dropped in it to xu.r with
latency 1. -/
def Obligations.BarriersHoldTheirTeams : Prop :=
  ∀ (g : Guard) (src : Src) (s : State) (x : Nat) (w : Worker) (v : VWord) (p : PopSt) (m : Bool) (l : Launch), Fires s x w g src v p →
    m = v.getLsbD 0 → s.launch? w.launch = some l →
    (∀ tm, l.team? (if m then none else some w.die) = some tm → tm.members ≠ [w.uid] →
      ((s.begun x).tbarReg = none → ∃ t, exec (.tbar g src) s = .next t ∧ (t.ctx s.focus.c x).tbarReg = some (m, tm.seen w.die)
        ∧ (t.ctx s.focus.c x).pc = (s.begun x).pc ∧ (t.ctx s.focus.c x).g = (s.begun x).g ∧ t.mem = s.mem
        ∧ (m = true → t.teamMsgs = s.teamMsgs ++ [{ launch := w.launch, uid := w.uid }] ∧ t.launches = s.launches)
        ∧ (m = false → t.launches = s.launches.map (fun k => if k.id = w.launch then k.updTeam (some w.die) fun b => b.arrive w.uid else k)
            ∧ t.teamMsgs = s.teamMsgs))
      ∧ (∀ n, (s.begun x).tbarReg = some (m, n) → n < tm.seen w.die → ∃ t, exec (.tbar g src) s = .next t
        ∧ Only (s.popped x p) t x w (({ s.front x p with tbarReg := none } : Ctx).noted p.nfs).passed)
      ∧ ∀ n, (s.begun x).tbarReg = some (m, n) → tm.seen w.die ≤ n → ∃ t, exec (.tbar g src) s = .next t ∧ Stalls s t x)
    ∧ (∀ n, (s.begun x).settleReg = some n → n < l.settle.gen → ∃ t, exec (.xsettle g src) s = .next t
        ∧ Only (s.popped x p) t x w ((Claims.answers { s.front x p with settleReg := none } .xu l.settled 1).noted p.nfs).passed)
    ∧ ∀ n, (s.begun x).settleReg = some n → l.settle.gen ≤ n → ∃ t, exec (.xsettle g src) s = .next t ∧ Stalls s t x

namespace Sys2Proof.Claims

/-- The pins of the resident experts whose slots cover frame i of die d, of a list of Larder entries. -/
def pinsOn (es : List (Nat × Expert)) (d i : Nat) : Nat := ((es.filter fun p => p.2.state = 2 && p.2.coversFrame d i).map fun p => p.2.pins).sum

/-- Die d with the pins that the experts es put on its frames (R199, R318): a frame that was RESIDENT and has pins becomes PINNED, and a PINNED one has its new pins. -/
def repinned (k : Die) (d : Nat) (es : List (Nat × Expert)) : Die :=
  { k with frames := k.frames.map fun f =>
      (f.1, if f.2.state = .pinned ∨ f.2.state = .resident ∧ 0 < pinsOn es d f.1 then { f.2 with state := .pinned, pins := pinsOn es d f.1 } else f.2) }

end Sys2Proof.Claims

/-! ## Statements about grid objects, experts and Compass entries -/

/-- R306, R307, R310: once the engine has read the descriptor's sectors, gbind binds a valid descriptor, named by the address that its first sector had, to a free handle with every tag none and gives 0, and gives 1 to 4 where the handle is bound, the
descriptor is not valid, the die has no place and the descriptor is bound already; unbinding waits for the object's work. gstep publishes a multiple
of D above the own step, or any step where there is none, and gives 0, else 2, or 1 for an unbound handle; gqry reads a tag, a step or the status. -/
def Obligations.GridObjectsBindStepAndRead : Prop :=
  ∀ (g : Guard) (src : Src) (s : State) (x : Nat) (w : Worker) (v : VWord) (p : PopSt) (h a n : Nat) (u : State), Fires s x w g src v p →
    h = v.toNat % 4 → u = s.popped x p → a = (s.begun x).lat.xuO.toNat % 2 ^ 48 / 128 * 128 → n = (s.begun x).lat.xuO.toNat % 2 ^ 32 →
    (v.getLsbD 2 = true →
      (s.gridOf s.focus.c (s.begun x) h = none →
        ∃ t, exec (.gbind g src) s = .next t ∧ Only u t x w ((Claims.answers (s.front x p) .xu 1 1).noted p.nfs).passed)
      ∧ ∀ d i o, s.gridOf s.focus.c (s.begun x) h = some (d, i, o) →
        (o.slabs = [] → o.fills = [] → ∃ t, exec (.gbind g src) s = .next t
          ∧ Only (u.updDie d fun k => { k with grids := k.grids.filter fun b => b.desc != o.desc }) t x w
            ((Claims.answers { s.front x p with grid := vset (s.begun x).grid h none } .xu 0 1).noted p.nfs).passed)
        ∧ (o.slabs ≠ [] ∨ o.fills ≠ [] → ∃ t, exec (.gbind g src) s = .next t ∧ Stalls s t x))
    ∧ (v.getLsbD 2 = false → Claims.looked (.gbind g src) s x v → ∀ (q : Awaiting) (r : BitVec 1024), (s.begun x).request .xu = some q →
      (∀ j, j < 4 → q.got.lookup (a + 32 * j) = some (r.extractLsb' (256 * j) 256)) →
      (vget (s.begun x).grid h none ≠ none →
        ∃ t, exec (.gbind g src) s = .next t ∧ Only u t x w ((Claims.answers (s.front x p) .xu 1 1).noted p.nfs).passed)
      ∧ ∀ pa, vget (s.begun x).grid h none = none → pa = q.a.toNat →
        (gridValid ((s.begun x).view s.focus.c) s.mod r = false →
          ∃ t, exec (.gbind g src) s = .next t ∧ Only u t x w ((Claims.answers (s.front x p) .xu 2 1).noted p.nfs).passed)
        ∧ (gridValid ((s.begun x).view s.focus.c) s.mod r = true → 256 ≤ (s.die (dieOf s.focus.c)).grids.length →
          ∃ t, exec (.gbind g src) s = .next t ∧ Only u t x w ((Claims.answers (s.front x p) .xu 3 1).noted p.nfs).passed)
        ∧ (gridValid ((s.begun x).view s.focus.c) s.mod r = true → (s.die (dieOf s.focus.c)).grids.length < 256 → (u.gridAt pa).isSome = true →
          ∃ t, exec (.gbind g src) s = .next t ∧ Only u t x w ((Claims.answers (s.front x p) .xu 4 1).noted p.nfs).passed)
        ∧ (gridValid ((s.begun x).view s.focus.c) s.mod r = true → (s.die (dieOf s.focus.c)).grids.length < 256 → (u.gridAt pa).isSome = false →
          ∃ t o, exec (.gbind g src) s = .next t ∧ Only (u.updDie (dieOf s.focus.c) fun k => { k with grids := k.grids ++ [o] }) t x w
            ((Claims.answers { s.front x p with grid := vset (s.begun x).grid h (some pa) } .xu 0 1).noted p.nfs).passed
          ∧ o.desc = pa ∧ o.raw = r ∧ o.uid = w.uid ∧ o.own = none ∧ o.sent = none ∧ o.tags = List.replicate 27 none ∧ o.mismatched = false ∧ o.timedOut = false))
    ∧ (s.gridOf s.focus.c (s.begun x) h = none →
      (∃ t, exec (.gstep g src) s = .next t ∧ Only u t x w ((Claims.answers (s.front x p) .xu 1 2).noted p.nfs).passed)
      ∧ ∃ t, exec (.gqry g src) s = .next t ∧ Only u t x w ((Claims.answers (s.front x p) .xu 0 4).noted p.nfs).passed)
    ∧ ∀ d i o, s.gridOf s.focus.c (s.begun x) h = some (d, i, o) →
      ((∀ k, o.own = some k → n % gdD o.raw = 0 ∧ k < n) → ∃ t, exec (.gstep g src) s = .next t
        ∧ Only (u.updGrid d i fun b => b.publish n (s.begun x).seq) t x w ((Claims.answers (s.front x p) .xu 0 2).noted p.nfs).passed)
      ∧ (¬ (∀ k, o.own = some k → n % gdD o.raw = 0 ∧ k < n) →
        ∃ t, exec (.gstep g src) s = .next t ∧ Only u t x w ((Claims.answers (s.front x p) .xu 2 2).noted p.nfs).passed)
      ∧ ∃ t y, exec (.gqry g src) s = .next t ∧ Only u t x w ((Claims.answers (s.front x p) .xu y 4).noted p.nfs).passed
        ∧ (v.toNat / 4 % 64 = 13 → y = o.own.getD 0xFFFFFFFF) ∧ (v.toNat / 4 % 64 = 27 → y = o.sent.getD 0xFFFFFFFF)
        ∧ (v.toNat / 4 % 64 = 28 → y = 1 + (if o.mismatched then 2 else 0) + if o.timedOut then 4 else 0) ∧ (28 < v.toNat / 4 % 64 → y = 0)
        ∧ (v.toNat / 4 % 64 < 27 → v.toNat / 4 % 64 ≠ 13 →
          y = if regPresent o.raw (v.toNat / 4 % 64) then (o.tags.getD (v.toNat / 4 % 64) none).getD 0xFFFFFFFF else 0xFFFFFFFE)

/-- R199, R314, R318, R331, R332: xpref on an expert that is not valid, or outside the interface's range, has no effect; else it unpins it, or asks for its fill where it is absent,
and pins it, at once where it is resident and otherwise when it becomes so; of the dies, the pins of the frames under the expert's slot follow, and nothing else. xqry reads the record that the
worker's walk has given it, an expert's state or its heap's size at the last settling. R289, R291: gvget reads a word, the epoch values or the open epoch of a Compass entry of the interface's
range to xu.r with latency 4, and 0 outside it. -/
def Obligations.ExpertsAndCompassEntriesAnswer : Prop :=
  (∀ (g : Guard) (src : Src) (s : State) (x : Nat) (w : Worker) (v : VWord) (p : PopSt) (e : Nat) (k : Expert) (u : State), Fires s x w g src v p →
      e = v.toNat % 8192 → k = s.expert e → u = s.popped x p →
      (s.expertOk w.vi e = false → ∃ t, exec (.xpref g src) s = .next t ∧ Only u t x w ((s.front x p).noted p.nfs).passed)
      ∧ (s.expertOk w.vi e = true → ∃ t k' es ds, exec (.xpref g src) s = .next t
          ∧ Only ({ u with larder := es, dies := ds } : State) t x w ((s.front x p).noted p.nfs).passed
          ∧ (es = s.larder ∧ k' = k ∧ ds = u.dies
            ∨ es = tset s.larder e k' ∧ ∀ d, t.die d = if d = k'.die then Claims.repinned (u.die d) d es else u.die d)
          ∧ (v.getLsbD 14 = false → v.getLsbD 13 = false → k.state ≠ 0 → es = s.larder ∧ ds = u.dies)
          ∧ (v.getLsbD 14 = true → k'.pins = k.pins - 1 ∧ k'.state = k.state)
          ∧ (v.getLsbD 14 = false → k.state = 0 → k'.state = 1 ∧ k'.pins = k.pins ∧ k'.prefPins = k.prefPins + if v.getLsbD 13 then 1 else 0)
          ∧ (v.getLsbD 14 = false → k.state = 1 → k'.state = 1 ∧ k'.pins = k.pins ∧ k'.prefPins = k.prefPins + if v.getLsbD 13 then 1 else 0)
          ∧ (v.getLsbD 14 = false → k.state = 2 → k'.state = 2 ∧ k'.prefPins = k.prefPins
              ∧ k'.pins = if v.getLsbD 13 then (k.pins + 1) % 2 ^ 16 else k.pins))
      ∧ ∃ t y, exec (.xqry g src) s = .next t ∧ Only u t x w ((Claims.answers (s.front x p) .xu y 4).noted p.nfs).passed
        ∧ (v.toNat % 16 = 4 → s.expertOk w.vi (v.toNat / 16 % 8192) = true → y = (s.expert (v.toNat / 16 % 8192)).settledSize % 2 ^ 64)
        ∧ (∀ q, v.toNat % 16 = 3 → q = s.expert (v.toNat / 16 % 8192) → s.expertOk w.vi (v.toNat / 16 % 8192) = true →
          y = (if q.state = 2 ∧ 0 < q.pins then 3 else q.state) + (if q.err then 4 else 0) + q.pins * 2 ^ 16 + q.last.toNat * 2 ^ 32)
        ∧ (v.toNat % 16 = 3 ∨ v.toNat % 16 = 4 → s.expertOk w.vi (v.toNat / 16 % 8192) = false → y = 0)
        ∧ (∀ q b h, w.phase = .iteration → w.walk = some q → q.block = some b → s.walks.find? (fun h => h.id = q.walk) = some h →
          (v.toNat % 16 = 0 → y = h.header + 64 + 32 * b) ∧ (v.toNat % 16 = 1 → y = (h.emitted.getD b 0).toNat % 2 ^ 64)
          ∧ (v.toNat % 16 = 2 → y = (h.emitted.getD b 0).toNat / 2 ^ 64))
        ∧ (v.toNat % 16 < 3 → w.phase ≠ .iteration ∨ w.walk = none → y = 0) ∧ (5 ≤ v.toNat % 16 → y = 0))
  ∧ ∀ (g : Guard) (src : Src) (s : State) (x : Nat) (w : Worker) (v : VWord) (p : PopSt) (e : Nat), Fires s x w g src v p → e = v.toNat % 4096 →
      ∃ t y, exec (.gvget g src) s = .next t ∧ Only (s.popped x p) t x w ((Claims.answers (s.front x p) .xu y 4).noted p.nfs).passed
        ∧ (s.inCrange w.vi e = false → y = 0)
        ∧ (s.inCrange w.vi e = true → (v.toNat / 4096 % 4 = 0 → y = (s.entry e).word.toNat)
          ∧ (v.toNat / 4096 % 4 = 1 → y = ((s.entry e).rho.getD 0).toNat + ((s.entry e).lec.getD 0).toNat * 2 ^ 32)
          ∧ (v.toNat / 4096 % 4 = 2 → y = ((s.entry e).len.getD 0).toNat + ((s.entry e).lp.getD 0).toNat * 2 ^ 32)
          ∧ (v.toNat / 4096 % 4 = 3 → y = (s.entry e).b.toNat + Nat.min (s.entry e).n 0xFFFF * 2 ^ 32 + (if (s.entry e).rho.isSome then 2 ^ 48 else 0)
            + (if (s.entry e).lec.isSome then 2 ^ 49 else 0) + (if (s.entry e).len.isSome then 2 ^ 50 else 0) + if (s.entry e).lp.isSome then 2 ^ 51 else 0))

/-- R196, R327, R328: once the engine has answered and every page it touches is there, xemit gives 2^63 + 3 with no write where an address check fails, 2^63 with only the header's ovf flag where the records
needed exceed rcap, and otherwise the experts and the records emitted, whose heaps it empties. With go = 1 it counts the walk into the header's scope first, and a scope that does not take it
gives 2^63 + 1 or 2 (a scope of another die what that die answered) and writes nothing; else the walk starts, with all its blocks in the order of their records, as the launch of its workers. -/
def Obligations.EmissionsAreReported : Prop :=
  (∀ (g : Guard) (src : Src) (s : State) (x : Nat) (w : Worker) (v : VWord) (p : PopSt) (r : Awaiting) (y : Word) (u : State) (m : Emission),
    Fires s x w g src v p → u = s.popped x p → Claims.looked (.xemit g src) s x v → (s.begun x).request .xu = some r → r.reply = some (.value y) →
    (s.atBundle x).emitAbsent (s.env x) (v.truncate 64) = [] → r.undo = none → m = u.emission (s.env x) (v.truncate 64) →
    (m.ok = false → ∃ t, exec (.xemit g src) s = .next t ∧ Only u t x w ((Claims.answers (s.front x p) .xu (Claims.top 3) 1).noted p.nfs).passed)
    ∧ (m.ok = true → topRcap m.hdr < m.need → ∃ t, exec (.xemit g src) s = .next t
      ∧ Only (u.vaMask (s.begun x).wins w.launch s.focus.c ((s.begun x).lat.xuO.toNat % 2 ^ 48 / 64 * 64) 1 1 1) t x w
        ((Claims.answers (s.front x p) .xu (Claims.top 0) 1).noted p.nfs).passed)
    ∧ (m.ok = true → m.need ≤ topRcap m.hdr → v.getLsbD 3 = false → ∃ t, exec (.xemit g src) s = .next t
      ∧ Only (u.emitWrite (s.env x) m) t x w ((Claims.answers (s.front x p) .xu (m.held.length * 2 ^ 16 + m.need) 1).noted p.nfs).passed
      ∧ t.walks = s.walks ∧ ∀ e, e ∈ m.held → (t.expert e.1).heap = [] ∧ (t.expert e.1).last = topStep m.hdr)
    ∧ (m.ok = true → m.need ≤ topRcap m.hdr → v.getLsbD 3 = true → scopeNil (topScope m.hdr) = false →
      (scopeDie (topScope m.hdr) = dieOf s.focus.c →
        (u.scopeLive (topScope m.hdr) = false → ∃ t, exec (.xemit g src) s = .next t ∧ Only u t x w ((Claims.answers (s.front x p) .xu (Claims.top 1) 1).noted p.nfs).passed)
        ∧ (u.scopeLive (topScope m.hdr) = true → (u.scope (topScope m.hdr)).pending = 2 ^ 32 - 1 →
          ∃ t, exec (.xemit g src) s = .next t ∧ Only u t x w ((Claims.answers (s.front x p) .xu (Claims.top 2) 1).noted p.nfs).passed))
      ∧ (scopeDie (topScope m.hdr) ≠ dieOf s.focus.c → y ≠ 0 →
        ∃ t, exec (.xemit g src) s = .next t ∧ Only u t x w ((Claims.answers (s.front x p) .xu (Claims.top y.toNat) 1).noted p.nfs).passed)))
  ∧ ∀ (g : Guard) (src : Src) (s : State) (x : Nat) (w : Worker) (v : VWord) (p : PopSt) (r : Awaiting) (y : Word) (u a : State) (m : Emission) (i : BitVec 16),
    Fires s x w g src v p → u = s.popped x p → Claims.looked (.xemit g src) s x v → (s.begun x).request .xu = some r → r.reply = some (.value y) →
    (s.atBundle x).emitAbsent (s.env x) (v.truncate 64) = [] → m = u.emission (s.env x) (v.truncate 64) → m.ok = true → m.need ≤ topRcap m.hdr → v.getLsbD 3 = true → 0 < m.need → (∀ h ∈ u.walks, h.id ≠ u.nextId) →
    (r.undo = some i ∧ a = u
      ∨ r.undo = none ∧ i = topScope m.hdr ∧ scopeNil i = true ∧ a = u
      ∨ r.undo = none ∧ i = topScope m.hdr ∧ scopeNil i = false ∧ scopeDie i = dieOf s.focus.c ∧ u.scopeLive i = true ∧ (u.scope i).pending ≠ 2 ^ 32 - 1
        ∧ a = u.updScope i fun e => { e with pending := e.pending + 1 }) →
    ∃ t b k l, exec (.xemit g src) s = .next t ∧ Only b t x w ((Claims.answers (s.front x p) .xu (m.held.length * 2 ^ 16 + m.need) 1).noted p.nfs).passed
      ∧ b = { a.emitWrite (s.env x) m with nextId := u.nextId + 1, walks := u.walks ++ [k], launches := u.launches ++ [l] }
      ∧ k.id = u.nextId ∧ k.die = v.toNat % 8 ∧ k.header = (s.begun x).lat.xuO.toNat % 2 ^ 48 / 64 * 64 ∧ k.nrec = m.need ∧ k.done = 0 ∧ k.scope = i
      ∧ k.rest.map (·.idx) = List.range m.need ∧ (k.order = [] ∧ k.parked = [] ∧ k.noNode = [] ∧ k.arriving = [] ∧ k.active = 0)
      ∧ l.id = u.nextId ∧ l.vi = w.vi ∧ l.walk = some u.nextId


namespace Sys2Proof.Claims

/-- Words that are never-moves (R32). -/
def nevers (l : List SlotWord) : Prop := ∀ w ∈ l, slotGuard w = 0b10000#5

/-- The three memories are in their canonical form. -/
def canonical (s : State) : Prop := Memory.wf s.mem ∧ Memory.wf s.hostMem ∧ Memory.wf s.nvmeMem

/-- The running context x of the core in the focus, which holds w, is to fetch next, no switch being due, and the fetch gives l. -/
def fetches (s : State) (x : Nat) (w : Worker) (l : List Slot) : Prop :=
  s.switchDue s.focus.c = none ∧ s.fetching s.focus.c = some (x, w) ∧ s.fetch s.focus.c w (s.ctx s.focus.c x).pc = .ok l

/-- The source codes that R34 reserves, in a slot that is a move. -/
def badSrc (c : Nat) : Prop :=
  (0x07D ≤ c ∧ c ≤ 0x07F) ∨ (0x08F ≤ c ∧ c ≤ 0x09F) ∨ (0x0A8 ≤ c ∧ c ≤ 0x0FF) ∨ (0x180 ≤ c ∧ c ≤ 0x1FD)

/-- The destination codes that R36 and R37 reserve: two of their own, those above the blocks of the units, and in each block those past its ports. -/
def badDst (c : Nat) : Prop :=
  c = 0x07E ∨ c = 0x07F ∨ 0x3C0 ≤ c ∨ ∃ b ∈ [(0x080, 35), (0x0C0, 35), (0x100, 9), (0x140, 22), (0x180, 8), (0x1C0, 40), (0x200, 40), (0x240, 27),
    (0x280, 8), (0x2C0, 9), (0x300, 30), (0x340, 16), (0x380, 14)], b.1 + b.2 ≤ c ∧ c < b.1 + 64

/-- Outstanding results that are due (R19). -/
def due (l : List Pend) : List Pend := l.filter fun e => e.left = 0

end Sys2Proof.Claims

/-! ## Statements about decoding and the step -/

/-- R33: some slots of the spec's tables of encodings decode to the moves that they encode: of the units of integers, of multiplication, of control, of vectors, of
memory, of queues, of copies, of matrices, of the context and of xu. -/
def Obligations.TableSlotsDecode : Prop :=
  decodeTableWord 24 0x000880 = some (.move 0 (.g 2) (.latch (.iaO 0)))
  ∧ decodeTableWord 48 0x12345607F881 = some (.add 0 (.limm24 0x123456) 0)
  ∧ decodeTableWord 24 0x19E809 = some (.ldq 3 (.g 9))
  ∧ decodeTableWord 24 0x120C7A = some (.sd 2 (.port .fa))
  ∧ decodeTableWord 24 0x050246 = some (.vld 0 (.short 0x40))
  ∧ decodeTableWord 24 0x050256 = some (.amoor 0 (.short 0x40))
  ∧ decodeTableWord 24 0x8811D7 = some (.vu0Vbcast 0b10001 (.g 4))
  ∧ decodeTableWord 24 0x058687 = some (.qinfo 0 (.short 0x61))
  ∧ decodeTableWord 24 0x052AC3 = some (.cpyq 0 (.short 0x4A))
  ∧ decodeTableWord 72 0x080A000000400FFF18 = some (.mcall 1 (.limm48 0x080A00000040))
  ∧ decodeTableWord 24 0x050F47 = some (.trap 0 (.short 0x43))
  ∧ decodeTableWord 24 0x053343 = some (.acq 0 (.short 0x4C))
  ∧ decodeTableWord 24 0x0D538A = some (.gvobs 1 (.short 0x54))
  ∧ decodeTableWord 24 0x800000 = some (.neverMove 0 0)

/-- R33: the slots of a well-formed move decode to it, whatever slots follow, and a micro-word decodes to the operation that it encodes (R266). -/
def Obligations.EncodingsRoundTrip : Prop :=
  (∀ (i : Instr) (l : List SlotWord), i.wf = true → i.isSlot = true →
    ∃ sl, decodeSlots (encode i ++ l) = sl :: decodeSlots l ∧ sl.res = .ok i)
  ∧ ∀ m : MicroOp, decodeMicro (encodeMicro m) = some m

/-- R30-R37: a slot that decodes has one meaning: what it decodes to is well-formed and encodes to the very words that it took. -/
def Obligations.EachSlotHasOneMeaning : Prop :=
  ∀ (w : SlotWord) (l : List SlotWord) (sl : Slot) (r : List Slot) (i : Instr), decodeSlots (w :: l) = sl :: r → sl.res = .ok i →
    i.wf = true ∧ i.isSlot = true ∧ ∃ l', encode i ++ l' = w :: l ∧ r = decodeSlots l'

/-- R33, R340: a slot that is a move and whose source code is reserved takes ILLSRC, and one whose source is not and whose destination code is reserved takes ILLDST, when
its bundle would issue, no eret having it skipped (R346): without a user handler enabled the context goes to the system context, which runs next. A
bundle that has made a close of a scope takes no trap (R145; the model's reading, log 71). -/
def Obligations.ReservedSlotsTrap : Prop :=
  ∀ (s : State) (x : Nat) (w : Worker) (sw : SlotWord) (l : List SlotWord) (a : Nat), slotGuard sw ≠ 0b10000#5 →
    Claims.fetches s x w (decodeSlots (sw :: l)) → (s.ctx s.focus.c x).ctl.utvec.getLsbD 0 = false → (s.ctx s.focus.c x).asNever = false →
    (s.ctx s.focus.c x).closing = false → a = (s.ctx s.focus.c x).pc.toNat →
    (Claims.badSrc (slotSrc sw) →
      ∃ t, exec .bundleIssue s = .next t ∧ t.mem = s.mem ∧ (t.core s.focus.c).running = some 4
        ∧ (t.ctx s.focus.c x).sys.map (fun y => (y.cause, y.pc.toNat)) = some (.illsrc, a) ∧ (t.ctx s.focus.c x).g = (s.ctx s.focus.c x).g)
    ∧ (∀ k, srcOf (slotSrc sw) = some k → Claims.badDst (slotDst sw) →
      ∃ t, exec .bundleIssue s = .next t ∧ t.mem = s.mem ∧ (t.core s.focus.c).running = some 4
        ∧ (t.ctx s.focus.c x).sys.map (fun y => (y.cause, y.pc.toNat)) = some (.illdst, a) ∧ (t.ctx s.focus.c x).g = (s.ctx s.focus.c x).g)

/-- R62, R189: with no act given and no switch due, a step whose core fetches a bundle in which a well-formed move stands alone is the execution of that move, a clk
later, and so is BUNDLE_ISSUE, the fetch having corrected what single-bit errors it met (R202); the moves of a bundle read before any of them writes (R21), so that a bundle of two moves exchanges two registers; with an act given that is no move, and no other of the same clk, a step executes it; and a module that has powered down answers no step but
COLD_RESET, until which it stays down (R403; that a step of it ends the run is the model's reading, log 39). The agenda and the clk are the model's (log 1). -/
def Obligations.StepRunsTheDecodedInstruction : Prop :=
  (∀ (s u : State) (i : Instr) (x : Nat) (w : Worker) (l : List SlotWord), s.agenda = [] → s.down = false → s.switchDue s.focus.c = none →
    u = s.tick 1 → i.wf = true → i.isSlot = true → Claims.nevers l → Claims.fetches u x w (decodeSlots (encode i ++ l)) →
    step s = exec i (u.fetches s.focus.c) ∧ exec .bundleIssue u = exec i (u.fetches s.focus.c))
  ∧ (∀ (s : State) (a : Act) (r : List Act), s.agenda = a :: r → s.down = false → a.instr.isSlot = false → (∀ b, r.head? = some b → b.after ≠ 0) →
    step s = exec a.instr { s.tick a.after with agenda := r, focus := a.focus })
  ∧ (∀ (s : State) (x : Nat) (w : Worker) (g : Guard) (a b : BitVec 6) (l : List SlotWord), s.softEcc = [] → Issuing s x w → Calm (s.begun x) → Straight (s.begun x) →
    (s.begun x).guard g = true → g ≠ 0b10000#5 → a ≠ b → a.toNat < (s.begun x).nregs → b.toNat < (s.begun x).nregs → a ≠ (s.begun x).ctl.spreg →
    b ≠ (s.begun x).ctl.spreg → Claims.nevers l →
    Claims.fetches s x w (decodeSlots (encode (.move g (.g a) (.g b)) ++ (encode (.move g (.g b) (.g a)) ++ l))) →
    ∃ t, exec .bundleIssue s = .next t ∧ Only (s.fetches s.focus.c) t x w ({ s.begun x with
      g := vset (vset (s.begun x).g a.toNat (vget (s.begun x).g b.toNat 0)) b.toNat (vget (s.begun x).g a.toNat 0) } : Ctx).passed)
  ∧ ∀ (s : State), s.down = true → (∀ a ∈ s.agenda, a.instr ≠ .coldReset) → step s = .fault .poweredDown

/-! ## Statements about the whole machine -/

/-- R12, R165, R177, R180, R363, R395: what reset leaves: no core holds a worker, DSEED of die d is d + 1, no limiter acts and its limit is 0xFFFF, the watchdogs hold their
limits, SSEED is 1, and the ring's starvation thresholds are 64; a context has SPREG 31, SWT 16 and its other control registers zero. -/
def Obligations.ResetHoldsItsValues : Prop :=
  (∀ c x, (State.reset.ctx c x).worker = none ∧ (State.reset.ctx c x).ctl.spreg = 31 ∧ (State.reset.ctx c x).ctl.swt = 16
    ∧ ∀ n, n < 13 → n ≠ 5 → n ≠ 8 → n ≠ 10 → n ≠ 11 → (State.reset.ctx c x).ctlRead c x n = 0)
  ∧ (∀ c, (State.reset.core c).climEn = false ∧ (State.reset.core c).climLim = 0xFFFF ∧ (State.reset.core c).running = none)
  ∧ (∀ d, d < 8 → (State.reset.die d).dseed = BitVec.ofNat 64 (d + 1))
  ∧ (∀ v q, ((State.reset.vi v).dog q).l1 = 10000 ∧ ((State.reset.vi v).dog q).l2 = 100000 ∧ ((State.reset.vi v).dog q).l3 = 1000000
    ∧ ((State.reset.vi v).dog q).state = .idle ∧ (State.reset.vi v).sseed = 1)
  ∧ State.reset.rctl.s1 = 64 ∧ State.reset.rctl.s2 = 64 ∧ State.reset.rctl.up = false ∧ State.reset.rctl.nmod = 0

/-- The three memories of reset are in their canonical form. The canonical form, in which a byte that nothing has written is not listed, is the model's own convention (log 2) for the memories that R182 and R183 describe. -/
def Obligations.ResetIsCanonical : Prop := Claims.canonical State.reset

/-- Every step of the module keeps the module's memory, the host's and the NVMe devices' in their canonical form. The canonical form, in which a byte that nothing has written is not listed, is the model's own convention (log 2) for the memories that R182 and R183 describe. -/
def Obligations.MemoriesStayCanonical : Prop :=
  ∀ (s t : State), Claims.canonical s → step s = .next t → Claims.canonical t

/-- R16, R19, R20: RESULT_DELIVERY puts every due result in its port, the one triggered later staying where two are due in one, and sets every flag that they carry; a result
that is not due waits. A result of latency n is due after n issue cycles. The steps, and the focus that says what a step acts on, are the model's own (log 1). -/
def Obligations.ResultsAreDelivered : Prop :=
  ∀ (s : State) (x : Nat) (k : Ctx), x < 5 → x = s.focus.x → k = s.ctx s.focus.c x →
    (∃ t, exec .resultDelivery s = .next t ∧ (t.ctx s.focus.c x).snap = k.snap.filter (fun e => e.left ≠ 0)
      ∧ (t.ctx s.focus.c x).g = k.g ∧ (t.ctx s.focus.c x).pc = k.pc ∧ t.mem = s.mem
      ∧ (t.ctx s.focus.c x).port = (Claims.due k.snap).foldl (fun p e => p.put e.port e.val) k.port
      ∧ (t.ctx s.focus.c x).ctl.nfs = (Claims.due k.snap).foldl (fun n e => n ||| e.flags) k.ctl.nfs)
    ∧ ∀ (e : Pend) (n : Nat), (Nat.repeat countDown n [e]) = [{ e with left := e.left - n }]

/-! ## Statements about the steps of the core and of memory -/

/-- R24, R25, R131, R339, R348, R350: a context switch goes to a ready context, whose count of blocked cycles starts again; the one that ran keeps its results as they
stand (R25). The debugger's resume lets its context run, and sets its STEP where its interface's debug enable is set. WDOG takes a worker that is to be killed to the system context, by the steps
of a trap, whose six cycles the core then pays (R341). SYSTEM_RETURN of a RESID lets the context try its bundle again, of a single step or under a debugger it stops the
context, and else, as for a WDOG whatever a debugger asks, it kills the worker: of its context the registers stand (R8), nothing else is left, and its interface has one more
event. No other context changes, but that a context which the core ran beside a WDOG is switched out; and no byte of memory. The steps, and the focus that says what a step acts on, are the model's own (log 1). -/
def Obligations.CoreEventsAct : Prop :=
  ∀ (s : State) (c x : Nat) (k : Ctx), c = s.focus.c → x = s.focus.x → x < 4 → k = s.ctx c x →
    (∀ y, s.switchDue c = some y → ∃ t, exec .contextSwitch s = .next t ∧ (t.core c).running = some y ∧ (t.core c).last = y
      ∧ s.ready c y = true ∧ t = { s with cores := t.cores } ∧ t.ctx c y = { s.ctx c y with blocked := 0 }
      ∧ (∀ z, z ≠ y → t.ctx c z = if (s.core c).running = some z ∧ z < 5 then (s.ctx c z).switchOut else s.ctx c z) ∧ ∀ d, d ≠ c → t.core d = s.core d)
    ∧ (∃ t, exec .debugResume s = .next t ∧ t = { s with cores := t.cores }
      ∧ (k.stopped = false ∨ (∀ w, k.worker = some w → (s.vi w.vi).debug = false) → t.ctx c x = { k with stopped := false })
      ∧ (∀ w, k.worker = some w → k.stopped = true → (s.vi w.vi).debug = true →
        t.ctx c x = { k with stopped := false, ctl := { k.ctl with step := BitVec.ofNat 2 s.focus.k } })
      ∧ Claims.others s t c x)
    ∧ (∀ w n, k.worker = some w → k.killReq = some n → k.sys = none → k.closed = false → ∃ t, exec .wdog s = .next t
      ∧ t.ctx c x = { k with awaiting := [], blocked := 0, tokDone := false, hasBlocked := false, resumed := true
                             sys := some { cause := .wdog, pc := k.pc, addr := 0, first := none } }
      ∧ (t.core c).running = some 4 ∧ (t.core c).stall = (s.core c).stall + 6
      ∧ (∀ d y, d ≠ c ∨ y ≠ x → t.ctx d y = if d = c ∧ (s.core c).running = some y ∧ y < 4 then (s.ctx c y).switchOut else s.ctx d y)
      ∧ t = { s with cores := t.cores, dies := t.dies, scopeDecs := t.scopeDecs, waiters := t.waiters })
    ∧ (∀ e w, k.sys = some e → k.worker = some w → k.starting = false → e.cause = .wdog → ∃ t, exec .systemReturn s = .next t
      ∧ (∃ tok, t.ctx c x = { k.emptied with tok := tok }) ∧ (Claims.stands s w.uid c x → Claims.others s t c x)
      ∧ ((s.core c).running = some 4 → (t.core c).running = none) ∧ t.mem = s.mem ∧ (t.vi w.vi).eseq = (s.vi w.vi).eseq + 1)
    ∧ ∀ e w, k.sys = some e → k.worker = some w → k.frozen = false → k.killReq = none → e.cause ≠ .wdog →
      (e.cause = .resid → ∃ t, exec .systemReturn s = .next t ∧ t.ctx c x = { k with sys := none } ∧ Claims.others s t c x
        ∧ ((s.core c).running = some 4 → (t.core c).running = some x) ∧ (t.core c).stall = (s.core c).stall + 6 ∧ t = { s with cores := t.cores })
      ∧ (e.cause ≠ .resid → e.cause = .sstep ∨ (s.vi w.vi).debug = true → ∃ t, exec .systemReturn s = .next t
        ∧ t.ctx c x = { k with sys := none, stopped := true } ∧ Claims.others s t c x
        ∧ ((s.core c).running = some 4 → (t.core c).running = none) ∧ t = { s with cores := t.cores })
      ∧ (e.cause ≠ .resid → e.cause ≠ .sstep → (s.vi w.vi).debug = false → k.starting = false → ∃ t, exec .systemReturn s = .next t
        ∧ (∃ tok, t.ctx c x = { k.emptied with tok := tok }) ∧ (Claims.stands s w.uid c x → Claims.others s t c x)
        ∧ ((s.core c).running = some 4 → (t.core c).running = none) ∧ t.mem = s.mem ∧ (e.first = none → (t.vi w.vi).eseq = (s.vi w.vi).eseq + 1))

/-- R108, R116, R123, R196, R205: the head of the LAQ is sent once the LDQ has room, and takes its place at its tail; a piece of a load that nothing holds takes the
bytes that its die sees, or those that were fixed for it before (R206, R209; the model's reading, log 49); an entry that has all its bytes lands, its count falling. None of the three changes memory. The steps, and the focus that says what a step acts on, are the model's own (log 1). -/
def Obligations.LoadsAreServed : Prop :=
  ∀ (s : State) (c x i : Nat) (k : Ctx), c = s.focus.c → x = s.focus.x → i = s.focus.i → x < 5 → k = s.ctx c x →
    (∀ r l, k.laq = r :: l → k.ldq.length < 32 → r.op = .plain → ∃ t, exec .laqSend s = .next t
      ∧ t.ctx c x = { k with laq := l, ldq := k.ldq ++ [{ req := r }] } ∧ t = { s with cores := t.cores })
    ∧ (∀ e ps, k.ldq[i]? = some e → e.req.op = .plain → e.complete = false → e.landed = false → ps = e.piece s.focus.k → ps ≠ [] →
      s.pieceWaits c k e.req ps = false → s.pieceMarks c k e.req ps = [] → ∃ t, exec .homeAccessArrival s = .next t ∧ t.mem = s.mem
        ∧ (t.ctx c x).ldq[i]? = some { e with got := e.got ++ ps.map fun (p : Int × Nat) => (p.2, s.reqByte c k e.req p.1) }
        ∧ (∀ p ∈ ps, s.fixedByte c k e.req p.1 = none → s.reqByte c k e.req p.1 = s.loadByte c k p.1)
        ∧ (t.ctx c x).laq = k.laq ∧ (t.ctx c x).g = k.g)
    ∧ (∀ e ps, k.ldq[i]? = some e → e.req.op = .plain → e.complete = false → e.landed = false → e.held = false → ps = e.piece s.focus.k → ps ≠ [] →
      s.pieceWaits c k e.req ps = false → s.pieceMarks c k e.req ps ≠ [] → ∃ t f, exec .homeAccessArrival s = .next t ∧ t.mem = s.mem
        ∧ (t.ctx c x).ldq[i]? = some f ∧ f.mark.isSome = true ∧ f.req = e.req)
    ∧ ∀ e, k.ldq[i]? = some e → e.complete = true → e.landed = false → e.held = false → ∃ t, exec .ldqEntryLand s = .next t
      ∧ t.ctx c x = { k with ldq := k.ldq.set i { e with landed := true }
                             cnt := { k.cnt with loads := k.cnt.loads - 1, stores := if e.req.isAmo then k.cnt.stores - 1 else k.cnt.stores } }
      ∧ t = { s with cores := t.cores }

/-- R118-R123, R193, R205, R206: the store at the SAQ's head leaves it with the bytes it is to write once its data are there and its bytes pass their check; where one
fails, it stays and its fault is pending. A piece of a sent store that nothing holds writes its bytes, at home where they are its die's own and through the die's
remote-data cache otherwise, and no other byte; the store is done with its last piece. The own Bivouac die accepts bytes of another module first (R204); home's acknowledgement of a
write-through then writes its bytes, after those of earlier ones to the same bytes (R206). The steps, and the focus that says what a step acts on, are the model's own (log 1). -/
def Obligations.StoresArePerformed : Prop :=
  ∀ (s : State) (c x i : Nat) (k : Ctx), c = s.focus.c → x = s.focus.x → i = s.focus.i → x < 4 → k = s.ctx c x →
    (∀ r l img eb mk d m cells, k.saq = r :: l → k.storeFault = none → s.recordHeld c k r = false → r.op = .plain img eb mk → k.storeData r = some (d, m) →
      s.storeMark c k (img.filter fun p => m.getLsbD p.2) (fun _ => none) = none → cells = s.storeCells c k (img.filter fun p => m.getLsbD p.2) eb d →
      ∃ t, exec .saqDrain s = .next t ∧ t = { s with cores := t.cores } ∧ (t.ctx c x).saq = l ∧ (t.ctx c x).drainFirst = false
        ∧ (cells = [] → (t.ctx c x).stFlight = k.stFlight ∧ (t.ctx c x).cnt = { k.cnt with stores := k.cnt.stores - 1 })
        ∧ (cells ≠ [] → (t.ctx c x).stFlight = k.stFlight ++ [{ seq := r.seq, req := r, cells := cells }] ∧ (t.ctx c x).cnt = k.cnt))
    ∧ (∀ r l img eb mk d m b, k.saq = r :: l → k.storeFault = none → k.drainFirst = false → s.recordHeld c k r = false → r.op = .plain img eb mk →
      k.storeData r = some (d, m) → s.storeMark c k (img.filter fun p => m.getLsbD p.2) (fun _ => none) = some b →
      ∃ t, exec .saqDrain s = .next t ∧ t.mem = s.mem ∧ (t.ctx c x).saq = k.saq ∧ (t.ctx c x).storeFault = some b)
    ∧ (∀ f ps pa b cells, k.stFlight[i]? = some f → f.req.op.isData = true → ps = f.piece s.focus.k → s.storeWaits c k f.seq ps = false →
      ps.filterMap (fun (p : Nat × Loc × Byte) => (s.landing p.2.1).map fun a => (a, p.2.2)) = (pa, b) :: cells →
      ∃ t, exec .storePerform s = .next t
        ∧ (s.isLocal (dieOf c) pa = true → t.mem = memPut s.mem ((pa, b) :: cells)
          ∧ ∀ a, a ≠ pa → (∀ q ∈ cells, q.1 ≠ a) → memGet t.mem a = memGet s.mem a)
        ∧ (s.isLocal (dieOf c) pa = false → t.mem = s.mem
          ∧ (t.die (dieOf c)).wt = (s.die (dieOf c)).wt ++ [{ core := c, ctx := x, uid := k.uid, seq := f.seq,
                                                                  id := (s.die (dieOf c)).wtNext, cells := (pa, b) :: cells }])
        ∧ ((∀ q ∈ f.cells, q ∈ ps) → (t.ctx c x).stFlight = k.stFlight.eraseIdx i ∧ (t.ctx c x).cnt = { k.cnt with stores := k.cnt.stores - 1 })
        ∧ ((∃ q ∈ f.cells, q ∉ ps) → (t.ctx c x).stFlight = k.stFlight.set i { f with cells := f.cells.filter fun q => !(ps.contains q) }
          ∧ (t.ctx c x).cnt = k.cnt))
    ∧ ∀ d w, d = s.focus.d → s.focus.o ≠ 1 → (s.die d).wt[i]? = some w → (∀ v ∈ (s.die d).wt.take i, ∀ p ∈ v.cells, ∀ q ∈ w.cells, q.1 ≠ p.1) →
      ((∀ q ∈ w.cells, paMod q.1 = s.mod) ∨ (w.bivouac = true ∧ s.acceptedBefore d w = false) → ∃ t, exec .writeThroughAck s = .next t ∧ t.mem = memPut s.mem w.cells
        ∧ (t.die d).wt = (s.die d).wt.eraseIdx i ∧ t.cores = s.cores)
      ∧ ((∃ q ∈ w.cells, paMod q.1 ≠ s.mod) → w.bivouac = false → ∃ t, exec .writeThroughAck s = .next t ∧ t.mem = s.mem
        ∧ t.accepted = s.accepted ++ [{ die := d, id := w.id, cells := w.cells }] ∧ (t.die d).wt = (s.die d).wt.set i { w with bivouac := true })

/-- R197-R202, R401: PAGER_FILL_START gives the first fill whose page is not being evicted a FREE frame; PAGE_FILL_COMPLETE, a fill's last byte, makes the frame
RESIDENT, or PINNED, with the backing's bytes or zeros, and clean; CLAIM_COMPLETE of a claim that is drained writes a dirty frame back, unless it is read-only, and frees it;
and NVME_FAILURE frees the frame of a fill and leaves that of a claim. The steps, and the focus that says what a step acts on, are the model's own (log 1). Which FREE frame a fill takes, and what a failed write-back leaves, are the model's choice (log 15). -/
def Obligations.PagesComeAndGo : Prop :=
  ∀ (s : State) (d i b : Nat), d = s.focus.d → i = s.focus.i → s.focus.o ≠ 1 → b = s.frameAddr d i →
    (∀ f, (s.die d).fillQ.find? (fun f => !s.evicting f.page) = some f → (s.die d).frames.length < 61035 → i < 61035 → s.frame? d i = none →
      ∃ t, exec .pagerFillStart s = .next t ∧ t.mem = s.mem ∧ t.cores = s.cores ∧ (t.die d).fillQ = (s.die d).fillQ.erase f
        ∧ t.frame? d i = some { state := .filling, page := f.page, dirty := false, ro := f.ro, pins := 0 })
    ∧ (∀ f, s.frame? d i = some f → f.state = .filling →
      (∀ pa, f.page = .cxl pa → ∃ t g, exec .pageFillComplete s = .next t ∧ t.mem = memMove s.mem pa (2 ^ 21) b ∧ t.cores = s.cores
        ∧ t.frame? d i = some g ∧ g.page = f.page ∧ g.dirty = false ∧ (g.state = .resident ∨ g.state = .pinned))
      ∧ (∀ l w n, f.page = .anon l w n → ∃ t g, exec .pageFillComplete s = .next t ∧ t.cores = s.cores
        ∧ t.frame? d i = some g ∧ g.page = f.page ∧ g.dirty = false ∧ (g.state = .resident ∨ g.state = .pinned)
        ∧ ∀ a, memGet t.mem a = if b ≤ a ∧ a < b + 2 ^ 21 then memZero else memGet s.mem a)
      ∧ ∀ k n, f.page = .nvme k n → (∃ t, exec .nvmeFailure s = .next t ∧ t.frame? d i = none ∧ t.mem = s.mem ∧ t.nvmeMem = s.nvmeMem)
        ∧ ∀ a, s.chunkAddr k n = some a → ∃ t g, exec .pageFillComplete s = .next t ∧ t.cores = s.cores ∧ t.frame? d i = some g ∧ g.page = f.page
          ∧ g.dirty = false ∧ (g.state = .resident ∨ g.state = .pinned) ∧ t.mem = memPaste s.mem b (2 ^ 21) (cellsMoved s.nvmeMem a (2 ^ 21) b))
    ∧ ∀ f, s.frame? d i = some f → f.state = .claimed →
      (∀ k n, f.page = .nvme k n → ∃ t, exec .nvmeFailure s = .next t ∧ t.dies = s.dies ∧ t.mem = s.mem ∧ t.nvmeMem = s.nvmeMem)
      ∧ (s.claimDrained f.page b = true → (∀ a ∈ s.badEcc, a < b ∨ b + 2 ^ 21 ≤ a) →
      (f.dirty = false ∨ f.ro = true → ∃ t, exec .claimComplete s = .next t ∧ t.frame? d i = none ∧ t.mem = s.mem ∧ t.cores = s.cores)
      ∧ (∀ pa, f.dirty = true → f.ro = false → f.page = .cxl pa → ∃ t, exec .claimComplete s = .next t ∧ t.frame? d i = none
        ∧ t.mem = memMove s.mem b (2 ^ 21) pa ∧ t.cores = s.cores)
      ∧ ∀ k n a, f.dirty = true → f.ro = false → f.page = .nvme k n → s.chunkAddr k n = some a → ∃ t, exec .claimComplete s = .next t
        ∧ t.frame? d i = none ∧ t.nvmeMem = memPaste s.nvmeMem a (2 ^ 21) (cellsMoved s.mem b (2 ^ 21) a) ∧ t.mem = s.mem ∧ t.cores = s.cores)

/-- R210-R213, R217-R219, R239, R240: at an object's home an acq of a counted version that has been reached is answered with it, one that has not waits there, or is to ask
again after 256 clk where the list is full; a rel raises the version by one; an amo replaces its bytes by its operation's result and its entry takes the old
ones; an arrival on a barrier takes one from its count at the end of its cycle, and turns its phase with the last of a phase that owes no bytes; and bwait is answered once the
phase has turned, and waits there until then. The steps, and the focus that says what a step acts on, are the model's own (log 1). -/
def Obligations.SyncObjectsAnswer : Prop :=
  ∀ (s : State) (c x i : Nat) (k : Ctx), c = s.focus.c → x = s.focus.x → i = s.focus.i → x < 4 → k = s.ctx c x →
    (∀ a pa w, k.request .sy = some a → a.code = 0x343 → a.reply = none → s.placeSpan c k a.a.toNat 64 = .ok pa →
      w = BitVec.ofNat 64 (memNat s.mem pa 8) → objExclusive w = false →
      (0 ≤ (objVer w - a.t.extractLsb' 3 32).toInt → a.retry = false → ∃ t, exec .acqAtHome s = .next t ∧ t.mem = s.mem
        ∧ ((t.ctx c x).request .sy).map (·.reply) = some (some (.value ((objVer w).zeroExtend 64))))
      ∧ (0 ≤ (objVer w - a.t.extractLsb' 3 32).toInt → (a.retry = false ∨ a.retryAt ≤ s.clk) → ∃ t, exec .waiterRetry s = .next t ∧ t.mem = s.mem
        ∧ ((t.ctx c x).request .sy).map (·.reply) = some (some (.value ((objVer w).zeroExtend 64))))
      ∧ ((objVer w - a.t.extractLsb' 3 32).toInt < 0 → a.retry = false → (∀ h ∈ s.waiters, ¬ (h.pa = pa ∧ h.uid = k.uid)) →
        (s.waitRoom pa = true → ∃ t, exec .acqAtHome s = .next t ∧ t.waiters = s.waiters ++ [{ pa := pa, uid := k.uid }]
          ∧ t.ctx c x = { k with pages := [] } ∧ Claims.others s t c x ∧ t.mem = s.mem)
        ∧ (s.waitRoom pa = false → ∃ t, exec .acqAtHome s = .next t ∧ t.mem = s.mem ∧ t.waiters = s.waiters
          ∧ ((t.ctx c x).request .sy).map (fun b => (b.retry, b.retryAt)) = some (true, s.clk + 256))))
    ∧ (∀ f sc pa w, k.stFlight[i]? = some f → f.req.op = .rel sc → (s.locate c k (f.req.va : Int)).bind s.landing = some pa →
      w = BitVec.ofNat 64 (memNat s.mem pa 8) → objExclusive w = false → (∀ h ∈ s.waiters, h.pa ≠ pa) →
      ∃ t, exec .relAtHome s = .next t ∧ objVer (BitVec.ofNat 64 (memNat t.mem pa 8)) = objVer w + 1
        ∧ (∀ a, a < pa ∨ pa + 8 ≤ a → memGet t.mem a = memGet s.mem a) ∧ (t.ctx c x).stFlight = k.stFlight.eraseIdx i
        ∧ (t.ctx c x).cnt = { k.cnt with stores := k.cnt.stores - 1 })
    ∧ (∀ e o n sc m cv dv pa old, k.ldq[i]? = some e → e.req.op = .amo o n sc m cv dv → e.complete = false → k.amoFence e.req.seq = false →
      (∀ p ∈ e.req.img, s.storeBefore c k e.req.seq (s.locate c k p.1) = false ∧ s.loadBefore c k e.req.seq (s.locate c k p.1) = false
        ∧ s.refusedAmo c k e.req.seq (s.locate c k p.1) = false) →
      s.place ((e.req.img.map fun p => s.locate c k p.1).headD none) = .ok pa → (∀ j, j < n → s.isBad (pa + j) = false) →
      (∀ q ∈ (s.die (dieOf c)).wt, ∀ y ∈ q.cells, ¬ (pa ≤ y.1 ∧ y.1 < pa + n)) →
      (∀ q ∈ s.accepted, ∀ y ∈ q.cells, ¬ (pa ≤ y.1 ∧ y.1 < pa + n)) → sc.toNat < 4 → old = memNat s.mem pa n →
      ∃ t, exec .amoPerform s = .next t ∧ (∀ a, a < pa ∨ pa + n ≤ a → memGet t.mem a = memGet s.mem a)
        ∧ (t.ctx c x).ldq[i]? = some { e with got := (List.range n).map fun j => (j, BitVec.ofNat 8 (old >>> (8 * j))) }
        ∧ memNat t.mem pa n = (match o with
          | .add => (old + dv.toNat) % 2 ^ (8 * n)
          | .and => (old &&& dv.toNat) % 2 ^ (8 * n)
          | .or => (old ||| dv.toNat) % 2 ^ (8 * n)
          | .xor => (old ^^^ dv.toNat) % 2 ^ (8 * n)
          | .swp => dv.toNat % 2 ^ (8 * n)
          | .cas => if old = cv.toNat then dv.toNat % 2 ^ (8 * n) else old
          | .min => if intOf (8 * n) true dv.toNat < intOf (8 * n) true old then dv.toNat % 2 ^ (8 * n) else old
          | .max => if intOf (8 * n) true old < intOf (8 * n) true dv.toNat then dv.toNat % 2 ^ (8 * n) else old
          | .fadd => (f32.round 0 0 ((f32.decode old).add (f32.decode dv.toNat)).toRV).bits % 2 ^ (8 * n)))
    ∧ (∀ f sc pa n, s.barNow = [] → k.stFlight[i]? = some f → f.req.op = .barr sc → (s.locate c k (f.req.va : Int)).bind s.landing = some pa →
      (∀ g ∈ k.stFlight.take i, g.req.op.barOp = none) → s.storeWaits c k f.seq f.cells = false → s.storeComing c k.uid f.seq pa = false →
      n = memNat s.mem pa 32 → 0 < barParr n →
      ∃ t u m, exec .barrierUpdate s = .next t ∧ t.mem = s.mem ∧ u = t.endBarriers ∧ m = memNat u.mem pa 32 ∧ barExpected m = barExpected n
        ∧ (1 < barParr n ∨ barBytes n ≠ 0 → barPhase m = barPhase n ∧ barParr m = barParr n - 1 ∧ barBytes m = barBytes n)
        ∧ (barParr n = 1 → barBytes n = 0 → barPhase m = !barPhase n ∧ barParr m = barExpected n ∧ barBytes m = 0)
        ∧ (∀ a, a < pa ∨ pa + 32 ≤ a → memGet u.mem a = memGet s.mem a) ∧ (t.ctx c x).stFlight = k.stFlight.eraseIdx i)
    ∧ ∀ a pa, k.request .ce = some a → a.code = 0x2C7 → a.reply = none → s.placeSpan c k a.a.toNat 32 = .ok pa →
      (barPhase (memNat s.mem pa 32) ≠ a.t.getLsbD 0 → (a.retry = false ∨ (s.focus.o = 1 ∧ a.retryAt ≤ s.clk)) → ∃ t, exec .bwaitReply s = .next t ∧ t.mem = s.mem
        ∧ ((t.ctx c x).request .ce).map (·.reply) = some (some (.value 0)) ∧ ∀ h ∈ t.waiters, ¬ (h.pa = pa ∧ h.uid = k.uid))
      ∧ (barPhase (memNat s.mem pa 32) = a.t.getLsbD 0 → a.retry = false → s.focus.o ≠ 1 →
        ((∃ h ∈ s.waiters, h.pa = pa ∧ h.uid = k.uid) → exec .bwaitReply s = .next s)
        ∧ ((∀ h ∈ s.waiters, ¬ (h.pa = pa ∧ h.uid = k.uid)) →
          (s.waitRoom pa = true → exec .bwaitReply s = .next { s with waiters := s.waiters ++ [{ pa := pa, uid := k.uid }] })
          ∧ (s.waitRoom pa = false → ∃ t, exec .bwaitReply s = .next t ∧ t.mem = s.mem ∧ t.waiters = s.waiters
            ∧ ((t.ctx c x).request .ce).map (fun b => (b.retry, b.retryAt)) = some (true, s.clk + 256))))

/-! ## Statements about launches, workers and interfaces -/

/-- R8, R13, R137, R140, R161-R164, R172: where one queue alone has a head that has passed its checks and can be placed, a dispatch round claims its contexts and it
runs; a claimed worker starts with its window table copied, SEED formed from its launch's SSEED and its rank, and its other registers as they were claimed; a
launch that is over leaves the running ones, with an event where a packet brought it; and a charge that arrives joins its launch's. The steps, and the focus that says what a step acts on, are the model's own (log 1). -/
def Obligations.LaunchesRunAndComplete : Prop :=
  (∀ (s : State) (q : Nat) (l : Launch) (ps : List (Nat × List Nat)), s.launches = [] → s.launchQ = [(q, [l])] → l.checked = true → l.resume = [] →
    l.pipe = none → (s.vi l.vi).frozen = false → s.plan l = some ps →
    ∃ t n, exec .dispatchRound s = .next t ∧ t.launches = [n] ∧ n.id = l.id ∧ n.rcd = l.rcd ∧ n.sseed = (s.vi l.vi).sseed
      ∧ n.workers.length = (s.kernelWorkers l ps).length ∧ tget [] t.launchQ q = [] ∧ t.mem = s.mem ∧ t.dies = s.dies
      ∧ ∀ e ∈ s.kernelWorkers l ps, (t.ctx e.1.1 e.1.2).worker.isSome = true ∧ (t.ctx e.1.1 e.1.2).starting = true)
  ∧ (∀ (s : State) (c x : Nat) (k : Ctx) (w : Worker) (l : Launch) (v : Word), c = s.focus.c → x = s.focus.x → x < 4 → k = s.ctx c x →
    k.worker = some w → k.starting = true → k.frozen = false → (∀ i ∈ s.images, i.uid = w.uid → i.saved = none) → w.walk = none →
    s.launch? w.launch = some l → (∀ b ∈ (s.copyTable w.rcd.wtab).1, s.outsidePart w.vi b = false) →
    v = l.sseed ^^^ BitVec.ofNat 64 (s.mod * 2 ^ 16 + w.modRank) * 0x9E3779B97F4A7C15 →
    ∃ t, exec .workerStart s = .next t ∧ (t.ctx c x).starting = false ∧ (t.ctx c x).ctl = { k.ctl with seed := if v = 0 then 1 else v, step := l.step }
      ∧ (t.ctx c x).worker.map (·.wins) = some (s.copyTable w.rcd.wtab).1 ∧ (t.ctx c x).g = k.g ∧ (t.ctx c x).v = k.v ∧ t.mem = s.mem)
  ∧ (∀ (s : State) (l : Launch), s.launches[s.focus.i]? = some l → s.launchOver l = true → scopeNil l.scope = true → l.walk = none →
    (s.vi l.vi).resetting = false → ∃ t, exec .launchComplete s = .next t ∧ t.launches = s.launches.filter (fun m => m.id != l.id) ∧ t.mem = s.mem
      ∧ (l.fromHost = true → (t.vi l.vi).eseq = (s.vi l.vi).eseq + 1 ∧ t.irqs = if l.irq then s.irqs ++ [(l.vi, l.vec.toNat)] else s.irqs)
      ∧ (l.fromHost = false → l.killed = 0 → t.vis = s.vis))
  ∧ ∀ (s : State) (m : Nat × Nat), s.energyMsgs[s.focus.i]? = some m → ∃ t, exec .energyChargeArrival s = .next t
      ∧ t = { s with energyMsgs := s.energyMsgs.eraseIdx s.focus.i
                     launches := s.launches.map fun l => if l.id = m.1 then { l with charge := l.charge + m.2 } else l }

/-- R397, R398: a packet in order, for an enabled interface and with a place in its queue, raises LSEQ and joins its queue, its body taken when both its numbers
match and to be read again otherwise; any other is refused, with an event, and changes neither. A retry reads the body once more, and the ninth read that
fails takes the launch out of its queue, with an event; a read that ends in an error completion is violation 2 (R399), and the host writes its segments. That the body is read at
the address as given, whatever its alignment, that the scope is taken from the record as the body is read, and which of these a step makes are the model's reading (log 36); the steps, and
the focus that says what a step acts on, its own (log 1). -/
def Obligations.PacketsAreQueuedOrRefused : Prop :=
  (∀ (s : State) (v o q : Nat) (w : BitVec 512) (good : Prop), v = s.focus.v % 64 → o = s.focus.o → w = s.focus.w → q = v * 16 + (w.extractLsb' 32 4).toNat →
    (good ↔ (o % 64 = 0 ∧ o < 0x1000 ∧ (s.vi v).en = true ∧ (s.vi v).frozen = false ∧ (s.vi v).resetting = false ∧ w.extractLsb' 0 32 = (s.vi v).lseq + 1
      ∧ s.queueFill q < 64 ∧ w.extractLsb' 192 320 = 0 ∧ w.extractLsb' 41 23 = 0)) →
    (good → (∀ m ∈ s.queue q, m.id ≠ s.nextId) → s.focus.k = 0 → ∃ t l, exec .launchPacket s = .next t ∧ (t.vi v).lseq = w.extractLsb' 0 32
      ∧ t.queue q = s.queue q ++ [l] ∧ l.vi = v ∧ l.fromHost = true ∧ l.seq = w.extractLsb' 0 32 ∧ l.cookie = w.extractLsb' 128 64
      ∧ (readBody s.hostMem (w.extractLsb' 64 64).toNat l.seq = none → l.body = .pending (w.extractLsb' 64 64).toNat 1 s.clk)
      ∧ (∀ b, readBody s.hostMem (w.extractLsb' 64 64).toNat l.seq = some b → l.body = .taken ∧ l.scope = (LoopRec.ofBits b).scope))
    ∧ (good → s.focus.k ≠ 0 → ∃ t, exec .launchPacket s = .next t ∧ (t.vi v).lseq = w.extractLsb' 0 32 ∧ (t.vi v).frozen = true ∧ (t.vi v).vcause = 2)
    ∧ (¬ good → ∃ t, exec .launchPacket s = .next t ∧ t.launchQ = s.launchQ ∧ (t.vi v).lseq = (s.vi v).lseq ∧ (t.vi v).eseq = (s.vi v).eseq + 1))
  ∧ (∀ (s : State), s.focus.o = 1 → exec .bodyRetry s = .next { s with hostMem := memWrite s.hostMem s.focus.d (natBytes (Nat.min 64 s.focus.i) s.focus.w.toNat) })
  ∧ ∀ (s : State) (l : Launch) (a n last q : Nat), s.focus.o ≠ 1 → s.bodies[s.focus.i]? = some l → l.body = .pending a n last → last + 4000 ≤ s.clk →
    (s.vi l.vi).frozen = false → q = l.vi * 16 + l.queue →
    (s.focus.k ≠ 0 → ∃ t, exec .bodyRetry s = .next t ∧ (t.vi l.vi).frozen = true ∧ (t.vi l.vi).vcause = 2)
    ∧ (∀ b, s.focus.k = 0 → readBody s.hostMem a l.seq = some b → ∃ t, exec .bodyRetry s = .next t
      ∧ (t.queue q).map (·.body) = (s.queue q).map fun m => if m.id = l.id then .taken else m.body)
    ∧ (s.focus.k = 0 → readBody s.hostMem a l.seq = none → n < 8 → ∃ t, exec .bodyRetry s = .next t
      ∧ t.queue q = (s.queue q).map fun m => if m.id = l.id then { l with body := .pending a (n + 1) s.clk } else m)
    ∧ (s.focus.k = 0 → readBody s.hostMem a l.seq = none → 8 ≤ n → ∃ t, exec .bodyRetry s = .next t
      ∧ t.queue q = (s.queue q).filter (fun m => m.id ≠ l.id) ∧ (t.vi l.vi).eseq = (s.vi l.vi).eseq + 1)

/-- R143, R146-R148, R150, R152, R158, R159: a member's arrival reaches its module team; a request reaches its scope, which counts it and answers 0 where it is live and answers 1
otherwise; a decrement takes one from its scope's count, and with the last the scope is free at the end of its cycle; an entry pushed at least 16 cycles ago becomes visible
to the consumers and a slot popped as long ago free to the producers; and the end of an interval of 2^ivexp cycles, once, starts the move that it chooses and clears the
counts of blocked cycles. The steps, and the focus that says what a step acts on, are the model's own (log 1). -/
def Obligations.MessagesArrive : Prop :=
  (∀ (s : State) (m : TeamMsg), s.teamMsgs[s.focus.i]? = some m → ∃ t, exec .teamMessageArrival s = .next t
    ∧ t = { s with teamMsgs := s.teamMsgs.eraseIdx s.focus.i
                   launches := s.launches.map fun l => if l.id = m.launch then
                     l.updTeam none (fun b => if b.members.contains m.uid then b.arrive m.uid else b) else l })
  ∧ (∀ (s : State) (m : ScopeReq) (c x : Nat) (a : Awaiting), s.scopeReqs[s.focus.i]? = some m → s.place? m.uid = some (c, x) → m.close = false →
    (s.ctx c x).awaiting.find? (fun a => a.rid = m.rid) = some a →
    (s.scopeLive m.id = true → (s.scope m.id).pending < 2 ^ 32 - 1 → ∃ t, exec .scopeRemoteRequest s = .next t
      ∧ (t.scope m.id).pending = (s.scope m.id).pending + 1 ∧ t.scopeReqs = s.scopeReqs.eraseIdx s.focus.i
      ∧ ((t.ctx c x).awaiting.find? (fun a => a.rid = m.rid)).map (·.reply) = some (some (.value 0)))
    ∧ (s.scopeLive m.id = false → ∃ t, exec .scopeRemoteRequest s = .next t ∧ t.dies = s.dies ∧ t.scopeReqs = s.scopeReqs.eraseIdx s.focus.i
      ∧ ((t.ctx c x).awaiting.find? (fun a => a.rid = m.rid)).map (·.reply) = some (some (.value 1))))
  ∧ (∀ (s : State) (id : BitVec 16), s.scopeDecs[s.focus.i]? = some id → s.scopeLive id = true →
    ∃ t, exec .scopeDecrement s = .next t ∧ t.scope id = { s.scope id with pending := (s.scope id).pending - 1 } ∧ t.mem = s.mem
      ∧ t.scopeDecs = s.scopeDecs.eraseIdx s.focus.i
      ∧ ((s.scope id).pending = 1 → ((t.scopesEnd 2048).scope id).valid = false ∧ (t.scopesEnd 2048).scopeLive id = false))
  ∧ (∀ (s : State) (p : Pipeline) (k : Nat) (q : ChanQueue), s.pipes[s.focus.i]? = some p → k = s.focus.k → p.queues[k]? = some q →
    (∃ t, exec .stageEntryVisible s = .next t ∧ t = { s with pipes := t.pipes } ∧ (t.pipes[s.focus.i]?.bind fun p => p.queues[k]?)
      = some { q with entries := q.entries.map fun e => if e.since + 16 ≤ s.clk then { e with visible := true } else e })
    ∧ ∃ t, exec .stageSlotFreed s = .next t ∧ t = { s with pipes := t.pipes } ∧ (t.pipes[s.focus.i]?.bind fun p => p.queues[k]?)
      = some { q with gone := q.gone.filter fun n => s.clk < n + 16 })
  ∧ ∀ (s : State) (p : Pipeline), s.pipes[s.focus.i]? = some p → p.start < s.clk → (s.clk - p.start) % 2 ^ p.ivexp = 0 → p.measured ≠ s.clk → ∃ t p', exec .balancerInterval s = .next t ∧ t.pipes[s.focus.i]? = some p'
      ∧ p'.blocked = p.blocked.map (fun _ => 0) ∧ t.mem = s.mem ∧ (s.chooseMove p = none → p'.cores = p.cores ∧ t.cores = s.cores)
      ∧ ∀ c d r, s.chooseMove p = some (c, d, r) → c ∈ p'.cores.getD r [] ∧ (d ≠ r → c ∉ p'.cores.getD d [])

/-- R19, R25, R176-R178, R351, R352, R356, R357: a worker of which nothing is outstanding is saved, its due results delivered, and its context becomes empty; the restore of a saved one reads its image from memory,
and when it has no tile to load again, owns no object and what it may have seen is home, it stands in the context that was claimed for it, the words of its image's spill area behind
those of its FIFO, and its slot is kept until it issues a bundle (log 67); a response for a saved worker is written into that area, and nowhere else but the count of its flits; and the watchdog of a queue goes from RUN to PRE, from PRE to
KILL with its running launches killed, and from KILL to IDLE with the cores of their workers fenced, by the limits that stood before the clk (R177), the progress of the clk before them. A fenced core that is reset runs again. The steps, and the focus that says what a
step acts on, are the model's own (log 1); that an act at a time reads an image, and that a restore waits for what was seen, are its choices (logs 32, 51). -/
def Obligations.WorkersAreSavedRestoredAndFenced : Prop :=
  (∀ (s : State) (c x : Nat) (k : Ctx) (w : Worker) (i : Image), c = s.focus.c → x = s.focus.x → x < 4 → k = s.ctx c x → k.worker = some w →
    k.saving = true → k.frozen = false → k.sys = none → k.ldq = [] → k.stFlight = [] → k.saq = [] → (∀ m ∈ (s.core c).calls, m.uid ≠ w.uid) →
    s.images.find? (fun i => i.reserved w.uid) = some i → ∃ t, exec .preemptSave s = .next t ∧ t.ctx c x = {} ∧ (t.core c).running ≠ some x
      ∧ ∃ j u, j ∈ t.images ∧ j.uid = w.uid ∧ j.slot = i.slot ∧ j.core = c ∧ j.saved = some u ∧ u.g = k.g ∧ u.pc = k.pc ∧ u.port = k.deliverDue.port ∧ u.snap = k.deliverDue.snap
        ∧ u.worker = some w)
  ∧ (∀ (s : State) (n c x : Nat) (i : Image) (k : Ctx), n = s.focus.i → s.images[n]? = some i → i.saved = some k → i.owed = 0 →
    s.cores.findSome? (fun p => ([0, 1, 2, 3].find? fun x => (p.2.ctx x).isWorker i.uid && (p.2.ctx x).starting).map fun x => (p.1, x)) = some (c, x) →
    (s.ctx c x).frozen = false →
    (i.begun = false → ∃ t, exec .restore s = .next t ∧ t.mem = s.mem
      ∧ t.images[n]? = some { i with begun := true, reloaded := 0, loading := none, saved := some (readImage (s.imageNat i) k) })
    ∧ (i.begun = true → k.roTiles = [] → k.owns = [] → (dieOf i.core = dieOf c ∨ ∀ w ∈ (s.die (dieOf i.core)).wt, k.wtSeen ≤ w.id) →
      ∃ t, exec .restore s = .next t ∧ t.mem = s.mem
        ∧ t.images = s.images.map (fun j => if j.uid = i.uid && (j.saved.isSome || j.loading.isSome) then { j with saved := none, calls := [], fresh := true } else j)
        ∧ t.ctx c x = { k with recvF := k.recvF ++ (List.range i.spill.length).map fun j => BitVec.ofNat 64 (memNat s.mem (s.imageBase i + (0xBA00 + 8 * j)) 8)
                               resumed := true, wtSeen := if dieOf i.core = dieOf c then k.wtSeen else 0
                               saving := (s.ctx c x).preempt && k.atRest, preempt := (s.ctx c x).preempt && !k.atRest }))
  ∧ (∀ (s : State) (m : FabricMsg) (ws : List Word) (n : Nat) (i : Image), s.fabric[s.focus.i]? = some m → m.resp = some ws → m.away = none → s.savedImage m.uid = some n →
    s.arrived m.id true = true → s.images[n]? = some i → ∃ t, exec .spillWrite s = .next t ∧ t.fabric = s.fabric.eraseIdx s.focus.i
      ∧ t.images[n]? = some { i with spill := i.spill ++ ws, owed := i.owed - m.room }
      ∧ ∀ a, (a < s.imageBase i + 0x40 ∨ s.imageBase i + 0x48 ≤ a) →
        (a < s.imageBase i + 0xBA00 + 8 * i.spill.length ∨ s.imageBase i + 0xBA00 + 8 * i.spill.length + 8 * ws.length ≤ a) → memGet t.mem a = memGet s.mem a)
  ∧ (∀ (s u : State) (v q : Nat) (d : Watchdog), v = s.focus.v → q = s.focus.k → u = s.settleTeams.endBarriers → d = (u.vi v).dog q → (u.vi v).frozen = false →
    (d.state = .run → d.lims.1 ≠ 0 → d.lims.1 * 4000 ≤ d.count → d.lims.2.1 ≠ 0 → ∃ t, exec .watchdogPre s = .next t
      ∧ (t.vi v).dog q = { d with state := .pre, count := 0 } ∧ t.mem = u.mem)
    ∧ (d.state = .pre → d.lims.2.1 * 4000 ≤ d.count → d.lims.2.2 ≠ 0 → ∃ t, exec .watchdogKill s = .next t ∧ ((t.vi v).dog q).state = .kill ∧ ((t.vi v).dog q).count = 0
      ∧ ∀ l ∈ u.queueRunning v q, ∃ m ∈ t.launches, m.id = l.id ∧ m.killed ≠ 0))
  ∧ (∀ (s : State) (v q : Nat) (d : Watchdog), v = s.focus.v → q = s.focus.k → d = (s.vi v).dog q → (s.vi v).frozen = false →
    (d.state = .kill → d.lims.2.2 * 4000 ≤ d.count → ∃ t, exec .watchdogFence s = .next t ∧ ((t.vi v).dog q).state = .idle ∧ ((t.vi v).dog q).count = 0
      ∧ ∀ c ∈ s.unfinishedCores v q, (t.core c).fenced = true))
  ∧ ∀ (s : State) (c : Nat), c = s.focus.c → (s.core c).fenced = true → ∃ t, exec .coreReset s = .next t ∧ (t.core c).fenced = false
      ∧ (t.core c).running = none ∧ (t.core c).stall = 0 ∧ ((∀ x, x < 4 → (s.ctx c x).killReq = none) → t.mem = s.mem)

/-- R165, R180, R282, R283, R314, R316, R363, R382, R394, R395, R397, R399, R400: the physical function writes the registers of its map, with their reserved bits left zero, and a write of another function outside its
own page, like every tenant violation, freezes the interface with its code in VCAUSE and one event; its reset empties its queues and, once no launch of
it is left, at the end of a clk, puts its registers back. CLIM and the watchdogs' limits act from the next clk on and RCTL from the next ring cycle (log 37). The tables of the Bivouac die take the fields that software writes, and the up bit of another module is what that module's physical function wrote into its RCTL (a register of another module as an act of the focus: the model's choice, log 63). The steps, and the focus that says what a step acts on, are the model's own (log 1). -/
def Obligations.InterfacesAndTablesAreWritten : Prop :=
  (∀ (s : State) (v : Nat), v = s.focus.v % 64 → (s.violates v s.focus.k = false → exec .tenantViolation s = .next s)
    ∧ ((s.vi v).frozen = false → s.violates v s.focus.k = true → ∃ t, exec .tenantViolation s = .next t ∧ (t.vi v).frozen = true
    ∧ (t.vi v).vcause = BitVec.ofNat 8 s.focus.k ∧ (t.vi v).eseq = (s.vi v).eseq + 1 ∧ ((∀ j ∈ s.images, j.saved = none) → t.mem = s.mem)))
  ∧ (∀ (s : State) (v : Nat), v = s.focus.v % 64 → (s.vi v).resetting = false →
    (∃ t u, exec .viReset s = .next t ∧ (∀ j, j < 16 → t.queue (v * 16 + j) = []) ∧ (t.vi v).frozen = true ∧ (t.vi v).resetting = true ∧ u = t.resetsEnd
      ∧ ((∀ l ∈ s.launches, l.vi ≠ v) → (u.vi v).frozen = false ∧ (u.vi v).resetting = false ∧ (u.vi v).lseq = 0 ∧ (u.vi v).cseq = 0 ∧ (u.vi v).eseq = 0
        ∧ (u.vi v).vcause = 0 ∧ (u.vi v).sseed = 1 ∧ (u.vi v).crange = (s.vi v).crange)
      ∧ ((∃ l ∈ s.launches, l.vi = v) → (u.vi v).frozen = true ∧ (u.vi v).resetting = true)))
  ∧ (∀ (s : State) (w : Word) (d : Nat), w = s.focus.w.truncate 64 → s.focus.d = d + 1 → d < 64 → d ≠ s.mod → s.focus.o = 0x300000000 →
    ∃ t, exec .registerWrite s = .next t ∧ t = { s with peersUp := t.peersUp } ∧ t.peersUp.getLsbD d = w.getLsbD 16
      ∧ ∀ e, e ≠ d → t.peersUp.getLsbD e = s.peersUp.getLsbD e)
  ∧ (∀ (s : State) (w : Word), w = s.focus.w.truncate 64 → s.focus.d = 0 →
    (s.focus.v % 64 = 0 →
      (∀ u, u < 64 → s.focus.o = u * 0x10000 + 0x200 → ∃ t, exec .registerWrite s = .next t
        ∧ (t.vi u).crange = ((w.extractLsb' 0 12).toNat, (w.extractLsb' 16 13).toNat) ∧ t.mem = s.mem ∧ t.cores = s.cores)
      ∧ (∀ d, d < 8 → s.focus.o = 0x100000000 + d * 0x1000 → ∃ t, exec .registerWrite s = .next t
        ∧ (t.die d).dseed = (if w = 0 then (s.die d).dseed else w) ∧ t.mem = s.mem ∧ t.cores = s.cores)
      ∧ (∀ c, c < 1024 → s.focus.o = 0x200000000 + c * 0x1000 → ∃ t, exec .registerWrite s = .next t
        ∧ (t.core c).climEn = w.getLsbD 16 ∧ (t.core c).climLim = (w.extractLsb' 0 16).toNat ∧ t.mem = s.mem ∧ t.dies = s.dies
        ∧ (t.core c).clim = (s.core c).clim ∧ (t.regsAct.core c).clim = (w.getLsbD 16, (w.extractLsb' 0 16).toNat))
      ∧ (∀ u q, u < 64 → q < 16 → s.focus.o = u * 0x10000 + 0x100 + 16 * q → ∃ t, exec .registerWrite s = .next t ∧ t.mem = s.mem ∧ t.cores = s.cores
        ∧ ((t.vi u).dog q).lims = ((s.vi u).dog q).lims ∧ ((t.vi u).dog q).state = ((s.vi u).dog q).state
        ∧ ((t.regsAct.vi u).dog q).lims = ((w.extractLsb' 0 20).toNat, (w.extractLsb' 20 20).toNat, (w.extractLsb' 40 20).toNat))
      ∧ (s.focus.o = 0x300000000 → ∃ r : Rctl, r.s2 = w.extractLsb' 48 16 ∧ r.s1 = w.extractLsb' 32 16 ∧ r.up = w.getLsbD 16 ∧ r.nmod = w.extractLsb' 8 6
        ∧ r.mod = w.extractLsb' 0 6 ∧ exec .registerWrite s = .next { s with rctlNext := some (s.clk / 2, r) }
        ∧ ∀ n, s.clk / 2 < n / 2 → ({ s with rctlNext := some (s.clk / 2, r), clk := n } : State).rctlActs.rctl = r))
    ∧ (s.focus.v % 64 ≠ 0 →
      (s.focus.o = 0x218 → ∃ t, exec .registerWrite s = .next t ∧ (t.vi (s.focus.v % 64)).sseed = w)
      ∧ (0x100 ≤ s.focus.o → s.focus.o < 0x218 → ∃ t, exec .registerWrite s = .next t ∧ t.vi (s.focus.v % 64) = s.vi (s.focus.v % 64) ∧ t.mem = s.mem)
      ∧ (0x10000 ≤ s.focus.o → (s.vi (s.focus.v % 64)).frozen = false → ∃ t, exec .registerWrite s = .next t
        ∧ (t.vi (s.focus.v % 64)).frozen = true ∧ (t.vi (s.focus.v % 64)).vcause = 1)))
  ∧ ∀ (s : State) (w : Word) (e : Nat), s.focus.v % 64 = 0 → w = s.focus.w.truncate 64 →
    (e = s.focus.i % 4096 → ∃ t u, exec .compassEntryWrite s = .next t ∧ t = { s with compass := t.compass } ∧ u = (t.entry e).word
      ∧ u.extractLsb' 32 32 = w.extractLsb' 32 32 ∧ u.extractLsb' 27 5 = w.extractLsb' 27 5 ∧ u.extractLsb' 21 4 = (s.entry e).word.extractLsb' 21 4
      ∧ u.extractLsb' 18 3 = w.extractLsb' 18 3 ∧ u.extractLsb' 9 9 = 0 ∧ u.extractLsb' 7 2 = w.extractLsb' 7 2
      ∧ (u.extractLsb' 25 2).toNat = Nat.min (w.extractLsb' 25 2).toNat (ladLast (s.ladder (w.extractLsb' 27 3).toNat)))
    ∧ (e = s.focus.i % 8 → ∃ t, exec .ladderWrite s = .next t
      ∧ t.ladders = if (List.range (ladLast w + 1)).all (fun p => ladderFmtOk (ladFmt w p)) then tset s.ladders e (w &&& 0x3FFFFFFF) else s.ladders)
    ∧ (e = s.focus.i → e < 8192 → s.focus.w.getLsbD 3 = true → s.focus.w.getLsbD 2 = false → (s.expert e).state = 0 → (s.expert e).pins = 0 →
      (s.expert e).waiters = [] → (Expert.ofBits (s.focus.w.truncate 256) (s.expert e)).fits = true →
      ∃ t, exec .larderEntryWrite s = .next t ∧ (t.expert e).valid = true ∧ (t.expert e).heap = [] ∧ (t.expert e).state = 0
        ∧ (t.expert e).res = (s.focus.w.extractLsb' 188 19).toNat ∧ (t.expert e).src = (s.focus.w.extractLsb' 208 48).toNat ∧ t.mem = s.mem)
    ∧ (e = s.focus.i → e < 1024 → ∃ t, exec .groupEntryWrite s = .next t ∧ t = { s with groups := t.groups } ∧ (t.group e).gen = (s.group e).gen + 1)

/-- R178, R212, R381, R389, R399, R402, R403: UE_COMMAND starts the entries up to the producer index, one whose local address lies outside PART being violation 3; an outbound entry acquires its object, where the version it wants has been reached, and then
sends its bytes sector by sector as memory holds them; an inbound write performs its bytes, and those of a read move it on; above 105 degrees every limiter is set
and lowered by an eighth; at 115 degrees every core is fenced and the module is down; and after a cold reset, or a lane failure, no core holds a
worker, no launch runs or waits, and of memory only what is outside the module is left. That RCTL's module number, the memory outside the module and the temperature stay is the model's reading (log 39), as are what an entry of
Ultra Ethernet holds, the owner that its acquire names and the list of what has left by the port (log 55); the steps, and the focus that says what a step acts on, are the model's own (log 1). -/
def Obligations.TheModuleIsManaged : Prop :=
  (∀ (s : State) (v : Nat) (k : UeQueue), v = s.focus.v % 64 → k = tget {} s.ueq v → s.focus.o ≠ 1 → k.cons = s.focus.w.toNat % 2 ^ 64 → ∃ t,
    exec .ueCommand s = .next t ∧ t = { s with ueq := t.ueq } ∧ tget {} t.ueq v = { k with prod := s.focus.w.toNat % 2 ^ 64 })
  ∧ (∀ (s : State) (v : Nat) (k : UeQueue) (u : UeOp), v = s.focus.v % 64 → k = tget {} s.ueq v → s.focus.o ≠ 1 → k.cons < 2 ^ 64 - 1 → (s.vi v).frozen = false →
    k.cons + 1 = s.focus.w.toNat % 2 ^ 64 → u = ueOpOf v (BitVec.ofNat 512 (memNat s.hostMem (k.base.toNat + 64 * (k.cons % 2 ^ k.size)) 64)) →
    (v = 0 ∨ covered (s.vi v).parts 4 u.addr (u.addr + u.len) = true → ∃ t, exec .ueCommand s = .next t ∧ (tget {} t.ueq v).cons = k.cons + 1
      ∧ t = { s with ueq := t.ueq, ueOps := s.ueOps ++ [u] } ∧ u.vi = v)
    ∧ (v ≠ 0 → covered (s.vi v).parts 4 u.addr (u.addr + u.len) = false → ∃ t, exec .ueCommand s = .next t ∧ (tget {} t.ueq v).cons = k.cons + 1
      ∧ t.ueOps = s.ueOps ∧ (t.vi v).frozen = true ∧ (t.vi v).vcause = 3))
  ∧ (∀ (s : State) (i : Nat) (u : UeOp) (w : Word), i = s.focus.i → s.focus.o = 1 → s.ueOps[i]? = some u → u.op ≠ 0 →
    (w = BitVec.ofNat 64 (memNat s.mem u.obj 8) → u.acq = false → s.backed u.obj = true → objExclusive w = false → objGrants w u.want false = true →
      exec .ueCommand s = .next { s with ueOps := s.ueOps.set i { u with acq := true } })
    ∧ (w = BitVec.ofNat 64 (memNat s.mem u.obj 8) → u.acq = false → s.backed u.obj = true → objExclusive w = true → objHeld w = false →
      ∃ t, exec .ueCommand s = .next t ∧ memNat t.mem u.obj 8 = (objOwn w s.mod (Config.ueOwner u.obj / 4) (Config.ueOwner u.obj)).toNat
        ∧ (∀ a, a < u.obj ∨ u.obj + 8 ≤ a → memGet t.mem a = memGet s.mem a) ∧ t.ueOps = s.ueOps.set i { u with acq := true })
    ∧ (w = BitVec.ofNat 64 (memNat s.mem u.obj 8) → u.acq = false → objGrants w u.want false = false → exec .ueCommand s = .next s)
    ∧ (u.acq = true → s.softEcc = [] → (u.addr + u.done) % 32 = 0 → u.done + 32 < u.len →
      exec .ueCommand s = .next { s with ueOps := s.ueOps.set i { u with done := u.done + 32 }
                                         ueSent := s.ueSent ++ [(u.vi, u.peer, u.addr + u.done, (List.range 32).map fun j => memGet s.mem (u.addr + u.done + j))] }))
  ∧ (∀ (s : State) (u : UeOp), s.ueOps[s.focus.i]? = some u → u.op = 0 → u.done + 64 < u.len → (∀ j, j < 64 → s.backed (u.addr + u.done + j) = true) →
    ∃ t, exec .ueInboundWrite s = .next t ∧ t.ueOps = s.ueOps.set s.focus.i { u with done := u.done + 64 }
      ∧ (∀ j, j < 64 → memGet t.mem (u.addr + u.done + j) = s.focus.w.extractLsb' (8 * j) 8)
      ∧ ∀ a, a < u.addr + u.done ∨ u.addr + u.done + 64 ≤ a → memGet t.mem a = memGet s.mem a)
  ∧ (∀ (s : State), 105 * 16 < s.focus.i % 2 ^ 16 → ∃ t, exec .thermalThrottle s = .next t ∧ t.temp = BitVec.ofNat 16 s.focus.i
    ∧ ∀ c, c < 1024 → (t.core c).climEn = true ∧ (t.core c).climLim = (s.core c).climLim - (s.core c).climLim / 8)
  ∧ (∀ (s : State), s.focus.i % 2 ^ 16 < 100 * 16 → ∃ t, exec .thermalThrottle s = .next t
    ∧ ∀ p ∈ s.cores, ∃ q ∈ t.cores, q.1 = p.1 ∧ q.2.climEn = p.2.climSet.1 ∧ q.2.climLim = p.2.climSet.2)
  ∧ (∀ (s : State), 115 * 16 ≤ s.focus.i % 2 ^ 16 → ∃ t, exec .thermalShutdown s = .next t ∧ t.down = true ∧ ∀ c, c < 1024 → (t.core c).fenced = true)
  ∧ ∀ (s : State) (i : Instr), i = .coldReset ∨ i = .laneFailure → ∃ t, exec i s = .next t ∧ t.down = false ∧ t.cores = [] ∧ t.launches = [] ∧ t.launchQ = []
      ∧ t.vis = [] ∧ t.dies = [] ∧ t.rctl.up = false ∧ t.rctl.mod = s.rctl.mod ∧ t.hostMem = s.hostMem ∧ t.nvmeMem = s.nvmeMem
      ∧ ∀ a, memGet t.mem a = if paMod a = s.mod ∧ paRegion a ≠ 2 then memZero else memGet s.mem a

/-! ## Statements about engines -/

namespace Sys2Proof.Claims

/-- What the end of a command or call does to the tokens of its context (R236). -/
def tokens (t t' : Ctx) (tok : Option Nat) (status bytes : Nat) (slow nf : Bool) : Prop :=
  ∀ i k, tok = some i → i < 8 → k = vget t.tok i {} →
    vget t'.tok i {} = { count := k.count - 1, slow := k.slow || slow, nf := k.nf || nf, status := Nat.max k.status status
                         bytes := Nat.min (k.bytes + bytes) (2 ^ 48 - 1) }

/-- Call m of core c is running, at the micro-operation o, and is not to be suspended before it. -/
def atMicro (s : State) (c i : Nat) (m : MatCall) (o : MicroOp) : Prop :=
  (s.core c).calls[i]? = some m ∧ m.phase = .running ∧ (m.retired = true → s.callSaving c m = false) ∧ (s.core c).microWord m = some (encodeMicro o)

/-- The sum of a list of exact values. -/
def total : List XR → XR
  | [] => .fin false 0 0
  | x :: xs => xs.foldl XR.add x

/-- The parts of the columns from lo to hi that lie in the aligned 64-column k-blocks, in order (R271). -/
def kParts (lo hi : Nat) : List (Nat × Nat) :=
  ((List.range 65).map fun b => (Nat.max lo (64 * b), Nat.min hi (64 * b + 64))).filter fun e => e.1 < e.2

/-- An accumulator's element after some k-blocks of products v: each block's exact sum is added and rounded once (R271). -/
def accum (v : Nat → XR) (l : List (Nat × Nat)) (x : BitVec 32) : BitVec 32 :=
  l.foldl (fun (y : BitVec 32) e => BitVec.ofNat 32 (f32.round 0 0 ((f32.decode y.toNat).add (total ((List.range (e.2 - e.1)).map fun d => v (e.1 + d)))).toRV).bits) x

/-- A k-block gives a NaN where there was none (R276). -/
def madeNan (new old : BitVec 32) : Bool := (f32.decode new.toNat).isNaN && !(f32.decode old.toNat).isNaN

/-- Column j of row r of a tile of codes of w bits (R249). -/
def tileCode (byte : Nat → Byte) (r j w : Nat) : Nat :=
  if 8 ≤ w then bytesNat ((List.range (w / 8)).map fun q => byte (512 * r + j * (w / 8) + q)) else (byte (512 * r + j * w / 8)).toNat / 2 ^ (j * w % 8) % 2 ^ w

/-- A block of a bound tile in the entry's format f and block size z, of elements with their tiles' stamps, some outside the tensor (R267): its codes and its scale. What lies outside is zero; a block whose
elements all have that format and size, and that begins with a block of the tensor, is delivered as it stands; any other is encoded by R82. -/
def boundBlock (f : FmtCode) (z : BitVec 2) (aligned : Bool) (es : List (Option (Nat × Elem))) : List Nat × Nat :=
  if es.all Option.isNone then (es.map fun _ => 0, 0)
  else if aligned && es.all (fun e => match e with | some (st, _) => stampFmt st = f && stampBsz st = z | none => true) then
    (es.map fun e => match e with | some (_, .scaled _ _ _ c _) => c | _ => 0, (es.findSome? fun e => match e with | some (_, .scaled _ _ _ _ s) => some s | _ => none).getD 0)
  else
    let k := encodeBlock (es.map fun e => match e with | some (_, x) => x.exact | none => .fin false 0 0) f 0 0
    (k.codes, k.scale)

/-- An element of a bound tile in the entry's format f, where that has no blocks (R267): zero outside the tensor, its code where its tile has that format, and else its value rounded. -/
def boundCode (f : FmtCode) : Option (Nat × Elem) → Nat
  | none => 0
  | some (st, .plain g c) => if stampFmt st = f then c else (roundFmt f 0 0 (fmtDecode g c).toRV).bits
  | some (_, x) => (roundFmt f 0 0 x.exact.toRV).bits

/-- The element at column j of row r of a bound tile whose corner lies at row r0 and column c0 of the tensor, under the stamps st of the tensor's tiles (R231, R267). -/
def boundAt (s : State) (v : View) (sh : Shape) (base : Int) (st : Nat → Nat) (r0 c0 r j : Nat) (e : Option (Nat × Elem)) : Prop :=
  ((sh.ext0 ≤ c0 + j ∨ sh.exts.getD 1 1 ≤ r0 + r) → e = none)
    ∧ (c0 + j < sh.ext0 → r0 + r < sh.exts.getD 1 1 → ∃ k x, k = ((r0 + r) * sh.ext0 + (c0 + j)) / 8192 ∧ e = some (st k, x)
      ∧ s.tileElem v sh base (st k) k (((r0 + r) * sh.ext0 + (c0 + j)) % 8192) = .ok x)

/-- The reply that a bundle of context x waits for has come. -/
def answered (t : Ctx) (rid : Nat) (w : Word) : Prop := (t.awaiting.find? fun a => a.rid = rid).map (·.reply) = some (some (.value w))

end Sys2Proof.Claims

/-- R226, R229, R230, R233-R236, R243, R244: a channel's step reads a sector of the record at its head, and the record read starts it as a command, or stops at one that it does not own; a
command reads the sectors of its record too; one whose record's two
generations differ ends with status 2, its token says so and its context has a copy fault, while a flat one runs over the bytes of its length; a piece of it
writes the byte that it reads at its place and nothing else; a byte of a strided side lies where its row and its place in the row say, converted where the formats differ; a block
of a destination is encoded whole, and its codes and its scale are written by pieces; a piece that cannot be read sends the command to the firmware path, and there it is left out, with the
status; and with nothing left to write the command ends, and its token and counter follow. The steps, and the focus that says what a step acts on, are the model's own (log 1). -/
def Obligations.CopiesRunAndEnd : Prop :=
  (∀ (s : State) (c x k a : Nat) (u : Ctx) (w : Worker) (ch : Channel) (r : BitVec 512), c = s.focus.c → x = s.focus.x → x < 4 → k = s.focus.k → k < 2 →
    s.focus.d ≠ 1 → u = s.ctx c x → u.worker = some w → Claims.stands s w.uid c x → ch = vget u.chan k {} → ch.running = true → a = ch.head.toNat →
    lookupSpan u.wins u.launch s.mod c (a : Nat) ((a + 63 : Nat) : Int) .read = none → r = recordOf ch.got a →
    (∀ p bs, (sectorsLeft ch.got a)[s.focus.o % (sectorsLeft ch.got a).length]? = some p → s.ownerStores c w.uid ch.seq (u.view c) (spanOf (p : Nat) 32) = false →
      s.engineBytes (u.view c) (spanOf (p : Nat) 32) = .ok bs → ∃ t, exec .channelStep s = .next t ∧ (t.core c).cmds = (s.core c).cmds ∧ t.mem = s.mem
        ∧ vget (t.ctx c x).chan k {} = { ch with got := ch.got ++ [(p, BitVec.ofNat 256 (bytesNat bs))] })
    ∧ (sectorsLeft ch.got a = [] → recGen0 r ≠ recGen1 r → ∃ t, exec .channelStep s = .next t ∧ (t.core c).cmds = (s.core c).cmds ∧ t.mem = s.mem
        ∧ (vget (t.ctx c x).chan k {}).running = false ∧ (t.ctx c x).copyFault = some (u.copyFault.getD a))
    ∧ (sectorsLeft ch.got a = [] → recGen0 r = recGen1 r → recOwn r = true → (s.core c).cmds.length < 64 → (s.cores.map fun p => p.2.cmds.countP fun m => m.uid = w.uid && m.chan = some k).sum < 16 →
      (recTv r = true → (vget u.tok (recTok r) {}).count < 255) → ∃ t m, exec .channelStep s = .next t ∧ (t.core c).cmds = (s.core c).cmds ++ [m]
        ∧ m.uid = w.uid ∧ m.rva = ch.head.toNat ∧ m.rcd = r ∧ m.chan = some k ∧ m.tok = (if recTv r then some (recTok r) else none) ∧ m.phase = .queued
        ∧ (t.ctx c x).cnt.copies = u.cnt.copies + 1 ∧ t.mem = s.mem
        ∧ (vget (t.ctx c x).chan k {}).head = recNext r &&& 0xFFFFFFFFFFC0 ∧ ((vget (t.ctx c x).chan k {}).running = true ↔ 64 ≤ (recNext r).toNat))
    ∧ (sectorsLeft ch.got a = [] → recGen0 r = recGen1 r → recOwn r = false → ∃ t, exec .channelStep s = .next t ∧ (t.core c).cmds = (s.core c).cmds
        ∧ (vget (t.ctx c x).chan k {}).running = false ∧ t.mem = s.mem))
  ∧ (∀ (s : State) (c i : Nat) (m : CopyCmd) (r : BitVec 512), c = s.focus.c → i = s.focus.i → (s.core c).cmds[i]? = some m → m.phase = .queued → m.chan = none →
    (∀ n ∈ (s.core c).cmds.take i, n.phase ≠ .queued) → lookupSpan m.wins m.launch s.mod c (m.rva : Nat) ((m.rva + 63 : Nat) : Int) .read = none →
    r = recordOf m.got m.rva → (recAcq r = true → s.ownerDone c m.uid m.seq (recScope r) = true) →
    (∀ p bs, (sectorsLeft m.got m.rva)[s.focus.k % (sectorsLeft m.got m.rva).length]? = some p → s.ownerStores c m.uid m.seq (m.view c) (spanOf (p : Nat) 32) = false →
      s.engineBytes (m.view c) (spanOf (p : Nat) 32) = .ok bs → ∃ t, exec .copyCommandStart s = .next t ∧ t.mem = s.mem
        ∧ (t.core c).cmds[i]? = some { m with got := m.got ++ [(p, BitVec.ofNat 256 (bytesNat bs))] })
    ∧ (sectorsLeft m.got m.rva = [] → recGen0 r ≠ recGen1 r → ∀ d x, Claims.stands s m.uid d x → ∃ t, exec .copyCommandStart s = .next t
      ∧ (t.core c).cmds = (s.core c).cmds.filter (fun n => n.id ≠ m.id) ∧ (t.ctx d x).copyFault = some ((s.ctx d x).copyFault.getD m.rva)
      ∧ (t.ctx d x).cnt.copies = (s.ctx d x).cnt.copies - 1 ∧ Claims.tokens (s.ctx d x) (t.ctx d x) m.tok 2 m.written m.slow m.nf ∧ t.mem = s.mem)
    ∧ (sectorsLeft m.got m.rva = [] → recGen0 r = recGen1 r → recSkind r = 0 → recDkind r = 0 → recGop r < 4 → recSshape r = 0 → recDshape r = 0 → recArr r = false →
      recRpt r = false → recRel r = false → ∃ t n, exec .copyCommandStart s = .next t ∧ (t.core c).cmds[i]? = some n ∧ n.phase = .running ∧ n.rcd = r
        ∧ n.todo = List.range (recLen r) ∧ n.total = recLen r ∧ n.srcShape = 0 ∧ n.dstShape = 0 ∧ n.written = m.written ∧ t.mem = s.mem))
  ∧ (∀ (s : State) (c i j : Nat) (m : CopyCmd), c = s.focus.c → i = s.focus.i → (s.core c).cmds[i]? = some m → m.srcShape = 0 → m.dstShape = 0 →
    recSkind m.rcd = 0 → recDkind m.rcd = 0 → recRpt m.rcd = false → m.rpt = 0 → (∀ n ∈ (s.core c).cmds, n.id = m.id → n = m) → m.seen = [] → m.busy = none → s.focus.o ≠ 1 →
    s.focus.o ≠ 2 → m.todo = [j] → j < recLen m.rcd →
    (∀ b pa, s.engineByte (m.view c) ((recSrc m.rcd + j : Nat) : Int) = .ok b → s.engineAt (m.view c) ((recDst m.rcd + j : Nat) : Int) .write = .ok pa →
      m.phase = .running → ∃ t, exec .copyPiece s = .next t ∧ memGet t.mem pa = b ∧ (∀ a, a ≠ pa → memGet t.mem a = memGet s.mem a)
        ∧ (t.core c).cmds[i]? = some { m with todo := [], written := m.written + 1 })
    ∧ (∀ e, s.engineByte (m.view c) ((recSrc m.rcd + j : Nat) : Int) = .error e →
      (m.phase = .running → ∃ t, exec .copyPiece s = .next t ∧ t.mem = s.mem
        ∧ (t.core c).cmds[i]? = some { m with phase := .firmware, slow := true })
      ∧ (m.phase = .firmware → e ≠ .resid → ∃ t, exec .firmwarePath s = .next t ∧ t.mem = s.mem
        ∧ (t.core c).cmds[i]? = some { m with todo := [], slow := true, status := Nat.max m.status (if e = .eccu then 5 else 4) })))
  ∧ (∀ (s : State) (c i j : Nat) (m : CopyCmd) (a b : Shape), c = s.focus.c → i = s.focus.i → (s.core c).cmds[i]? = some m → m.phase = .running → (a, b) = m.sides →
    a.cv = false → b.cv = false → recSkind m.rcd = 0 → recDkind m.rcd = 0 → recRpt m.rcd = false → m.rpt = 0 → (∀ n ∈ (s.core c).cmds, n.id = m.id → n = m) → m.seen = [] → m.busy = none →
    s.focus.o ≠ 1 → s.focus.o ≠ 2 → m.todo = [j] → j < b.units → a.bs = false →
    (∀ n code pa, b.bs = false → 8 ≤ a.width → 8 ≤ b.width → n = j / b.rowBytes * b.ext0 + j % b.rowBytes / (b.width / 8) → code < 2 ^ a.width →
      (∀ q, q < (a.width + 7) / 8 → s.engineByte (m.view c) (a.rowBase (recSrc m.rcd) (n / a.ext0) + (n % a.ext0 * a.width / 8 : Nat) + (q : Nat)) = .ok (BitVec.ofNat 8 (code / 2 ^ (8 * q)))) →
      s.engineAt (m.view c) (b.rowBase (recDst m.rcd) (j / b.rowBytes) + (j % b.rowBytes : Nat)) .write = .ok pa → ∃ t n', exec .copyPiece s = .next t
        ∧ memGet t.mem pa = BitVec.ofNat 8 ((if a.fmt = b.fmt then code else (conv code a.fmt b.fmt 0 0).bits) / 2 ^ (8 * (j % b.rowBytes % (b.width / 8))))
        ∧ (∀ d, d ≠ pa → memGet t.mem d = memGet s.mem d) ∧ (t.core c).cmds[i]? = some n' ∧ n' = { m with todo := [], written := m.written + 1, nf := n'.nf }
        ∧ n'.nf = (m.nf || (decide (a.fmt ≠ b.fmt) && (conv code a.fmt b.fmt 0 0).nfs && fmtIsFp b.fmt)))
    ∧ (∀ (es : List Elem) (k : Block), b.bs = true → (b.unitElems j).map (s.srcElem c m) = es.map .ok → k = encodeBlock (es.map Elem.exact) b.fmt 0 0 → ∃ t n', exec .copyPiece s = .next t
        ∧ t.mem = s.mem ∧ (t.core c).cmds[i]? = some n' ∧ n' = { m with todo := [], out := n'.out, nf := m.nf || (k.nfs && fmtIsFp b.fmt) }
        ∧ n'.out.flatMap (·.cells) = m.out.flatMap (·.cells)
            ++ (packCodes b.width k.codes).zipIdx.map (fun (e : Byte × Nat) =>
                (.va (b.rowBase (recDst m.rcd) (j / b.rowBlocks) + (j % b.rowBlocks * b.block * b.width / 8 : Nat) + (e.2 : Nat)), e.1))
            ++ [(.va ((b.scales + j : Nat) : Int), BitVec.ofNat 8 k.scale)]))
  ∧ (∀ (s : State) (c i k : Nat) (m : CopyCmd) (p : OutPiece) (l : List (Int × Byte)) (pas : List Nat), c = s.focus.c → i = s.focus.i → (s.core c).cmds[i]? = some m → m.phase = .running →
    recDkind m.rcd = 0 → recRpt m.rcd = false → m.rpt = 0 → (∀ n ∈ (s.core c).cmds, n.id = m.id → n = m) → s.focus.o = 1 → k = s.focus.k % m.out.length → m.out[k]? = some p →
    m.outBehind p = false → p.cells = l.map (fun e => (.va e.1, e.2)) → l.map (fun e => s.engineAt (m.view c) e.1 .write) = pas.map .ok → pas.Nodup → ∃ t, exec .copyPiece s = .next t
      ∧ (∀ (n : Nat) (e : Int × Byte) (pa : Nat), l[n]? = some e → pas[n]? = some pa → memGet t.mem pa = e.2) ∧ (∀ a, a ∉ pas → memGet t.mem a = memGet s.mem a)
      ∧ (t.core c).cmds[i]? = some { m with out := m.out.eraseIdx k, written := m.written + l.length })
  ∧ ∀ (s : State) (c i d x : Nat) (m : CopyCmd), c = s.focus.c → i = s.focus.i → (s.core c).cmds[i]? = some m → m.phase = .running ∨ m.phase = .firmware →
    m.todo = [] → m.out = [] → m.owed = 0 → m.busy = none → s.inTier c m = true → s.samplesOwed m.id = false → recRel m.rcd = false → m.chan = none → recArr m.rcd = false → recRpt m.rcd = false →
    Claims.stands s m.uid d x → ∃ t, exec .copyCompletion s = .next t ∧ (t.core c).cmds = (s.core c).cmds.filter (fun n => n.id ≠ m.id)
      ∧ (t.ctx d x).cnt.copies = (s.ctx d x).cnt.copies - 1 ∧ Claims.tokens (s.ctx d x) (t.ctx d x) m.tok m.status m.written m.slow m.nf ∧ t.mem = s.mem

/-- R251-R253, R256, R262, R264, R266-R277: a call that starts reads its entry: an invalid one ends it with status 2 (the model's choice, log 73), else it runs on the banks that its worker holds, or
asks for them; the allocator grants the head of its FIFO when enough banks are free. Of a running call, each micro-operation does what the spec says of it, and
goes on to the next: TLD loads the rows of a tile, and its scales where it has them, or, bound, the elements of a tensor in the format of its Compass entry; TST stores what TLD loads; MMA adds the products of its
columns by aligned k-blocks of 64, each rounded once, or stops with an MXNAN where a block would make a NaN that is to be reported; RETIRE writes an accumulator in a format, by elements or by blocks. HALT ends the
call with status 0. The steps, and the focus that says what a step acts on, are the model's own (log 1). -/
def Obligations.MicroOperationsAct : Prop :=
  (∀ (s : State) (c i : Nat) (m : MatCall) (e : Word), c = s.focus.c → i = s.focus.i → (s.core c).calls[i]? = some m → m.phase = .queued →
    (∀ n ∈ (s.core c).calls.take i, n.uid ≠ m.uid) → callAcq m.t = false → e = (s.core c).routine m.ctx (callIdx m.t) →
    (rtValid e = false → ∀ d x, Claims.stands s m.uid d x → ∃ t, exec .matrixCallStart s = .next t ∧ (∀ n ∈ (t.core c).calls, n.id ≠ m.id)
      ∧ (t.ctx d x).cnt.tiles = (s.ctx d x).cnt.tiles - 1 ∧ Claims.tokens (s.ctx d x) (t.ctx d x) m.tok 2 m.bytes m.slow m.nf)
    ∧ (rtValid e = true → callA m.t = none → callB m.t = none → 1 ≤ rtBanks e → rtBanks e ≤ 16 → (s.core c).request m.uid = none →
      ∃ t n, exec .matrixCallStart s = .next t ∧ (t.core c).calls[i]? = some n ∧ n.entry = e ∧ n.need = rtBanks e ∧ n.upc = rtEntry e
        ∧ (rtBanks e ≤ bankCount ((s.core c).hold m.uid) → n.phase = .running)
        ∧ (bankCount ((s.core c).hold m.uid) < rtBanks e → n.phase = .waiting ∧ (t.core c).request m.uid = some (rtBanks e) ∧ (t.core c).hold m.uid = 0)))
  ∧ (∀ (s : State) (c : Nat) (k : Core) (r : BankReq) (free : BitVec 16), c = s.focus.c → k = s.core c → k.bankQ = [r] → k.bankNew = [] → k.calls = [] →
    free = ({ k with bankRel := 0 } : Core).freeBanks → ∃ t, exec .bankGrant s = .next t
      ∧ (r.n ≤ bankCount free → (t.core c).bankQ = [] ∧ (t.core c).hold r.uid = lowBanks r.n free)
      ∧ (bankCount free < r.n → (t.core c).bankQ = [r] ∧ (t.core c).holds = k.holds))
  ∧ ∀ (s : State) (c i : Nat) (m : MatCall) (o : MicroOp), c = s.focus.c → i = s.focus.i → Claims.atMicro s c i m o →
    (∀ d x, o = .halt → s.callInTier c m = false → (∀ n ∈ (s.core c).calls, n.id = m.id → n = m) → Claims.stands s m.uid d x → ∃ t, exec .halt s = .next t
      ∧ (∀ n ∈ (t.core c).calls, n.id ≠ m.id) ∧ (t.ctx d x).cnt.tiles = (s.ctx d x).cnt.tiles - 1
      ∧ Claims.tokens (s.ctx d x) (t.ctx d x) m.tok 0 m.bytes m.slow m.nf ∧ t.mem = s.mem)
    ∧ (∀ (z : BitVec 4) (pa ps pq : BitVec 3) (w : Word) (b sc : Nat → Nat → Byte), o = .tld z pa ps pq 0 → w = vget m.tc z.toNat 0 → tcValid m.tiles z.toNat w = true →
      (∀ i ∈ s.images, i.uid ≠ m.uid) →
      (∀ r, r < tcRows w → ∀ j, j < tcRowBytes w →
        s.engineByte (m.view c) (((m.par pa.toNat).toNat : Int) + r * (m.par ps.toNat).toInt + j) = .ok (b r j)) →
      (tcBs w = true → ∀ r, r < tcRows w → ∀ j, j < tcBlocks w → s.engineByte (m.view c) (((m.par pq.toNat).toNat + r * tcBlocks w + j : Nat) : Int) = .ok (sc r j)) →
      ∃ t, exec .tld s = .next t ∧ (∀ r, r < tcRows w → ∀ j, j < 512 → (t.core c).tile m.uid z.toNat (512 * r + j) = if j < tcRowBytes w then b r j else 0)
        ∧ (tcBs w = true → ∀ r, r < tcRows w → ∀ j, j < tcBlocks w → (t.core c).tile m.uid (tcStile w) (tcSoff w + r * tcBlocks w + j) = sc r j)
        ∧ (∀ u a, u ≠ z.toNat → (tcBs w = true → u ≠ tcStile w) → a < 32768 → (t.core c).tile m.uid u a = (s.core c).tile m.uid u a)
        ∧ (t.core c).calls[i]? = some { m with got := [], lost := [], upc := m.upc + 1 } ∧ t.mem = s.mem)
    ∧ (∀ (z : BitVec 4) (pa ps pq : BitVec 3) (cm : BitVec 2) (w : Word) (id a r0 c0 : Nat) (ent : Word) (sh : Shape) (base : Int) (st : Nat → Nat) (es : Nat → Nat → Option (Nat × Elem)),
      o = .tld z pa ps pq cm → cm ≠ 0 → m.bound cm.toNat = some (id, ent) → a = (m.par pa.toNat).toNat / 64 * 64 →
      lookupSpan m.wins m.launch s.mod c (a : Nat) ((a + 63 : Nat) : Int) .read = none → sectorsLeft m.got a = [] → shapeValid (recordOf m.got a) = true → sh = Shape.of (recordOf m.got a) →
      sh.cv = true → sh.cid = id → 2 ≤ shapeDims (recordOf m.got a) → tcValid m.tiles z.toNat (vget m.tc z.toNat 0) = true → w = boundWord (vget m.tc z.toNat 0) ent →
      tcValid m.tiles z.toNat w = true → m.busy = none → m.lost = [] → r0 = (m.par ps.toNat).toNat % 2 ^ 32 → c0 = (m.par ps.toNat).toNat / 2 ^ 32 → base = ((m.par pq.toNat).toNat : Nat) →
      (∀ k, 8192 * k < sh.ext0 * sh.exts.getD 1 1 → s.tileDue (m.view c) sh ent k = .deliver (st k)) →
      (∀ r, r < tcRows w → ∀ j, j < tcCols w → Claims.boundAt s (m.view c) sh base st r0 c0 r j (es r j)) → ∃ t n, exec .tld s = .next t ∧ t.mem = s.mem
        ∧ (t.core c).calls[i]? = some n ∧ n.upc = m.upc + 1 ∧ n.tc = vset m.tc z.toNat w
        ∧ (fmtBlockElem (entFmt ent) = false → ∀ r, r < tcRows w → ∀ j, j < tcCols w →
          Claims.tileCode ((t.core c).tile m.uid z.toNat) r j (fmtWidth (entFmt ent)) = Claims.boundCode (entFmt ent) (es r j) % 2 ^ fmtWidth (entFmt ent))
        ∧ (fmtBlockElem (entFmt ent) = true → ∀ r, r < tcRows w → ∀ b, b < tcBlocks w → ∀ y,
          y = Claims.boundBlock (entFmt ent) (entBsz ent) (c0 % tcBlock w = 0) ((List.range (Nat.min (tcBlock w) (tcCols w - b * tcBlock w))).map fun j => es r (b * tcBlock w + j)) →
          (t.core c).tile m.uid (tcStile w) (tcSoff w + r * tcBlocks w + b) = BitVec.ofNat 8 y.2
          ∧ ∀ j x, y.1[j]? = some x → Claims.tileCode ((t.core c).tile m.uid z.toNat) r (b * tcBlock w + j) (fmtWidth (entFmt ent)) = x % 2 ^ fmtWidth (entFmt ent)))
    ∧ (∀ (z : BitVec 4) (pa ps pq : BitVec 3) (w : Word) (at' sc : Nat → Nat → Nat) (l : List Nat), o = .tst z pa ps pq → w = vget m.tc z.toNat 0 → tcValid m.tiles z.toNat w = true →
      (∀ r, r < tcRows w → ∀ j, j < tcRowBytes w →
        s.engineAt (m.view c) (((m.par pa.toNat).toNat : Int) + r * (m.par ps.toNat).toInt + j) .write = .ok (at' r j)) →
      (tcBs w = true → ∀ r, r < tcRows w → ∀ j, j < tcBlocks w → s.engineAt (m.view c) (((m.par pq.toNat).toNat + r * tcBlocks w + j : Nat) : Int) .write = .ok (sc r j)) →
      l = ((List.range (tcRows w)).flatMap fun r => (List.range (tcRowBytes w)).map fun j => at' r j)
        ++ (if tcBs w = true then (List.range (tcRows w)).flatMap fun r => (List.range (tcBlocks w)).map fun j => sc r j else []) → l.Nodup →
      ∃ t, exec .tst s = .next t
        ∧ (∀ r, r < tcRows w → ∀ j, j < tcRowBytes w → memGet t.mem (at' r j) = (s.core c).tile m.uid z.toNat (512 * r + j)
            &&& (if j + 1 = tcRowBytes w then BitVec.ofNat 8 (2 ^ ((tcCols w * fmtWidth (tcFmt w) + 7) % 8 + 1) - 1) else 0xFF))
        ∧ (tcBs w = true → ∀ r, r < tcRows w → ∀ j, j < tcBlocks w → memGet t.mem (sc r j) = (s.core c).tile m.uid (tcStile w) (tcSoff w + r * tcBlocks w + j))
        ∧ (∀ d, d ∉ l → memGet t.mem d = memGet s.mem d)
        ∧ (t.core c).calls[i]? = some { m with bytes := m.bytes + l.length, upc := m.upc + 1 })
    ∧ (∀ (z : BitVec 4), o = .tzero z → z &&& ~~~m.accs = 0 → ∃ t n, exec .tzero s = .next t
      ∧ (∀ a j k, a < 4 → j < 64 → k < 64 → (t.core c).acc m.uid a j k = if z.getLsbD a then 0 else (s.core c).acc m.uid a j k)
      ∧ (t.core c).calls[i]? = some n ∧ n.upc = m.upc + 1 ∧ (∀ a, a < 4 → vget n.depth a 0 = if z.getLsbD a then 0 else vget m.depth a 0) ∧ t.mem = s.mem)
    ∧ (∀ (ta tb : BitVec 4) (ac : BitVec 2) (k0 kn : BitVec 12) (wa wb : Word) (kw : Nat) (new : Nat → Nat → BitVec 32), o = .mma ta tb ac k0 kn → wa = vget m.tc ta.toNat 0 → wb = vget m.tc tb.toNat 0 →
      kw = (if kn = 0 then tcCols wa - k0.toNat else kn.toNat) → m.accs.getLsbD ac.toNat = true → tcValid m.tiles ta.toNat wa = true →
      tcValid m.tiles tb.toNat wb = true → (matWidth (tcFmt wa)).isSome = true → (matWidth (tcFmt wb)).isSome = true → tcCols wb = tcCols wa →
      k0.toNat + kw ≤ tcCols wa → vget m.depth ac.toNat 0 + kw ≤ rtMaxk m.entry →
      (∀ j k, new j k = Claims.accum (fun d => ((s.core c).tileVal m.uid ta.toNat wa j d).mul ((s.core c).tileVal m.uid tb.toNat wb k d))
        (Claims.kParts k0.toNat (k0.toNat + kw)) ((s.core c).acc m.uid ac.toNat j k)) →
      (callNan m.t = false → ∃ t n, exec .mma s = .next t
        ∧ (∀ a j k, a < 4 → j < 64 → k < 64 → (t.core c).acc m.uid a j k =
            if a = ac.toNat ∧ j < tcRows wa ∧ k < tcRows wb then new j k else (s.core c).acc m.uid a j k)
        ∧ (t.core c).calls[i]? = some n ∧ n.upc = m.upc + 1 ∧ vget n.depth ac.toNat 0 = vget m.depth ac.toNat 0 + kw ∧ t.mem = s.mem)
      ∧ ∀ d x r q, callNan m.t = true → (Claims.kParts k0.toNat (k0.toNat + kw)).length = 1 → m.orphan = false → Claims.stands s m.uid d x → (s.ctx d x).mxnanPend = false →
        (∀ n ∈ (s.core c).calls, n.id = m.id → n = m) → r < tcRows wa → q < tcRows wb → Claims.madeNan (new r q) ((s.core c).acc m.uid ac.toNat r q) = true →
        (∀ j k, j < tcRows wa → k < tcRows wb → j < r ∨ j = r ∧ k < q → Claims.madeNan (new j k) ((s.core c).acc m.uid ac.toNat j k) = false) → ∃ t, exec .mma s = .next t
          ∧ (∀ n ∈ (t.core c).calls, n.id ≠ m.id) ∧ (t.ctx d x).mxnanPend = true
          ∧ (t.ctx d x).mxnan = BitVec.ofNat 64 (2 ^ 63 + c % 1024 * 2 ^ 53 + m.ctx % 4 * 2 ^ 51 + (m.t.toNat % 256) * 2 ^ 43 + ac.toNat * 2 ^ 41 + r * 2 ^ 35 + q * 2 ^ 29 + k0.toNat * 2 ^ 17)
          ∧ (∀ a j k, a < 4 → j < 64 → k < 64 → (t.core c).acc m.uid a j k = (s.core c).acc m.uid a j k) ∧ t.mem = s.mem)
    ∧ (∀ (ac : BitVec 2) (pa ps pq : BitVec 3) (f : FmtCode) (bsz : BitVec 2) (z : Bool) (a : Nat), o = .retire ac pa ps pq f bsz false z 0 0 →
      m.accs.getLsbD ac.toNat = true → fmtAssigned f = true → fmtWidth f = 8 → f ≠ fmtSc8 →
      s.engineAt (m.view c) (((m.par pa.toNat).toNat : Nat) : Int) .write = .ok a → ∃ t n, exec .retire s = .next t
        ∧ memGet t.mem a = BitVec.ofNat 8 (conv ((s.core c).acc m.uid ac.toNat 0 0).toNat fmtF32 f 0 0).bits ∧ (∀ d, d ≠ a → memGet t.mem d = memGet s.mem d)
        ∧ (∀ j k, j < 64 → k < 64 → (t.core c).acc m.uid ac.toNat j k = if z then 0 else (s.core c).acc m.uid ac.toNat j k)
        ∧ (t.core c).calls[i]? = some n ∧ n.upc = m.upc + 1 ∧ vget n.depth ac.toNat 0 = 0 ∧ n.bytes = m.bytes + 1)
    ∧ (∀ (ac : BitVec 2) (pa ps pq : BitVec 3) (f : FmtCode) (bsz : BitVec 2) (bs z : Bool) (mr mc : BitVec 6) (at' : Nat → Nat → Nat) (sc : Nat → Nat) (ks : Nat → Block) (n q : Nat) (l : List Nat),
      o = .retire ac pa ps pq f bsz bs z mr mc → n = (if bs then ((mc.toNat + 1) * fmtWidth f + 7) / 8 else (mc.toNat + 1) * (fmtWidth f / 8)) → q = fmtWidth f / 8 →
      m.accs.getLsbD ac.toNat = true → fmtAssigned f = true → f ≠ fmtF64 → f ≠ fmtSc8 → (bs = true → fmtBlockElem f = true ∧ mc.toNat < blockSize bsz) → (bs = false → 8 ≤ fmtWidth f) →
      (∀ i, i ≤ mr.toNat → ∀ j, j < n → s.engineAt (m.view c) (((m.par pa.toNat).toNat : Int) + i * (m.par ps.toNat).toInt + j) .write = .ok (at' i j)) →
      (bs = true → ∀ i, i ≤ mr.toNat → s.engineAt (m.view c) (((m.par pq.toNat).toNat + i : Nat) : Int) .write = .ok (sc i)) →
      (∀ i, ks i = encodeBlock ((List.range (mc.toNat + 1)).map fun j => f32.decode ((s.core c).acc m.uid ac.toNat i j).toNat) f 0 0) →
      l = (List.range (mr.toNat + 1)).flatMap (fun i => (List.range n).map (fun j => at' i j) ++ if bs then [sc i] else []) → l.Nodup → ∃ t k, exec .retire s = .next t
        ∧ (bs = false → ∀ i, i ≤ mr.toNat → ∀ j, j ≤ mc.toNat → ∀ b, b < q →
          memGet t.mem (at' i (j * q + b)) = BitVec.ofNat 8 ((conv ((s.core c).acc m.uid ac.toNat i j).toNat fmtF32 f 0 0).bits / 2 ^ (8 * b)))
        ∧ (bs = true → ∀ i, i ≤ mr.toNat → memGet t.mem (sc i) = BitVec.ofNat 8 (ks i).scale
          ∧ ∀ j, j < n → memGet t.mem (at' i j) = (packCodes (fmtWidth f) (ks i).codes).getD j 0)
        ∧ (∀ d, d ∉ l → memGet t.mem d = memGet s.mem d)
        ∧ (∀ a j k, a < 4 → j < 64 → k < 64 → (t.core c).acc m.uid a j k = if z = true ∧ a = ac.toNat then 0 else (s.core c).acc m.uid a j k)
        ∧ (t.core c).calls[i]? = some k ∧ k.upc = m.upc + 1 ∧ vget k.depth ac.toNat 0 = 0 ∧ k.bytes = m.bytes + l.length
        ∧ k.nf = (m.nf || (fmtIsFp f && (List.range (mr.toNat + 1)).any fun i =>
            if bs then (ks i).nfs else (List.range (mc.toNat + 1)).any fun j => (conv ((s.core c).acc m.uid ac.toNat i j).toNat fmtF32 f 0 0).nfs)))
    ∧ (∀ (ac : BitVec 2) (p : BitVec 3), o = .scale ac p → m.accs.getLsbD ac.toNat = true → ∃ t n, exec .scale s = .next t
      ∧ (∀ a j k, a < 4 → j < 64 → k < 64 → (t.core c).acc m.uid a j k =
          if a = ac.toNat then BitVec.ofNat 32 (f32.round 0 0 ((f32.decode ((s.core c).acc m.uid a j k).toNat).mul (f32.decode ((m.par p.toNat).toNat % 2 ^ 32))).toRV).bits
          else (s.core c).acc m.uid a j k)
      ∧ (t.core c).calls[i]? = some n ∧ n.upc = m.upc + 1 ∧ t.mem = s.mem)
    ∧ (∀ (j : BitVec 2) (dst : BitVec 10) (n : BitVec 16), o = .loop j dst n → ∃ t, exec .microLoop s = .next t ∧ (t.core c).calls[i]? = some
      (if vget m.lc j.toNat 0 + 1 < Nat.max n.toNat 1 then { m with lc := vset m.lc j.toNat (vget m.lc j.toNat 0 + 1), upc := dst.toNat }
       else { m with lc := vset m.lc j.toNat 0, upc := m.upc + 1 }) ∧ t.mem = s.mem)
    ∧ (∀ (p : BitVec 3) (src : BitVec 2) (q : BitVec 3) (imm : BitVec 32), o = .padd p src q imm → ∃ t, exec .padd s = .next t ∧ (t.core c).calls[i]? = some
      { m with upc := m.upc + 1, mp := vset m.mp p.toNat (m.par p.toNat + BitVec.ofInt 64 (if src = 0 then imm.toInt else if src = 1 then ((m.par q.toNat).toNat : Int)
          else if src = 2 then imm.toInt * (m.dieRank / 16 : Nat) else imm.toInt * (m.dieRank % 16 : Nat))) } ∧ t.mem = s.mem)
    ∧ (∀ (p sc : BitVec 3) (a pa : Nat), o = .signal p sc → a = (m.par p.toNat).toNat % 2 ^ 48 / 32 * 32 → s.barLookup (m.view c) a = none →
      s.place (Machine.locate m.wins m.launch s.mod c ((a : Nat) : Int)) = .ok pa → ∃ t, exec .signal s = .next t ∧ t.barNow = s.barNow ++ [(pa, .arrive)]
        ∧ (t.core c).calls[i]? = some { m with upc := m.upc + 1 } ∧ t.mem = s.mem)
    ∧ (∀ (id : BitVec 8) (l : Launch) (g : Team), o = .teamsync id → m.retired = true → s.launch? m.launch = some l → l.team? (some m.die) = some g →
      ((∃ u ∈ g.members, u ≠ m.uid ∧ ∀ n ∈ s.allCalls, n.uid = u → n.sync ≠ some id.toNat ∧ n.id ≠ m.id) → ∃ t, exec .teamsync s = .next t
        ∧ (t.core c).calls[i]? = some { m with sync := some id.toNat } ∧ t.mem = s.mem)
      ∧ (g.members = [m.uid] → ∃ t, exec .teamsync s = .next t ∧ (t.core c).calls[i]? = some { m with sync := none, upc := m.upc + 1 } ∧ t.mem = s.mem))

/-- R285-R293: a contribution is added to its entry's accumulators when its tag is the entry's version, and is discarded otherwise; a gvobs on an entry of its interface's range
sets or adds what it names; an epoch keeps the values of an entry and clears its accumulators, and widens it where rho < 2 eps_c, with a new version; a pin sets
the entry's pin bit. The replies go to the bundles that wait for them. Where the ladder's last position is 0, the position before it wraps in its two bits (log 75). The steps, and the focus that says what a step acts on, are the model's own (log 1). -/
def Obligations.CompassEntriesAdapt : Prop :=
  (∀ (s : State) (i m e : Nat) (ver : BitVec 32) (x : Sample) (k : CompassEntry), i = s.focus.i → s.compassQ[i]? = some (.sample m e ver x) → k = s.entry e →
    (ver = entVer k.word → ∃ t, exec .compassContribution s = .next t ∧ t.compassQ = s.compassQ.eraseIdx i ∧ (∀ f, f ≠ e → t.entry f = s.entry f)
      ∧ t.entry e = { k with q := addF64 k.q x.q, ec := addF64 k.ec x.ec, en := (match x.en with | some y => addF64 k.en y | none => k.en)
                             pr := (match x.b with | some b => maxRatio k.pr x.mx x.q b | none => k.pr), n := k.n + 1 })
    ∧ (ver ≠ entVer k.word → ∃ t, exec .compassContribution s = .next t ∧ t = { s with compassQ := s.compassQ.eraseIdx i }))
  ∧ (∀ (s : State) (c x i e : Nat) (kind : BitVec 2) (v : BitVec 32) (f : StoreFlight) (k : CompassEntry), c = s.focus.c → x = s.focus.x → x < 5 →
    i = s.focus.i → (s.ctx c x).stFlight[i]? = some f → f.req.op = .gvobs e kind v → k = s.entry e →
    ∃ t, exec .compassObsAccept s = .next t ∧ (t.ctx c x).stFlight = (s.ctx c x).stFlight.eraseIdx i ∧ (t.ctx c x).cnt.stores = (s.ctx c x).cnt.stores - 1
      ∧ t.mem = s.mem ∧ (s.inCrange (s.ctx c x).vi e = true → entValid k.word = true →
        (kind = 0 → (f32.decode v.toNat).isFin = true → v.getLsbD 31 = false → t.entry e = { k with sv := addF64 k.sv (f32.decode v.toNat) })
        ∧ (kind = 1 → (f32.decode v.toNat).isFin = true → v.getLsbD 31 = false → t.entry e = { k with sm := addF64 k.sm (f32.decode v.toNat) })
        ∧ (kind = 0 ∨ kind = 1 → (f32.decode v.toNat).isFin = false → t.entry e = k)
        ∧ (kind = 2 → t.entry e = { k with b := v }))
      ∧ (s.inCrange (s.ctx c x).vi e = false → t.compass = s.compass))
  ∧ (∀ (s : State) (i d x e v uid rid : Nat) (u : Word) (k : CompassEntry) (lad : Word) (a : Awaiting), i = s.focus.i → s.compassQ[i]? = some (.epoch rid uid v u) →
    e = (u.extractLsb' 0 12).toNat → u.extractLsb' 12 12 = 0 → k = s.entry e → lad = s.ladder (entLadder k.word) → Claims.stands s uid d x →
    (s.ctx d x).awaiting.find? (fun a => a.rid = rid) = some a →
    (s.inCrange v e = false → ∃ t, exec .compassEpoch s = .next t ∧ t.compass = s.compass ∧ Claims.answered (t.ctx d x) rid 0x0001000000000000)
    ∧ (s.inCrange v e = true → entValid k.word = true → ∃ t, exec .compassEpoch s = .next t ∧ (∀ f, f ≠ e → t.entry f = s.entry f) ∧ t.mem = s.mem
      ∧ (t.entry e).sv = 0 ∧ (t.entry e).sm = 0 ∧ (t.entry e).q = 0 ∧ (t.entry e).ec = 0 ∧ (t.entry e).en = 0 ∧ (t.entry e).pr = 0 ∧ (t.entry e).n = 0
      ∧ (t.entry e).b = k.b ∧ (t.entry e).rho = k.rhoNow ∧ (t.entry e).lec = k.epsC
      ∧ (k.word.getLsbD 31 = true → (t.entry e).word = k.word ∧ Claims.answered (t.ctx d x) rid 0)
      ∧ (∀ r c, k.word.getLsbD 31 = false → k.rhoNow = some r → k.epsC = some c → r.toNat < 2 * c.toNat → 0 < entPos k.word →
        entPos (t.entry e).word = (Nat.min (entPos k.word) (ladLast lad) + 3) % 4 ∧ entVer (t.entry e).word = entVer k.word + 1
        ∧ entHn (t.entry e).word = 0 ∧ entHb (t.entry e).word = 0 ∧ entFmt (t.entry e).word = ladFmt lad (entPos (t.entry e).word)
        ∧ entBsz (t.entry e).word = entBsz k.word ∧ Claims.answered (t.ctx d x) rid 0x0000000100000001)))
  ∧ ∀ (s : State) (i d x e v uid rid : Nat) (u : Word) (a : Awaiting), i = s.focus.i → s.compassQ[i]? = some (.pin rid uid v u) →
    e = (u.extractLsb' 0 12).toNat → Claims.stands s uid d x → (s.ctx d x).awaiting.find? (fun a => a.rid = rid) = some a →
    (s.inCrange v e = true → entValid (s.entry e).word = true → u.extractLsb' 12 2 = 1 → ∃ t, exec .compassPinAccept s = .next t
      ∧ t.entry e = { s.entry e with word := (s.entry e).word ||| 0x80000000 } ∧ Claims.answered (t.ctx d x) rid 0)
    ∧ (s.inCrange v e = false ∨ entValid (s.entry e).word = false → ∃ t, exec .compassPinAccept s = .next t ∧ t.compass = s.compass
      ∧ Claims.answered (t.ctx d x) rid 1)

/-- R304, R307, R308, R311-R313, R380: a slab is sent once its step may be served and its receiver has reached the step, with the values of its elements; one for another module leaves this one, and one that arrives is held until
it is whole and its receiver has reached its step, is discarded with a mark where it does not fit, and else its bytes are written and its region's tag is its step; a fill by
zeros writes zeros to its region. A step-checked load that no object answers for goes on as a plain one; a stale one lands marked where its object says so, and
else waits until its time is over. The steps, and the focus that says what a step acts on, are the model's own (log 1). -/
def Obligations.GridsExchangeTheirGhosts : Prop :=
  (∀ (s : State) (d i k n reg : Nat) (g o : GridObj) (p : Nat × Nat), d = s.focus.d → i = s.focus.i → k = s.focus.k → s.gridObj d i = some g →
    g.slabs[k]? = some (n, reg) → paMod (s.gridPeer g reg) = s.mod → s.gridAt (s.gridPeer g reg) = some p → s.gridObj p.1 p.2 = some o →
    (s.gridServes g n = true → tagAt n o.own = true → s.focus.o ≠ 1 → g.seen = [] → ∃ t b, exec .slabSend s = .next t ∧ t.slabs = s.slabs ++ [b] ∧ b.dest = s.gridPeer g reg
      ∧ b.region = 26 - reg ∧ b.step = n ∧ b.elems = (slabElems g.raw reg).map (fun e =>
          bytesNat ((spanOf (elemAddr g.raw (n % 2) e) (gdBytes g.raw)).map fun a => BitVec.ofNat 8 (s.gridNat g a 1)))
      ∧ (g.closing = false → ∃ g' ∈ (t.die d).grids, g'.desc = g.desc ∧ g'.slabs = g.slabs.eraseIdx k ∧ g'.fills = g.fills) ∧ t.mem = s.mem)
    ∧ (tagAt n o.own = false → exec .slabSend s = .next s))
  ∧ (∀ (s : State) (i d j : Nat) (b : Slab) (g : GridObj) (r : GridBits), i = s.focus.i → s.focus.o = 0 → s.slabs[i]? = some b →
    (paMod b.dest ≠ s.mod → exec .slabDelivery s = .next { s with slabs := s.slabs.eraseIdx i })
    ∧ (paMod b.dest = s.mod → b.whole = false ∨ s.gridAt b.dest = none → exec .slabDelivery s = .next s)
    ∧ (paMod b.dest = s.mod → b.whole = true → s.gridAt b.dest = some (d, j) → s.gridObj d j = some g → r = g.raw →
      (tagAt b.step g.own = false ∨ (∃ e ∈ s.slabs.take i, e.dest = b.dest ∧ e.region = b.region) → exec .slabDelivery s = .next s)
      ∧ (tagAt b.step g.own = true → s.slabBehind i b = false → g.closing = false → b.fmt ≠ gdFmt r → ∃ t, exec .slabDelivery s = .next t ∧ t.slabs = s.slabs.eraseIdx i
        ∧ t.mem = s.mem ∧ ∃ g' ∈ (t.die d).grids, g' = { g with mismatched := true })
      ∧ (∀ e n pa, tagAt b.step g.own = true → s.slabBehind i b = false → g.closing = false → regPresent r b.region = true → regElems r b.region = [e] → b.elems = [n] → b.fmt = gdFmt r →
        b.bs = gdBs r → gdBs r = false → b.bsz = gdBsz r → b.gw = gdGw r → b.d = gdD r → gdBytes r = 1 → b.scales = [] →
        s.viewPa g.view (elemAddr r (b.step % 2) e) = some pa → ∃ t, exec .slabDelivery s = .next t ∧ t.slabs = s.slabs.eraseIdx i
          ∧ memGet t.mem pa = BitVec.ofNat 8 n ∧ (∀ a, a ≠ pa → memGet t.mem a = memGet s.mem a)
          ∧ ∃ g' ∈ (t.die d).grids, g' = { g with tags := g.tags.set b.region (some b.step) })))
  ∧ (∀ (s : State) (d i k n reg : Nat) (g : GridObj), d = s.focus.d → i = s.focus.i → k = s.focus.k → s.gridObj d i = some g → g.fills[k]? = some (n, reg) →
    s.gridServes g n = true → regLocal g.raw reg ≠ [] → (∀ j ∈ regLocal g.raw reg, regRule g.raw reg j = 2) → gdBs g.raw = false → g.closing = false →
    ∃ t, exec .localFill s = .next t
      ∧ (∀ e ∈ regElems g.raw reg, ∀ j pa, j < gdBytes g.raw → s.viewPa g.view (elemAddr g.raw (n % 2) e + (j : Int)) = some pa → memGet t.mem pa = 0)
      ∧ ∃ g' ∈ (t.die d).grids, g'.desc = g.desc ∧ g'.tags = g.tags.set reg (some n) ∧ g'.fills = g.fills.eraseIdx k)
  ∧ ∀ (s : State) (c x : Nat) (u : Ctx) (q : LoadReq) (rest : List LoadReq) (n : BitVec 32) (h : BitVec 2) (since : Option Nat), c = s.focus.c → x = s.focus.x →
    x < 4 → u = s.ctx c x → (∀ e ∈ u.ldq, e.landed = true) → u.laq = q :: rest → q.op = .ldh n h since → u.ldq.length < 32 →
    (s.gridOf c u h.toNat = none → ∃ t, exec .ldhCheck s = .next t
      ∧ t.ctx c x = { u with laq := rest, ldq := u.ldq ++ [{ req := { q with op := .plain } }] } ∧ t.mem = s.mem ∧ t.dies = s.dies)
    ∧ (∀ d i a g, s.ldhFate c u q n h = .stale d i a → s.gridObj d i = some g →
      (gdStl g.raw = true → ∃ t, exec .ldhCheck s = .next t ∧ t.ctx c x = { u with
        laq := rest, ldq := u.ldq ++ [{ req := q, mark := some { cause := .stalehalo, addr := a }, landed := true }]
        cnt := { u.cnt with loads := u.cnt.loads - 1 } } ∧ t.dies = s.dies)
      ∧ (gdStl g.raw = false → (∀ m, since = some m → s.clk < m + 2 ^ gdTex g.raw) → ∃ t, exec .ldhCheck s = .next t
        ∧ t.ctx c x = { u with laq := { q with op := .ldh n h (some (since.getD s.clk)) } :: rest } ∧ t.dies = s.dies)
      ∧ (∀ m ev, since = some m → m + 2 ^ gdTex g.raw ≤ s.clk → g.closing = false → ev = .stalehaloTimeout ∨ ev = .ldhCheck ∧ gdStl g.raw = false → ∃ t, exec ev s = .next t ∧ t.ctx c x = { u with
        laq := rest, ldq := u.ldq ++ [{ req := q, mark := some { cause := .stalehalo, addr := a }, landed := true }]
        cnt := { u.cnt with loads := u.cnt.loads - 1 } } ∧ ∃ g' ∈ (t.die d).grids, g' = { g with timedOut := true }))

/-- R173, R317, R322, R328-R330: a fill starts once nothing that overlaps it is in its way, and evicts the resident experts under its slot; as its last byte is performed the slot
holds the source's bytes, the expert is resident, and its waiters become pins; a fill that fails is tried once more, then the expert is absent with err. A
proposal joins a heap that has room, or takes the place of the worst that it is better than. A batch takes the blocks of the next 16 experts; a block takes a slot, one each 16 cycles: that of a resident
expert is dispatched, one of an absent expert parks at a node of the pool, and one that finds the pool empty is tried again at each further 256 cycles.
The steps, and the focus that says what a step acts on, are the model's own (log 1); so are that a copy that fails is an act of the environment, that one that failed twice keeps the pins that xpref owes it, and that a
block which finds the pool empty asks for no fill (log 30), and which node a parked block takes (log 53). -/
def Obligations.ExpertsAreFilledAndRouted : Prop :=
  (∀ (s : State) (e : Nat) (k : Expert), e = s.focus.i → k = s.expert e →
    (s.fillReady e = true → (s.larder.countP fun p => p.2.copying) < 16 → (∀ p ∈ s.larder, p.2.reqOrder < k.reqOrder → s.fillReady p.1 = false) →
      ∃ t, exec .expertFillStart s = .next t ∧ (t.expert e).copying = true ∧ (t.expert e).state = 1 ∧ t.mem = s.mem
        ∧ ∀ p ∈ s.larder, p.1 ≠ e → p.2.overlaps k = true → p.2.state = 2 → (t.expert p.1).state = 0)
    ∧ (∀ a, k.state = 1 → k.copying = true → k.nvme = false → s.fillSource k = some a → (∀ p ∈ s.badEcc, p < a ∨ a + k.bytes ≤ p) →
      ∃ t, exec .expertFillComplete s = .next t ∧ (t.expert e).state = 2 ∧ (t.expert e).copying = false ∧ (t.expert e).err = false
        ∧ (t.expert e).waiters = [] ∧ (t.expert e).pins = (k.pins + (k.waiters.length + k.prefPins)) % 2 ^ 16 ∧ t.nodesUsed = s.nodesUsed - k.waiters.length
        ∧ (∀ j, j < k.bytes → memGet t.mem (s.slotBase k + j) = memGet s.mem (a + j))
        ∧ ∀ p, p < s.slotBase k ∨ s.slotBase k + k.bytes ≤ p → memGet t.mem p = memGet s.mem p)
    ∧ (k.state = 1 → k.copying = true → k.failed = false → ∃ t, exec .expertFillFail s = .next t ∧ t.expert e = { k with failed := true } ∧ t.mem = s.mem)
    ∧ (k.state = 1 → k.copying = true → k.failed = true → ∃ t, exec .expertFillFail s = .next t
      ∧ t.expert e = { k with state := 0, copying := false, failed := false, err := true, waiters := [] } ∧ t.nodesUsed = s.nodesUsed - k.waiters.length))
  ∧ (∀ (s : State) (i : Nat) (p : Proposal) (k : Expert), i = s.focus.i → s.proposals[i]? = some p → k = s.expert p.expert → s.expertOk p.vi p.expert = true →
    (f32.decode p.score.toNat).isNaN = false →
    (k.heap.length ≤ k.cap → ∃ t, exec .proposalArrive s = .next t ∧ (t.expert p.expert).heap = k.heap ++ [p] ∧ t.proposals = s.proposals.eraseIdx i)
    ∧ (∀ m, k.cap < k.heap.length → worst k.heap = some m → p.better m = true → ∃ t, exec .proposalArrive s = .next t
      ∧ (t.expert p.expert).heap = k.heap.erase m ++ [p])
    ∧ (∀ m, k.cap < k.heap.length → worst k.heap = some m → p.better m = false → ∃ t, exec .proposalArrive s = .next t ∧ (t.expert p.expert).heap = k.heap))
  ∧ (∀ (s : State) (i : Nat) (w : Walk), i = s.focus.i → s.walks[i]? = some w → w.order = [] → w.parked = [] → w.noNode = [] → w.arriving = [] → w.active = 0 → w.rest ≠ [] →
    (∀ e ∈ clusters w, ∀ j, j < 8 * e.2.2 → (s.core (w.die * 128 + 8 * e.2.1 + j)).hasRoom w.rcd 1 = true) → (∀ v, (s.vi v).frozen = false) →
    ∃ t w', exec .walkBatchStart s = .next t ∧ t.walks[i]? = some w'
      ∧ w'.order.map (·.idx) = (w.rest.filter fun b => ((expertsOf w.rest).take 16).contains b.expert).map (·.idx)
      ∧ w'.rest = w.rest.filter (fun b => !((expertsOf w.rest).take 16).contains b.expert) ∧ t.mem = s.mem
      ∧ ∀ e ∈ clusters w, ∀ j, j < 8 * e.2.2 → ∃ x, x < 4 ∧ ((t.ctx (w.die * 128 + 8 * e.2.1 + j) x).worker.map (·.launch)) = some w.id)
  ∧ ∀ (s : State) (i : Nat) (w w0 : Walk) (b : WalkBlock) (rest : List WalkBlock) (ev : Instr), i = s.focus.i → s.walks[i]? = some w →
    (∀ (j : Nat) (v : Walk), s.walks[j]? = some v → v.id = w.id → j = i) →
    (ev = .blockDispatch ∧ s.focus.o ≠ 1 ∧ w.order = b :: rest ∧ w.slot ≤ s.clk ∧ (s.clk - w.slot) % 16 = 0 ∧ w0 = { w with order := rest, slot := s.clk + 16 })
      ∨ (ev = .waiterPoolRetry ∧ w.noNode[s.focus.k]? = some b ∧ b.since < s.clk ∧ (s.clk - b.since) % 256 = 0
        ∧ w0 = { w with noNode := w.noNode.eraseIdx s.focus.k }) →
    b.requeued = false →
    ((s.expert b.expert).state = 2 → ∃ t, exec ev s = .next t ∧ (t.expert b.expert).pins = ((s.expert b.expert).pins + 1) % 2 ^ 16
      ∧ (w.arriving = [] → (∀ l ∈ (s.die w.die).rdc, s.slotLine b.expert l.line = false) → t.walks[i]? = some { w0 with active := w0.active + 1 }))
    ∧ ((s.expert b.expert).state ≠ 2 → s.nodesUsed < 4096 → ∃ t, exec ev s = .next t
      ∧ t.walks[i]? = some { w0 with parked := w0.parked ++ [b], npark := w0.npark + 1 }
      ∧ (t.expert b.expert).waiters = (s.expert b.expert).waiters ++ [{ node := s.freeNode, walk := w.id, idx := b.idx }] ∧ t.nodesUsed = s.nodesUsed + 1
      ∧ ((s.expert b.expert).state = 0 → (t.expert b.expert).state = 1))
    ∧ ((s.expert b.expert).state ≠ 2 → 4096 ≤ s.nodesUsed → ∃ t, exec ev s = .next t
      ∧ t.walks[i]? = some { w0 with noNode := w0.noNode ++ [{ b with since := s.clk }] } ∧ t.larder = s.larder ∧ t.mem = s.mem)

/-- R362-R379, R384-R388: in a ring cycle of a station, once, a flit takes the lowest empty slot that it may use; one whose slot stands at its station is taken, is held in the escape
entry it has reserved, or goes round again, with a reservation or counted in U; an escape entry that drains is free; a message leaves its
FIFO with its response words reserved, and a malformed one is answered; its load, store or delivery is performed, and its response lands. A packet is written at
each member of its group; a contribution opens a unit, or is refused for want of storage and sent again 256 cycles later. At the module's station of the rack ring nothing is given a slot while up is 0; a flit for this
module is taken, reserves an escape entry or is counted in U as at the others, and the bytes of a tier-1 request that is taken are written. The steps, and the focus that says what a step acts on, are the model's own
(log 1); so are which lanes pass and whether a buffer has room, what of a message is malformed and its one-word answer, and where a store's data lie in its flits (logs 34 and 74), and the key of group, operation and offset
that a reduction's unit has (log 35). -/
def Obligations.RingsAndGroupsDeliver : Prop :=
  (∀ (s : State) (n lane : Nat) (rest : List Nat) (k : Station) (f : Flit), s.focus.o ≠ 1 → n = s.focus.i / 2 % 10 → n < 9 → k = s.station n →
    (f.dir = true ↔ s.focus.i % 2 = 1) →
    (k.ran.getD f.dir.toNat none = some s.ringCycle → exec .ringSlotAllocation s = .next s)
    ∧ (k.ran.getD f.dir.toNat none ≠ some s.ringCycle → k.queue = [f] → f.tier < 3 → s.emptyLanes n f.dir s.focus.k = lane :: rest →
      (f.reply = true ∨ (lane < 15 ∧ s.holdsBack n = false) → ∃ t, exec .ringSlotAllocation s = .next t
        ∧ t.flits = s.flits ++ [{ f with lane := lane, place := slotAt f.dir n s.ringCycle }] ∧ (t.station n).queue = [])
      ∧ (f.reply = false → s.holdsBack n = true → ∃ t, exec .ringSlotAllocation s = .next t ∧ t.flits = s.flits ∧ (t.station n).queue = [f])))
  ∧ (∀ (s : State) (i : Nat) (f : Flit) (k : Station), i = s.focus.i → s.focus.o = 0 → s.flits[i]? = some f → k = s.station f.dst → f.dmod = s.mod →
    (f.atStation f.dst s.ringCycle = false ∨ f.seen = some s.ringCycle → exec .flitArrival s = .next s)
    ∧ (f.atStation f.dst s.ringCycle = true → f.seen ≠ some s.ringCycle →
      (f.reply = true ∨ f.dunit ≠ 0x3FF ∨ s.focus.k ≠ 0 → ∃ t, exec .flitArrival s = .next t ∧ t.flits = s.flits.eraseIdx i
        ∧ (t.station f.dst).u = (if f.counted then k.u - 1 else k.u) ∧ (f.esc = false → (t.station f.dst).esc = k.esc))
      ∧ (f.reply = false → f.dunit = 0x3FF → s.focus.k = 0 →
        (f.esc = true → ∃ t, exec .flitArrival s = .next t ∧ t.flits = s.flits.eraseIdx i
          ∧ (t.station f.dst).esc = k.esc.map fun e => if e.held = false ∧ e.flit.same f = true then { e with flit := f, held := true } else e)
        ∧ (f.esc = false → k.escUsed f.dir < 16 → f.lap = true ∨ k.u = 0 → ∃ t, exec .flitArrival s = .next t
          ∧ t.flits = s.flits.set i { f with lap := true, esc := true, seen := some s.ringCycle }
          ∧ t.station f.dst = { k with esc := k.esc ++ [{ dir := f.dir, flit := { f with lap := true, esc := true } }] })
        ∧ (f.esc = false → 16 ≤ k.escUsed f.dir ∨ (f.lap = false ∧ 0 < k.u) → ∃ t, exec .flitArrival s = .next t
          ∧ (f.counted = false → t.flits = s.flits.set i { f with lap := true, counted := true, seen := some s.ringCycle }
            ∧ t.station f.dst = { k with u := k.u + 1 })
          ∧ (f.counted = true → t.flits = s.flits.set i { f with seen := some s.ringCycle } ∧ t.station f.dst = k)))))
  ∧ (∀ (s : State) (n : Nat) (e : EscEntry), s.focus.o = 1 → (s.station s.focus.i).esc[n]? = some e → n = s.focus.k → e.held = true → e.flit.dmod = s.mod →
    ∃ t, exec .flitArrival s = .next t ∧ (t.station s.focus.i).esc = (s.station s.focus.i).esc.eraseIdx n ∧ t.flits = s.flits)
  ∧ (∀ (s : State) (c x : Nat) (u : Ctx) (w : Worker) (h : Word) (ws : List SendWord), c = s.focus.c → x = s.focus.x → x < 4 → u = s.ctx c x →
    u.worker = some w → sendHead u.sendF = .whole h ws →
    (fabBad h (ws.map (·.word)) = false → fabRoom h ≤ u.recvRoom → ∃ t m, exec .fabricMessageSend s = .next t ∧ t.fabric = s.fabric ++ [m] ∧ m.header = h
      ∧ m.words = ws.map (·.word) ∧ m.uid = w.uid ∧ m.resp = none ∧ (t.ctx c x).sendF = u.sendF.drop (1 + ws.length)
      ∧ (t.ctx c x).recvRes = u.recvRes + fabRoom h ∧ (t.ctx c x).recvF = u.recvF)
    ∧ (fabBad h (ws.map (·.word)) = true → 0 < u.recvRoom → ∃ t, exec .fabricMessageSend s = .next t ∧ t.fabric = s.fabric
      ∧ (t.ctx c x).sendF = u.sendF.drop (1 + ws.length)
      ∧ (t.ctx c x).recvF = u.recvF ++ [BitVec.ofNat 64 (6 * 2 ^ 60 + 3 * 2 ^ 57 + fabTag h * 2 ^ 32)]))
  ∧ (∀ (s : State) (i : Nat) (m : FabricMsg) (pas : List Nat), i = s.focus.i → s.fabric[i]? = some m → m.resp = none → s.arrived m.id false = true →
    (fabKind m.header = 1 ∨ fabKind m.header = 2 → collect (m.locs.map fun l => s.place (some l)) = .ok pas → (∀ a ∈ pas, a ∉ s.badEcc) →
      (fabKind m.header = 1 → ∃ t r, exec .fabricAccessPerform s = .next t ∧ t.fabric[i]? = some { m with resp := some r } ∧ t.mem = s.mem
        ∧ r = respWord 4 0 (fabN m.header) (fabTag m.header) 0 :: (List.range (fabN m.header)).map fun j =>
            BitVec.ofNat 64 (bytesNat (pas.map fun a => memGet s.mem a) >>> (64 * j)))
      ∧ (fabKind m.header = 2 → pas.Nodup → m.words.length = 1 + fabN m.header → pas.length = 8 * fabN m.header → ∃ t, exec .fabricAccessPerform s = .next t
        ∧ t.fabric[i]? = some { m with resp := some (if fabAck m.header then [respWord 5 0 0 (fabTag m.header) 0] else []) }
        ∧ (∀ j a, pas[j]? = some a → memGet t.mem a = ((m.words.drop 1).getD (j / 8) 0).extractLsb' (8 * (j % 8)) 8)
        ∧ ∀ a, a ∉ pas → memGet t.mem a = memGet s.mem a))
    ∧ (∀ d y, fabKind m.header = 0 → fabMod m.header = s.mod → d = fabCore m.header → y = fabCtx m.header →
      (s.addressee m = true → m.words.length < (s.ctx d y).recvRoom → ∃ t, exec .fabricMessageDelivery s = .next t
        ∧ (t.ctx d y).recvF = (s.ctx d y).recvF ++ respWord 0 0 m.words.length (fabTag m.header) (m.away.getD s.mod * 2 ^ 12 + m.core * 4 + m.ctx) :: m.words
        ∧ t.fabric[i]? = some { m with resp := some (if fabAck m.header then [respWord 5 0 0 (fabTag m.header) 0] else []) })
      ∧ (s.addressee m = true → (s.ctx d y).recvRoom ≤ m.words.length → ∃ t, exec .fabricMessageDelivery s = .next t ∧ (∀ e z, t.ctx e z = s.ctx e z)
        ∧ t.fabric[i]? = some { m with resp := some [respWord 6 5 0 (fabTag m.header) 0] })
      ∧ (s.addressee m = false → s.savedAt m = none → ∃ t, exec .fabricMessageDelivery s = .next t ∧ (∀ e z, t.ctx e z = s.ctx e z)
        ∧ t.fabric[i]? = some { m with resp := some [respWord 6 4 0 (fabTag m.header) 0] })))
  ∧ (∀ (s : State) (i d x : Nat) (m : FabricMsg) (ws : List Word), i = s.focus.i → s.fabric[i]? = some m → m.resp = some ws → m.away = none → s.arrived m.id true = true →
    s.savedImage m.uid = none → Claims.stands s m.uid d x → ∃ t, exec .fabricResponse s = .next t ∧ t.fabric = s.fabric.eraseIdx i
      ∧ (t.ctx d x).recvF = (s.ctx d x).recvF ++ ws ∧ (t.ctx d x).recvRes = (s.ctx d x).recvRes - m.room)
  ∧ (∀ (s : State) (i k o b n : Nat) (v : Byte) (p : Packet) (g : Group), i = s.focus.i → k = s.focus.k → s.packets[i]? = some p → p.latched = none →
    g = s.group p.group → n = grpNmem g.raw → 1 < n → k < n → p.cells = [(o, v)] → p.scales = [] → b = (s.member g k).1 → s.backed (b + o) = true →
    ∃ t, exec .multicastPacket s = .next t ∧ memGet t.mem (b + o) = v ∧ (∀ a, a ≠ b + o → memGet t.mem a = memGet s.mem a)
      ∧ t.packets[i]? = some { p with latched := some g, left := (List.range n).filter fun j => j != k })
  ∧ (∀ (s : State) (i : Nat) (k : Contribution), i = s.focus.i → s.contribs[i]? = some k →
    (s.focus.d = 0 → k.refused = false → k.away = false → grpRoot (s.group k.group).raw = s.mod →
      (∀ u ∈ s.redUnits, u.group ≠ k.group ∨ u.gop ≠ k.gop ∨ u.offset ≠ k.offset ∨ u.combined = true) →
      (2 ^ 24 < (s.redUnits.map RedUnit.bytes).sum + 64 * grpNcon (s.group k.group).raw → ∃ t, exec .reductionContribution s = .next t
        ∧ t = { s with contribs := s.contribs.set i { k with refused := true, retryAt := s.clk + 256 } })
      ∧ ((s.redUnits.map RedUnit.bytes).sum + 64 * grpNcon (s.group k.group).raw ≤ 2 ^ 24 → 1 < grpNcon (s.group k.group).raw →
        ∃ t u, exec .reductionContribution s = .next t ∧ t = { s with contribs := s.contribs.eraseIdx i, redUnits := s.redUnits ++ [u], nextId := s.nextId + 1 }
          ∧ u.got = [k] ∧ u.combined = false ∧ u.latched = s.group k.group ∧ u.offset = k.offset))
    ∧ (k.refused = true → k.retryAt ≤ s.clk → exec .reductionRetry s = .next { s with contribs := s.contribs.set i { k with refused := false } })
    ∧ (s.clk < k.retryAt → exec .reductionRetry s = .next s))
  ∧ (∀ (s : State) (lane : Nat) (rest : List Nat) (k : Station) (f : Flit), s.focus.o ≠ 1 → s.focus.i / 2 % 10 = 9 → k = s.station 9 → (f.dir = true ↔ s.focus.i % 2 = 1) →
    k.ran.getD f.dir.toNat none ≠ some s.ringCycle → k.queue = [f] → f.tier < 3 → s.emptyLanes 9 f.dir s.focus.k = lane :: rest →
    (s.rctl.up = false → exec .ringSlotAllocation s = .next s)
    ∧ (s.rctl.up = true → f.reply = true ∨ (lane < 7 ∧ s.holdsBack 9 = false) → ∃ t, exec .ringSlotAllocation s = .next t ∧ (t.station 9).queue = [] ∧ t.flits = s.flits ∧ t.mem = s.mem)
    ∧ (s.rctl.up = true → f.reply = false → s.holdsBack 9 = true → ∃ t, exec .ringSlotAllocation s = .next t ∧ (t.station 9).queue = [f] ∧ t.flits = s.flits ∧ t.mem = s.mem))
  ∧ ∀ (s : State) (f : Flit) (k : Station) (back : Bool), s.focus.o = 2 → f = Flit.ofBits s.focus.w → k = s.station 9 → back = (k.esc.any fun e => !e.held && e.flit.same f) →
    (f.dmod ≠ s.mod ∨ s.rctl.up = false → exec .flitArrival s = .next s)
    ∧ (f.dmod = s.mod → s.rctl.up = true → s.focus.k = 0 → f.reply = false →
      (back = true → ∃ t, exec .flitArrival s = .next t ∧ t.mem = s.mem ∧ (t.station 9).esc.map (·.held) = k.esc.map fun e => e.held || e.flit.same f)
      ∧ (back = false → k.escUsed f.dir < 16 → f.lap = true ∨ k.u = 0 → ∃ t, exec .flitArrival s = .next t ∧ t.mem = s.mem
        ∧ t.station 9 = { k with esc := k.esc ++ [{ dir := f.dir, flit := { f with lap := true, esc := true, counted := f.lap && !f.esc } }] })
      ∧ (back = false → 16 ≤ k.escUsed f.dir ∨ (f.lap = false ∧ 0 < k.u) → ∃ t, exec .flitArrival s = .next t ∧ t.mem = s.mem
        ∧ t.station 9 = if f.lap = true ∧ f.esc = false then k else { k with u := k.u + 1 }))
    ∧ (f.dmod = s.mod → s.rctl.up = true → s.focus.k ≠ 0 → f.reply = false → f.dunit = 0x3FF → f.tier = 1 → (∀ p ∈ maskCells f.words, paMod p.1 = s.mod ∧ s.backed p.1 = true) →
      ∃ t, exec .flitArrival s = .next t ∧ (∀ p ∈ maskCells f.words, memGet t.mem p.1 = p.2) ∧ (∀ a, (∀ p ∈ maskCells f.words, p.1 ≠ a) → memGet t.mem a = memGet s.mem a)
        ∧ (t.station 9).esc = (if back then k.esc.eraseP fun e => !e.held && e.flit.same f else k.esc))
end

