-- ==== Sys2Proof/Laws/State.lean ====
section
/-!
SUPPORT. What the updates of the state leave alone, field by field, and what reads give after them.
-/

-- One after another: side by side they take too much memory.
set_option Elab.async false

namespace Sys2Proof.Machine

/-! ## Sparse tables -/

theorem lookup_filter {α : Type} (f : Nat → Bool) (t : List (Nat × α)) (j : Nat) :
    (t.filter fun p => f p.1).lookup j = if f j then t.lookup j else none := by
  induction t with
  | nil => simp
  | cons p t ih =>
    rw [List.filter_cons]
    by_cases hp : f p.1
    · rw [if_pos hp, List.lookup_cons, List.lookup_cons, ih]
      by_cases hj : j = p.1
      · subst hj; simp [hp]
      · have : (j == p.1) = false := by simpa using hj
        simp [this]
    · rw [if_neg hp, ih, List.lookup_cons]
      by_cases hj : j = p.1
      · subst hj; simp [hp]
      · have : (j == p.1) = false := by simpa using hj
        simp [this]

theorem lookup_append {α : Type} (t u : List (Nat × α)) (j : Nat) : (t ++ u).lookup j = (t.lookup j).or (u.lookup j) := by
  induction t with
  | nil => simp
  | cons p t ih =>
    rw [List.cons_append, List.lookup_cons, List.lookup_cons, ih]
    cases j == p.1 <;> simp

/-- The table after an entry is replaced. -/
theorem lookup_tset {α : Type} (t : List (Nat × α)) (i : Nat) (a : α) (j : Nat) :
    (tset t i a).lookup j = if j = i then some a else t.lookup j := by
  have h1 := lookup_filter (fun k => decide (k < i)) t j
  have h2 := lookup_filter (fun k => decide (i < k)) t j
  simp only [decide_eq_true_eq] at h1 h2
  unfold tset
  rw [lookup_append, List.lookup_cons, h1, h2]
  by_cases hj : j = i
  · subst hj; simp
  · have : (j == i) = false := by simpa using hj
    rw [this, if_neg hj]
    by_cases hlt : j < i
    · rw [if_pos hlt, if_neg (by omega)]; simp
    · rw [if_neg hlt, if_pos (by omega)]; simp

@[simp] theorem tget_tset_same {α : Type} (d : α) (t : List (Nat × α)) (i : Nat) (a : α) : tget d (tset t i a) i = a := by
  simp [tget, lookup_tset]

theorem tget_tset {α : Type} (d : α) (t : List (Nat × α)) (i : Nat) (a : α) (j : Nat) :
    tget d (tset t i a) j = if j = i then a else tget d t j := by
  unfold tget
  rw [lookup_tset]
  by_cases h : j = i <;> simp [h]

@[simp] theorem tget_tset_other {α : Type} (d : α) (t : List (Nat × α)) (i : Nat) (a : α) (j : Nat) (h : j ≠ i) :
    tget d (tset t i a) j = tget d t j := by
  rw [tget_tset, if_neg h]

/-! ## Vectors -/

theorem vget_vset {α : Type} {n : Nat} (v : Vector α n) (i : Nat) (a d : α) (j : Nat) :
    vget (vset v i a) j d = if j = i ∧ i < n then a else vget v j d := by
  unfold vget vset
  rw [Vector.getElem?_setIfInBounds]
  by_cases h : i = j
  · subst h
    by_cases hn : i < n
    · simp [hn]
    · simp [hn]
  · simp [h, Ne.symm h]

@[simp] theorem vget_vset_other {α : Type} {n : Nat} (v : Vector α n) (i : Nat) (a d : α) (j : Nat) (h : j ≠ i) :
    vget (vset v i a) j d = vget v j d := by
  rw [vget_vset, if_neg (fun e => h e.1)]

/-! ## Cores, contexts, dies -/

@[simp] theorem State.setCore_core (s : State) (c : Nat) (k : Core) : (s.setCore c k).core c = k := by
  simp [State.setCore, State.core]

theorem State.setCore_core_other (s : State) (c : Nat) (k : Core) (d : Nat) (h : d ≠ c) : (s.setCore c k).core d = s.core d := by
  simp [State.setCore, State.core, h]

@[simp] theorem State.updCore_core (s : State) (c : Nat) (f : Core → Core) : (s.updCore c f).core c = f (s.core c) := by
  simp [State.updCore]

theorem State.updCore_core_other (s : State) (c : Nat) (f : Core → Core) (d : Nat) (h : d ≠ c) : (s.updCore c f).core d = s.core d :=
  s.setCore_core_other c _ d h

/-- A context of a core after one is replaced: the contexts that a core has. -/
theorem Core.setCtx_ctx (k : Core) (x : Nat) (t : Ctx) (h : x < 5) : (k.setCtx x t).ctx x = t := by
  simp [Core.setCtx, Core.ctx, h, vget_vset]

theorem Core.setCtx_ctx_other (k : Core) (x : Nat) (t : Ctx) (y : Nat) (h : y ≠ x) : (k.setCtx x t).ctx y = k.ctx y := by
  unfold Core.setCtx Core.ctx
  by_cases hx : x < 5
  · by_cases hy : y < 5
    · simp [hx, hy, h]
    · simp [hx, hy]
  · by_cases hy : y < 5
    · simp [hx, hy]
    · have : x - 5 ≠ y - 5 := by omega
      simp [hx, hy, List.getD, this]

theorem State.setCtx_ctx (s : State) (c x : Nat) (t : Ctx) (h : x < 5) : (s.setCtx c x t).ctx c x = t := by
  simp [State.setCtx, State.ctx, Core.setCtx_ctx _ _ _ h]

theorem State.setCtx_ctx_other (s : State) (c x : Nat) (t : Ctx) (d y : Nat) (h : (d, y) ≠ (c, x)) :
    (s.setCtx c x t).ctx d y = s.ctx d y := by
  unfold State.setCtx State.ctx
  by_cases hd : d = c
  · subst hd
    rw [State.updCore_core, Core.setCtx_ctx_other]
    intro e; exact h (by rw [e])
  · rw [State.updCore_core_other _ _ _ _ hd]

theorem State.updCtx_ctx (s : State) (c x : Nat) (f : Ctx → Ctx) (h : x < 5) : (s.updCtx c x f).ctx c x = f (s.ctx c x) :=
  s.setCtx_ctx c x _ h

theorem State.updCtx_ctx_other (s : State) (c x : Nat) (f : Ctx → Ctx) (d y : Nat) (h : (d, y) ≠ (c, x)) :
    (s.updCtx c x f).ctx d y = s.ctx d y :=
  s.setCtx_ctx_other c x _ d y h

@[simp] theorem State.setDie_die (s : State) (d : Nat) (k : Die) : (s.setDie d k).die d = k := by
  simp [State.setDie, State.die]

theorem State.setDie_die_other (s : State) (d : Nat) (k : Die) (e : Nat) (h : e ≠ d) : (s.setDie d k).die e = s.die e := by
  simp [State.setDie, State.die, h]

@[simp] theorem State.updDie_die (s : State) (d : Nat) (f : Die → Die) : (s.updDie d f).die d = f (s.die d) := by
  simp [State.updDie]

theorem State.updDie_die_other (s : State) (d : Nat) (f : Die → Die) (e : Nat) (h : e ≠ d) : (s.updDie d f).die e = s.die e :=
  s.setDie_die_other d _ e h

@[simp] theorem State.updVI_vi (s : State) (v : Nat) (f : VI → VI) : (s.updVI v f).vi v = f (s.vi v) := by
  simp [State.updVI, State.vi]

theorem State.updVI_vi_other (s : State) (v : Nat) (f : VI → VI) (u : Nat) (h : u ≠ v) : (s.updVI v f).vi u = s.vi u := by
  simp [State.updVI, State.vi, h]


/-! ## State.setCore -/

@[simp] theorem State.setCore_mem (s : State) (c : Nat) (k : Core) : (s.setCore c k).mem = s.mem := rfl
@[simp] theorem State.setCore_dies (s : State) (c : Nat) (k : Core) : (s.setCore c k).dies = s.dies := rfl
@[simp] theorem State.setCore_clk (s : State) (c : Nat) (k : Core) : (s.setCore c k).clk = s.clk := rfl
@[simp] theorem State.setCore_agenda (s : State) (c : Nat) (k : Core) : (s.setCore c k).agenda = s.agenda := rfl
@[simp] theorem State.setCore_focus (s : State) (c : Nat) (k : Core) : (s.setCore c k).focus = s.focus := rfl
@[simp] theorem State.setCore_freeCtr (s : State) (c : Nat) (k : Core) : (s.setCore c k).freeCtr = s.freeCtr := rfl
@[simp] theorem State.setCore_down (s : State) (c : Nat) (k : Core) : (s.setCore c k).down = s.down := rfl
@[simp] theorem State.setCore_rctl (s : State) (c : Nat) (k : Core) : (s.setCore c k).rctl = s.rctl := rfl
@[simp] theorem State.setCore_rctlNext (s : State) (c : Nat) (k : Core) : (s.setCore c k).rctlNext = s.rctlNext := rfl
@[simp] theorem State.setCore_accepted (s : State) (c : Nat) (k : Core) : (s.setCore c k).accepted = s.accepted := rfl
@[simp] theorem State.setCore_hostMem (s : State) (c : Nat) (k : Core) : (s.setCore c k).hostMem = s.hostMem := rfl
@[simp] theorem State.setCore_nextId (s : State) (c : Nat) (k : Core) : (s.setCore c k).nextId = s.nextId := rfl
@[simp] theorem State.setCore_launchQ (s : State) (c : Nat) (k : Core) : (s.setCore c k).launchQ = s.launchQ := rfl
@[simp] theorem State.setCore_launches (s : State) (c : Nat) (k : Core) : (s.setCore c k).launches = s.launches := rfl
@[simp] theorem State.setCore_vis (s : State) (c : Nat) (k : Core) : (s.setCore c k).vis = s.vis := rfl
@[simp] theorem State.setCore_images (s : State) (c : Nat) (k : Core) : (s.setCore c k).images = s.images := rfl
@[simp] theorem State.setCore_pipes (s : State) (c : Nat) (k : Core) : (s.setCore c k).pipes = s.pipes := rfl
@[simp] theorem State.setCore_walks (s : State) (c : Nat) (k : Core) : (s.setCore c k).walks = s.walks := rfl
@[simp] theorem State.setCore_compass (s : State) (c : Nat) (k : Core) : (s.setCore c k).compass = s.compass := rfl
@[simp] theorem State.setCore_compassQ (s : State) (c : Nat) (k : Core) : (s.setCore c k).compassQ = s.compassQ := rfl
@[simp] theorem State.setCore_ladders (s : State) (c : Nat) (k : Core) : (s.setCore c k).ladders = s.ladders := rfl
@[simp] theorem State.setCore_groups (s : State) (c : Nat) (k : Core) : (s.setCore c k).groups = s.groups := rfl
@[simp] theorem State.setCore_packets (s : State) (c : Nat) (k : Core) : (s.setCore c k).packets = s.packets := rfl
@[simp] theorem State.setCore_contribs (s : State) (c : Nat) (k : Core) : (s.setCore c k).contribs = s.contribs := rfl
@[simp] theorem State.setCore_redUnits (s : State) (c : Nat) (k : Core) : (s.setCore c k).redUnits = s.redUnits := rfl
@[simp] theorem State.setCore_barNow (s : State) (c : Nat) (k : Core) : (s.setCore c k).barNow = s.barNow := rfl
@[simp] theorem State.setCore_larder (s : State) (c : Nat) (k : Core) : (s.setCore c k).larder = s.larder := rfl
@[simp] theorem State.setCore_nodesUsed (s : State) (c : Nat) (k : Core) : (s.setCore c k).nodesUsed = s.nodesUsed := rfl
@[simp] theorem State.setCore_proposals (s : State) (c : Nat) (k : Core) : (s.setCore c k).proposals = s.proposals := rfl
@[simp] theorem State.setCore_scopeDecs (s : State) (c : Nat) (k : Core) : (s.setCore c k).scopeDecs = s.scopeDecs := rfl
@[simp] theorem State.setCore_energyMsgs (s : State) (c : Nat) (k : Core) : (s.setCore c k).energyMsgs = s.energyMsgs := rfl
@[simp] theorem State.setCore_irqs (s : State) (c : Nat) (k : Core) : (s.setCore c k).irqs = s.irqs := rfl
@[simp] theorem State.setCore_peersUp (s : State) (c : Nat) (k : Core) : (s.setCore c k).peersUp = s.peersUp := rfl
@[simp] theorem State.setCore_inbound (s : State) (c : Nat) (k : Core) : (s.setCore c k).inbound = s.inbound := rfl
@[simp] theorem State.setCore_owedWrites (s : State) (c : Nat) (k : Core) : (s.setCore c k).owedWrites = s.owedWrites := rfl
@[simp] theorem State.setCore_ueSent (s : State) (c : Nat) (k : Core) : (s.setCore c k).ueSent = s.ueSent := rfl
@[simp] theorem State.setCore_nvmeMem (s : State) (c : Nat) (k : Core) : (s.setCore c k).nvmeMem = s.nvmeMem := rfl
@[simp] theorem State.setCore_slots (s : State) (c : Nat) (k : Core) : (s.setCore c k).slots = s.slots := rfl
@[simp] theorem State.setCore_temp (s : State) (c : Nat) (k : Core) : (s.setCore c k).temp = s.temp := rfl
@[simp] theorem State.setCore_scopeReqs (s : State) (c : Nat) (k : Core) : (s.setCore c k).scopeReqs = s.scopeReqs := rfl
@[simp] theorem State.setCore_teamMsgs (s : State) (c : Nat) (k : Core) : (s.setCore c k).teamMsgs = s.teamMsgs := rfl
@[simp] theorem State.setCore_kernels (s : State) (c : Nat) (k : Core) : (s.setCore c k).kernels = s.kernels := rfl
@[simp] theorem State.setCore_slabs (s : State) (c : Nat) (k : Core) : (s.setCore c k).slabs = s.slabs := rfl
@[simp] theorem State.setCore_waiters (s : State) (c : Nat) (k : Core) : (s.setCore c k).waiters = s.waiters := rfl
@[simp] theorem State.setCore_badEcc (s : State) (c : Nat) (k : Core) : (s.setCore c k).badEcc = s.badEcc := rfl
@[simp] theorem State.setCore_softEcc (s : State) (c : Nat) (k : Core) : (s.setCore c k).softEcc = s.softEcc := rfl
@[simp] theorem State.setCore_fabric (s : State) (c : Nat) (k : Core) : (s.setCore c k).fabric = s.fabric := rfl
@[simp] theorem State.setCore_stations (s : State) (c : Nat) (k : Core) : (s.setCore c k).stations = s.stations := rfl
@[simp] theorem State.setCore_flits (s : State) (c : Nat) (k : Core) : (s.setCore c k).flits = s.flits := rfl
@[simp] theorem State.setCore_ueq (s : State) (c : Nat) (k : Core) : (s.setCore c k).ueq = s.ueq := rfl
@[simp] theorem State.setCore_ueOps (s : State) (c : Nat) (k : Core) : (s.setCore c k).ueOps = s.ueOps := rfl

/-! ## State.updCore -/

@[simp] theorem State.updCore_mem (s : State) (c : Nat) (f : Core → Core) : (s.updCore c f).mem = s.mem := rfl
@[simp] theorem State.updCore_dies (s : State) (c : Nat) (f : Core → Core) : (s.updCore c f).dies = s.dies := rfl
@[simp] theorem State.updCore_clk (s : State) (c : Nat) (f : Core → Core) : (s.updCore c f).clk = s.clk := rfl
@[simp] theorem State.updCore_agenda (s : State) (c : Nat) (f : Core → Core) : (s.updCore c f).agenda = s.agenda := rfl
@[simp] theorem State.updCore_focus (s : State) (c : Nat) (f : Core → Core) : (s.updCore c f).focus = s.focus := rfl
@[simp] theorem State.updCore_freeCtr (s : State) (c : Nat) (f : Core → Core) : (s.updCore c f).freeCtr = s.freeCtr := rfl
@[simp] theorem State.updCore_down (s : State) (c : Nat) (f : Core → Core) : (s.updCore c f).down = s.down := rfl
@[simp] theorem State.updCore_rctl (s : State) (c : Nat) (f : Core → Core) : (s.updCore c f).rctl = s.rctl := rfl
@[simp] theorem State.updCore_rctlNext (s : State) (c : Nat) (f : Core → Core) : (s.updCore c f).rctlNext = s.rctlNext := rfl
@[simp] theorem State.updCore_accepted (s : State) (c : Nat) (f : Core → Core) : (s.updCore c f).accepted = s.accepted := rfl
@[simp] theorem State.updCore_hostMem (s : State) (c : Nat) (f : Core → Core) : (s.updCore c f).hostMem = s.hostMem := rfl
@[simp] theorem State.updCore_nextId (s : State) (c : Nat) (f : Core → Core) : (s.updCore c f).nextId = s.nextId := rfl
@[simp] theorem State.updCore_launchQ (s : State) (c : Nat) (f : Core → Core) : (s.updCore c f).launchQ = s.launchQ := rfl
@[simp] theorem State.updCore_launches (s : State) (c : Nat) (f : Core → Core) : (s.updCore c f).launches = s.launches := rfl
@[simp] theorem State.updCore_vis (s : State) (c : Nat) (f : Core → Core) : (s.updCore c f).vis = s.vis := rfl
@[simp] theorem State.updCore_images (s : State) (c : Nat) (f : Core → Core) : (s.updCore c f).images = s.images := rfl
@[simp] theorem State.updCore_pipes (s : State) (c : Nat) (f : Core → Core) : (s.updCore c f).pipes = s.pipes := rfl
@[simp] theorem State.updCore_walks (s : State) (c : Nat) (f : Core → Core) : (s.updCore c f).walks = s.walks := rfl
@[simp] theorem State.updCore_compass (s : State) (c : Nat) (f : Core → Core) : (s.updCore c f).compass = s.compass := rfl
@[simp] theorem State.updCore_compassQ (s : State) (c : Nat) (f : Core → Core) : (s.updCore c f).compassQ = s.compassQ := rfl
@[simp] theorem State.updCore_ladders (s : State) (c : Nat) (f : Core → Core) : (s.updCore c f).ladders = s.ladders := rfl
@[simp] theorem State.updCore_groups (s : State) (c : Nat) (f : Core → Core) : (s.updCore c f).groups = s.groups := rfl
@[simp] theorem State.updCore_packets (s : State) (c : Nat) (f : Core → Core) : (s.updCore c f).packets = s.packets := rfl
@[simp] theorem State.updCore_contribs (s : State) (c : Nat) (f : Core → Core) : (s.updCore c f).contribs = s.contribs := rfl
@[simp] theorem State.updCore_redUnits (s : State) (c : Nat) (f : Core → Core) : (s.updCore c f).redUnits = s.redUnits := rfl
@[simp] theorem State.updCore_barNow (s : State) (c : Nat) (f : Core → Core) : (s.updCore c f).barNow = s.barNow := rfl
@[simp] theorem State.updCore_larder (s : State) (c : Nat) (f : Core → Core) : (s.updCore c f).larder = s.larder := rfl
@[simp] theorem State.updCore_nodesUsed (s : State) (c : Nat) (f : Core → Core) : (s.updCore c f).nodesUsed = s.nodesUsed := rfl
@[simp] theorem State.updCore_proposals (s : State) (c : Nat) (f : Core → Core) : (s.updCore c f).proposals = s.proposals := rfl
@[simp] theorem State.updCore_scopeDecs (s : State) (c : Nat) (f : Core → Core) : (s.updCore c f).scopeDecs = s.scopeDecs := rfl
@[simp] theorem State.updCore_energyMsgs (s : State) (c : Nat) (f : Core → Core) : (s.updCore c f).energyMsgs = s.energyMsgs := rfl
@[simp] theorem State.updCore_irqs (s : State) (c : Nat) (f : Core → Core) : (s.updCore c f).irqs = s.irqs := rfl
@[simp] theorem State.updCore_peersUp (s : State) (c : Nat) (f : Core → Core) : (s.updCore c f).peersUp = s.peersUp := rfl
@[simp] theorem State.updCore_inbound (s : State) (c : Nat) (f : Core → Core) : (s.updCore c f).inbound = s.inbound := rfl
@[simp] theorem State.updCore_owedWrites (s : State) (c : Nat) (f : Core → Core) : (s.updCore c f).owedWrites = s.owedWrites := rfl
@[simp] theorem State.updCore_ueSent (s : State) (c : Nat) (f : Core → Core) : (s.updCore c f).ueSent = s.ueSent := rfl
@[simp] theorem State.updCore_nvmeMem (s : State) (c : Nat) (f : Core → Core) : (s.updCore c f).nvmeMem = s.nvmeMem := rfl
@[simp] theorem State.updCore_slots (s : State) (c : Nat) (f : Core → Core) : (s.updCore c f).slots = s.slots := rfl
@[simp] theorem State.updCore_temp (s : State) (c : Nat) (f : Core → Core) : (s.updCore c f).temp = s.temp := rfl
@[simp] theorem State.updCore_scopeReqs (s : State) (c : Nat) (f : Core → Core) : (s.updCore c f).scopeReqs = s.scopeReqs := rfl
@[simp] theorem State.updCore_teamMsgs (s : State) (c : Nat) (f : Core → Core) : (s.updCore c f).teamMsgs = s.teamMsgs := rfl
@[simp] theorem State.updCore_kernels (s : State) (c : Nat) (f : Core → Core) : (s.updCore c f).kernels = s.kernels := rfl
@[simp] theorem State.updCore_slabs (s : State) (c : Nat) (f : Core → Core) : (s.updCore c f).slabs = s.slabs := rfl
@[simp] theorem State.updCore_waiters (s : State) (c : Nat) (f : Core → Core) : (s.updCore c f).waiters = s.waiters := rfl
@[simp] theorem State.updCore_badEcc (s : State) (c : Nat) (f : Core → Core) : (s.updCore c f).badEcc = s.badEcc := rfl
@[simp] theorem State.updCore_softEcc (s : State) (c : Nat) (f : Core → Core) : (s.updCore c f).softEcc = s.softEcc := rfl
@[simp] theorem State.updCore_fabric (s : State) (c : Nat) (f : Core → Core) : (s.updCore c f).fabric = s.fabric := rfl
@[simp] theorem State.updCore_stations (s : State) (c : Nat) (f : Core → Core) : (s.updCore c f).stations = s.stations := rfl
@[simp] theorem State.updCore_flits (s : State) (c : Nat) (f : Core → Core) : (s.updCore c f).flits = s.flits := rfl
@[simp] theorem State.updCore_ueq (s : State) (c : Nat) (f : Core → Core) : (s.updCore c f).ueq = s.ueq := rfl
@[simp] theorem State.updCore_ueOps (s : State) (c : Nat) (f : Core → Core) : (s.updCore c f).ueOps = s.ueOps := rfl

/-! ## State.setCtx -/

@[simp] theorem State.setCtx_mem (s : State) (c x : Nat) (t : Ctx) : (s.setCtx c x t).mem = s.mem := rfl
@[simp] theorem State.setCtx_dies (s : State) (c x : Nat) (t : Ctx) : (s.setCtx c x t).dies = s.dies := rfl
@[simp] theorem State.setCtx_clk (s : State) (c x : Nat) (t : Ctx) : (s.setCtx c x t).clk = s.clk := rfl
@[simp] theorem State.setCtx_agenda (s : State) (c x : Nat) (t : Ctx) : (s.setCtx c x t).agenda = s.agenda := rfl
@[simp] theorem State.setCtx_focus (s : State) (c x : Nat) (t : Ctx) : (s.setCtx c x t).focus = s.focus := rfl
@[simp] theorem State.setCtx_freeCtr (s : State) (c x : Nat) (t : Ctx) : (s.setCtx c x t).freeCtr = s.freeCtr := rfl
@[simp] theorem State.setCtx_down (s : State) (c x : Nat) (t : Ctx) : (s.setCtx c x t).down = s.down := rfl
@[simp] theorem State.setCtx_rctl (s : State) (c x : Nat) (t : Ctx) : (s.setCtx c x t).rctl = s.rctl := rfl
@[simp] theorem State.setCtx_rctlNext (s : State) (c x : Nat) (t : Ctx) : (s.setCtx c x t).rctlNext = s.rctlNext := rfl
@[simp] theorem State.setCtx_accepted (s : State) (c x : Nat) (t : Ctx) : (s.setCtx c x t).accepted = s.accepted := rfl
@[simp] theorem State.setCtx_hostMem (s : State) (c x : Nat) (t : Ctx) : (s.setCtx c x t).hostMem = s.hostMem := rfl
@[simp] theorem State.setCtx_nextId (s : State) (c x : Nat) (t : Ctx) : (s.setCtx c x t).nextId = s.nextId := rfl
@[simp] theorem State.setCtx_launchQ (s : State) (c x : Nat) (t : Ctx) : (s.setCtx c x t).launchQ = s.launchQ := rfl
@[simp] theorem State.setCtx_launches (s : State) (c x : Nat) (t : Ctx) : (s.setCtx c x t).launches = s.launches := rfl
@[simp] theorem State.setCtx_vis (s : State) (c x : Nat) (t : Ctx) : (s.setCtx c x t).vis = s.vis := rfl
@[simp] theorem State.setCtx_images (s : State) (c x : Nat) (t : Ctx) : (s.setCtx c x t).images = s.images := rfl
@[simp] theorem State.setCtx_pipes (s : State) (c x : Nat) (t : Ctx) : (s.setCtx c x t).pipes = s.pipes := rfl
@[simp] theorem State.setCtx_walks (s : State) (c x : Nat) (t : Ctx) : (s.setCtx c x t).walks = s.walks := rfl
@[simp] theorem State.setCtx_compass (s : State) (c x : Nat) (t : Ctx) : (s.setCtx c x t).compass = s.compass := rfl
@[simp] theorem State.setCtx_compassQ (s : State) (c x : Nat) (t : Ctx) : (s.setCtx c x t).compassQ = s.compassQ := rfl
@[simp] theorem State.setCtx_ladders (s : State) (c x : Nat) (t : Ctx) : (s.setCtx c x t).ladders = s.ladders := rfl
@[simp] theorem State.setCtx_groups (s : State) (c x : Nat) (t : Ctx) : (s.setCtx c x t).groups = s.groups := rfl
@[simp] theorem State.setCtx_packets (s : State) (c x : Nat) (t : Ctx) : (s.setCtx c x t).packets = s.packets := rfl
@[simp] theorem State.setCtx_contribs (s : State) (c x : Nat) (t : Ctx) : (s.setCtx c x t).contribs = s.contribs := rfl
@[simp] theorem State.setCtx_redUnits (s : State) (c x : Nat) (t : Ctx) : (s.setCtx c x t).redUnits = s.redUnits := rfl
@[simp] theorem State.setCtx_barNow (s : State) (c x : Nat) (t : Ctx) : (s.setCtx c x t).barNow = s.barNow := rfl
@[simp] theorem State.setCtx_larder (s : State) (c x : Nat) (t : Ctx) : (s.setCtx c x t).larder = s.larder := rfl
@[simp] theorem State.setCtx_nodesUsed (s : State) (c x : Nat) (t : Ctx) : (s.setCtx c x t).nodesUsed = s.nodesUsed := rfl
@[simp] theorem State.setCtx_proposals (s : State) (c x : Nat) (t : Ctx) : (s.setCtx c x t).proposals = s.proposals := rfl
@[simp] theorem State.setCtx_scopeDecs (s : State) (c x : Nat) (t : Ctx) : (s.setCtx c x t).scopeDecs = s.scopeDecs := rfl
@[simp] theorem State.setCtx_energyMsgs (s : State) (c x : Nat) (t : Ctx) : (s.setCtx c x t).energyMsgs = s.energyMsgs := rfl
@[simp] theorem State.setCtx_irqs (s : State) (c x : Nat) (t : Ctx) : (s.setCtx c x t).irqs = s.irqs := rfl
@[simp] theorem State.setCtx_peersUp (s : State) (c x : Nat) (t : Ctx) : (s.setCtx c x t).peersUp = s.peersUp := rfl
@[simp] theorem State.setCtx_inbound (s : State) (c x : Nat) (t : Ctx) : (s.setCtx c x t).inbound = s.inbound := rfl
@[simp] theorem State.setCtx_owedWrites (s : State) (c x : Nat) (t : Ctx) : (s.setCtx c x t).owedWrites = s.owedWrites := rfl
@[simp] theorem State.setCtx_ueSent (s : State) (c x : Nat) (t : Ctx) : (s.setCtx c x t).ueSent = s.ueSent := rfl
@[simp] theorem State.setCtx_nvmeMem (s : State) (c x : Nat) (t : Ctx) : (s.setCtx c x t).nvmeMem = s.nvmeMem := rfl
@[simp] theorem State.setCtx_slots (s : State) (c x : Nat) (t : Ctx) : (s.setCtx c x t).slots = s.slots := rfl
@[simp] theorem State.setCtx_temp (s : State) (c x : Nat) (t : Ctx) : (s.setCtx c x t).temp = s.temp := rfl
@[simp] theorem State.setCtx_scopeReqs (s : State) (c x : Nat) (t : Ctx) : (s.setCtx c x t).scopeReqs = s.scopeReqs := rfl
@[simp] theorem State.setCtx_teamMsgs (s : State) (c x : Nat) (t : Ctx) : (s.setCtx c x t).teamMsgs = s.teamMsgs := rfl
@[simp] theorem State.setCtx_kernels (s : State) (c x : Nat) (t : Ctx) : (s.setCtx c x t).kernels = s.kernels := rfl
@[simp] theorem State.setCtx_slabs (s : State) (c x : Nat) (t : Ctx) : (s.setCtx c x t).slabs = s.slabs := rfl
@[simp] theorem State.setCtx_waiters (s : State) (c x : Nat) (t : Ctx) : (s.setCtx c x t).waiters = s.waiters := rfl
@[simp] theorem State.setCtx_badEcc (s : State) (c x : Nat) (t : Ctx) : (s.setCtx c x t).badEcc = s.badEcc := rfl
@[simp] theorem State.setCtx_softEcc (s : State) (c x : Nat) (t : Ctx) : (s.setCtx c x t).softEcc = s.softEcc := rfl
@[simp] theorem State.setCtx_fabric (s : State) (c x : Nat) (t : Ctx) : (s.setCtx c x t).fabric = s.fabric := rfl
@[simp] theorem State.setCtx_stations (s : State) (c x : Nat) (t : Ctx) : (s.setCtx c x t).stations = s.stations := rfl
@[simp] theorem State.setCtx_flits (s : State) (c x : Nat) (t : Ctx) : (s.setCtx c x t).flits = s.flits := rfl
@[simp] theorem State.setCtx_ueq (s : State) (c x : Nat) (t : Ctx) : (s.setCtx c x t).ueq = s.ueq := rfl
@[simp] theorem State.setCtx_ueOps (s : State) (c x : Nat) (t : Ctx) : (s.setCtx c x t).ueOps = s.ueOps := rfl

/-! ## State.updCtx -/

@[simp] theorem State.updCtx_mem (s : State) (c x : Nat) (f : Ctx → Ctx) : (s.updCtx c x f).mem = s.mem := rfl
@[simp] theorem State.updCtx_dies (s : State) (c x : Nat) (f : Ctx → Ctx) : (s.updCtx c x f).dies = s.dies := rfl
@[simp] theorem State.updCtx_clk (s : State) (c x : Nat) (f : Ctx → Ctx) : (s.updCtx c x f).clk = s.clk := rfl
@[simp] theorem State.updCtx_agenda (s : State) (c x : Nat) (f : Ctx → Ctx) : (s.updCtx c x f).agenda = s.agenda := rfl
@[simp] theorem State.updCtx_focus (s : State) (c x : Nat) (f : Ctx → Ctx) : (s.updCtx c x f).focus = s.focus := rfl
@[simp] theorem State.updCtx_freeCtr (s : State) (c x : Nat) (f : Ctx → Ctx) : (s.updCtx c x f).freeCtr = s.freeCtr := rfl
@[simp] theorem State.updCtx_down (s : State) (c x : Nat) (f : Ctx → Ctx) : (s.updCtx c x f).down = s.down := rfl
@[simp] theorem State.updCtx_rctl (s : State) (c x : Nat) (f : Ctx → Ctx) : (s.updCtx c x f).rctl = s.rctl := rfl
@[simp] theorem State.updCtx_rctlNext (s : State) (c x : Nat) (f : Ctx → Ctx) : (s.updCtx c x f).rctlNext = s.rctlNext := rfl
@[simp] theorem State.updCtx_accepted (s : State) (c x : Nat) (f : Ctx → Ctx) : (s.updCtx c x f).accepted = s.accepted := rfl
@[simp] theorem State.updCtx_hostMem (s : State) (c x : Nat) (f : Ctx → Ctx) : (s.updCtx c x f).hostMem = s.hostMem := rfl
@[simp] theorem State.updCtx_nextId (s : State) (c x : Nat) (f : Ctx → Ctx) : (s.updCtx c x f).nextId = s.nextId := rfl
@[simp] theorem State.updCtx_launchQ (s : State) (c x : Nat) (f : Ctx → Ctx) : (s.updCtx c x f).launchQ = s.launchQ := rfl
@[simp] theorem State.updCtx_launches (s : State) (c x : Nat) (f : Ctx → Ctx) : (s.updCtx c x f).launches = s.launches := rfl
@[simp] theorem State.updCtx_vis (s : State) (c x : Nat) (f : Ctx → Ctx) : (s.updCtx c x f).vis = s.vis := rfl
@[simp] theorem State.updCtx_images (s : State) (c x : Nat) (f : Ctx → Ctx) : (s.updCtx c x f).images = s.images := rfl
@[simp] theorem State.updCtx_pipes (s : State) (c x : Nat) (f : Ctx → Ctx) : (s.updCtx c x f).pipes = s.pipes := rfl
@[simp] theorem State.updCtx_walks (s : State) (c x : Nat) (f : Ctx → Ctx) : (s.updCtx c x f).walks = s.walks := rfl
@[simp] theorem State.updCtx_compass (s : State) (c x : Nat) (f : Ctx → Ctx) : (s.updCtx c x f).compass = s.compass := rfl
@[simp] theorem State.updCtx_compassQ (s : State) (c x : Nat) (f : Ctx → Ctx) : (s.updCtx c x f).compassQ = s.compassQ := rfl
@[simp] theorem State.updCtx_ladders (s : State) (c x : Nat) (f : Ctx → Ctx) : (s.updCtx c x f).ladders = s.ladders := rfl
@[simp] theorem State.updCtx_groups (s : State) (c x : Nat) (f : Ctx → Ctx) : (s.updCtx c x f).groups = s.groups := rfl
@[simp] theorem State.updCtx_packets (s : State) (c x : Nat) (f : Ctx → Ctx) : (s.updCtx c x f).packets = s.packets := rfl
@[simp] theorem State.updCtx_contribs (s : State) (c x : Nat) (f : Ctx → Ctx) : (s.updCtx c x f).contribs = s.contribs := rfl
@[simp] theorem State.updCtx_redUnits (s : State) (c x : Nat) (f : Ctx → Ctx) : (s.updCtx c x f).redUnits = s.redUnits := rfl
@[simp] theorem State.updCtx_barNow (s : State) (c x : Nat) (f : Ctx → Ctx) : (s.updCtx c x f).barNow = s.barNow := rfl
@[simp] theorem State.updCtx_larder (s : State) (c x : Nat) (f : Ctx → Ctx) : (s.updCtx c x f).larder = s.larder := rfl
@[simp] theorem State.updCtx_nodesUsed (s : State) (c x : Nat) (f : Ctx → Ctx) : (s.updCtx c x f).nodesUsed = s.nodesUsed := rfl
@[simp] theorem State.updCtx_proposals (s : State) (c x : Nat) (f : Ctx → Ctx) : (s.updCtx c x f).proposals = s.proposals := rfl
@[simp] theorem State.updCtx_scopeDecs (s : State) (c x : Nat) (f : Ctx → Ctx) : (s.updCtx c x f).scopeDecs = s.scopeDecs := rfl
@[simp] theorem State.updCtx_energyMsgs (s : State) (c x : Nat) (f : Ctx → Ctx) : (s.updCtx c x f).energyMsgs = s.energyMsgs := rfl
@[simp] theorem State.updCtx_irqs (s : State) (c x : Nat) (f : Ctx → Ctx) : (s.updCtx c x f).irqs = s.irqs := rfl
@[simp] theorem State.updCtx_peersUp (s : State) (c x : Nat) (f : Ctx → Ctx) : (s.updCtx c x f).peersUp = s.peersUp := rfl
@[simp] theorem State.updCtx_inbound (s : State) (c x : Nat) (f : Ctx → Ctx) : (s.updCtx c x f).inbound = s.inbound := rfl
@[simp] theorem State.updCtx_owedWrites (s : State) (c x : Nat) (f : Ctx → Ctx) : (s.updCtx c x f).owedWrites = s.owedWrites := rfl
@[simp] theorem State.updCtx_ueSent (s : State) (c x : Nat) (f : Ctx → Ctx) : (s.updCtx c x f).ueSent = s.ueSent := rfl
@[simp] theorem State.updCtx_nvmeMem (s : State) (c x : Nat) (f : Ctx → Ctx) : (s.updCtx c x f).nvmeMem = s.nvmeMem := rfl
@[simp] theorem State.updCtx_slots (s : State) (c x : Nat) (f : Ctx → Ctx) : (s.updCtx c x f).slots = s.slots := rfl
@[simp] theorem State.updCtx_temp (s : State) (c x : Nat) (f : Ctx → Ctx) : (s.updCtx c x f).temp = s.temp := rfl
@[simp] theorem State.updCtx_scopeReqs (s : State) (c x : Nat) (f : Ctx → Ctx) : (s.updCtx c x f).scopeReqs = s.scopeReqs := rfl
@[simp] theorem State.updCtx_teamMsgs (s : State) (c x : Nat) (f : Ctx → Ctx) : (s.updCtx c x f).teamMsgs = s.teamMsgs := rfl
@[simp] theorem State.updCtx_kernels (s : State) (c x : Nat) (f : Ctx → Ctx) : (s.updCtx c x f).kernels = s.kernels := rfl
@[simp] theorem State.updCtx_slabs (s : State) (c x : Nat) (f : Ctx → Ctx) : (s.updCtx c x f).slabs = s.slabs := rfl
@[simp] theorem State.updCtx_waiters (s : State) (c x : Nat) (f : Ctx → Ctx) : (s.updCtx c x f).waiters = s.waiters := rfl
@[simp] theorem State.updCtx_badEcc (s : State) (c x : Nat) (f : Ctx → Ctx) : (s.updCtx c x f).badEcc = s.badEcc := rfl
@[simp] theorem State.updCtx_softEcc (s : State) (c x : Nat) (f : Ctx → Ctx) : (s.updCtx c x f).softEcc = s.softEcc := rfl
@[simp] theorem State.updCtx_fabric (s : State) (c x : Nat) (f : Ctx → Ctx) : (s.updCtx c x f).fabric = s.fabric := rfl
@[simp] theorem State.updCtx_stations (s : State) (c x : Nat) (f : Ctx → Ctx) : (s.updCtx c x f).stations = s.stations := rfl
@[simp] theorem State.updCtx_flits (s : State) (c x : Nat) (f : Ctx → Ctx) : (s.updCtx c x f).flits = s.flits := rfl
@[simp] theorem State.updCtx_ueq (s : State) (c x : Nat) (f : Ctx → Ctx) : (s.updCtx c x f).ueq = s.ueq := rfl
@[simp] theorem State.updCtx_ueOps (s : State) (c x : Nat) (f : Ctx → Ctx) : (s.updCtx c x f).ueOps = s.ueOps := rfl

/-! ## State.setDie -/

@[simp] theorem State.setDie_mem (s : State) (d : Nat) (k : Die) : (s.setDie d k).mem = s.mem := rfl
@[simp] theorem State.setDie_cores (s : State) (d : Nat) (k : Die) : (s.setDie d k).cores = s.cores := rfl
@[simp] theorem State.setDie_clk (s : State) (d : Nat) (k : Die) : (s.setDie d k).clk = s.clk := rfl
@[simp] theorem State.setDie_agenda (s : State) (d : Nat) (k : Die) : (s.setDie d k).agenda = s.agenda := rfl
@[simp] theorem State.setDie_focus (s : State) (d : Nat) (k : Die) : (s.setDie d k).focus = s.focus := rfl
@[simp] theorem State.setDie_freeCtr (s : State) (d : Nat) (k : Die) : (s.setDie d k).freeCtr = s.freeCtr := rfl
@[simp] theorem State.setDie_down (s : State) (d : Nat) (k : Die) : (s.setDie d k).down = s.down := rfl
@[simp] theorem State.setDie_rctl (s : State) (d : Nat) (k : Die) : (s.setDie d k).rctl = s.rctl := rfl
@[simp] theorem State.setDie_rctlNext (s : State) (d : Nat) (k : Die) : (s.setDie d k).rctlNext = s.rctlNext := rfl
@[simp] theorem State.setDie_accepted (s : State) (d : Nat) (k : Die) : (s.setDie d k).accepted = s.accepted := rfl
@[simp] theorem State.setDie_hostMem (s : State) (d : Nat) (k : Die) : (s.setDie d k).hostMem = s.hostMem := rfl
@[simp] theorem State.setDie_nextId (s : State) (d : Nat) (k : Die) : (s.setDie d k).nextId = s.nextId := rfl
@[simp] theorem State.setDie_launchQ (s : State) (d : Nat) (k : Die) : (s.setDie d k).launchQ = s.launchQ := rfl
@[simp] theorem State.setDie_launches (s : State) (d : Nat) (k : Die) : (s.setDie d k).launches = s.launches := rfl
@[simp] theorem State.setDie_vis (s : State) (d : Nat) (k : Die) : (s.setDie d k).vis = s.vis := rfl
@[simp] theorem State.setDie_images (s : State) (d : Nat) (k : Die) : (s.setDie d k).images = s.images := rfl
@[simp] theorem State.setDie_pipes (s : State) (d : Nat) (k : Die) : (s.setDie d k).pipes = s.pipes := rfl
@[simp] theorem State.setDie_walks (s : State) (d : Nat) (k : Die) : (s.setDie d k).walks = s.walks := rfl
@[simp] theorem State.setDie_compass (s : State) (d : Nat) (k : Die) : (s.setDie d k).compass = s.compass := rfl
@[simp] theorem State.setDie_compassQ (s : State) (d : Nat) (k : Die) : (s.setDie d k).compassQ = s.compassQ := rfl
@[simp] theorem State.setDie_ladders (s : State) (d : Nat) (k : Die) : (s.setDie d k).ladders = s.ladders := rfl
@[simp] theorem State.setDie_groups (s : State) (d : Nat) (k : Die) : (s.setDie d k).groups = s.groups := rfl
@[simp] theorem State.setDie_packets (s : State) (d : Nat) (k : Die) : (s.setDie d k).packets = s.packets := rfl
@[simp] theorem State.setDie_contribs (s : State) (d : Nat) (k : Die) : (s.setDie d k).contribs = s.contribs := rfl
@[simp] theorem State.setDie_redUnits (s : State) (d : Nat) (k : Die) : (s.setDie d k).redUnits = s.redUnits := rfl
@[simp] theorem State.setDie_barNow (s : State) (d : Nat) (k : Die) : (s.setDie d k).barNow = s.barNow := rfl
@[simp] theorem State.setDie_larder (s : State) (d : Nat) (k : Die) : (s.setDie d k).larder = s.larder := rfl
@[simp] theorem State.setDie_nodesUsed (s : State) (d : Nat) (k : Die) : (s.setDie d k).nodesUsed = s.nodesUsed := rfl
@[simp] theorem State.setDie_proposals (s : State) (d : Nat) (k : Die) : (s.setDie d k).proposals = s.proposals := rfl
@[simp] theorem State.setDie_scopeDecs (s : State) (d : Nat) (k : Die) : (s.setDie d k).scopeDecs = s.scopeDecs := rfl
@[simp] theorem State.setDie_energyMsgs (s : State) (d : Nat) (k : Die) : (s.setDie d k).energyMsgs = s.energyMsgs := rfl
@[simp] theorem State.setDie_irqs (s : State) (d : Nat) (k : Die) : (s.setDie d k).irqs = s.irqs := rfl
@[simp] theorem State.setDie_peersUp (s : State) (d : Nat) (k : Die) : (s.setDie d k).peersUp = s.peersUp := rfl
@[simp] theorem State.setDie_inbound (s : State) (d : Nat) (k : Die) : (s.setDie d k).inbound = s.inbound := rfl
@[simp] theorem State.setDie_owedWrites (s : State) (d : Nat) (k : Die) : (s.setDie d k).owedWrites = s.owedWrites := rfl
@[simp] theorem State.setDie_ueSent (s : State) (d : Nat) (k : Die) : (s.setDie d k).ueSent = s.ueSent := rfl
@[simp] theorem State.setDie_nvmeMem (s : State) (d : Nat) (k : Die) : (s.setDie d k).nvmeMem = s.nvmeMem := rfl
@[simp] theorem State.setDie_slots (s : State) (d : Nat) (k : Die) : (s.setDie d k).slots = s.slots := rfl
@[simp] theorem State.setDie_temp (s : State) (d : Nat) (k : Die) : (s.setDie d k).temp = s.temp := rfl
@[simp] theorem State.setDie_scopeReqs (s : State) (d : Nat) (k : Die) : (s.setDie d k).scopeReqs = s.scopeReqs := rfl
@[simp] theorem State.setDie_teamMsgs (s : State) (d : Nat) (k : Die) : (s.setDie d k).teamMsgs = s.teamMsgs := rfl
@[simp] theorem State.setDie_kernels (s : State) (d : Nat) (k : Die) : (s.setDie d k).kernels = s.kernels := rfl
@[simp] theorem State.setDie_slabs (s : State) (d : Nat) (k : Die) : (s.setDie d k).slabs = s.slabs := rfl
@[simp] theorem State.setDie_waiters (s : State) (d : Nat) (k : Die) : (s.setDie d k).waiters = s.waiters := rfl
@[simp] theorem State.setDie_badEcc (s : State) (d : Nat) (k : Die) : (s.setDie d k).badEcc = s.badEcc := rfl
@[simp] theorem State.setDie_softEcc (s : State) (d : Nat) (k : Die) : (s.setDie d k).softEcc = s.softEcc := rfl
@[simp] theorem State.setDie_fabric (s : State) (d : Nat) (k : Die) : (s.setDie d k).fabric = s.fabric := rfl
@[simp] theorem State.setDie_stations (s : State) (d : Nat) (k : Die) : (s.setDie d k).stations = s.stations := rfl
@[simp] theorem State.setDie_flits (s : State) (d : Nat) (k : Die) : (s.setDie d k).flits = s.flits := rfl
@[simp] theorem State.setDie_ueq (s : State) (d : Nat) (k : Die) : (s.setDie d k).ueq = s.ueq := rfl
@[simp] theorem State.setDie_ueOps (s : State) (d : Nat) (k : Die) : (s.setDie d k).ueOps = s.ueOps := rfl

/-! ## State.updDie -/

@[simp] theorem State.updDie_mem (s : State) (d : Nat) (f : Die → Die) : (s.updDie d f).mem = s.mem := rfl
@[simp] theorem State.updDie_cores (s : State) (d : Nat) (f : Die → Die) : (s.updDie d f).cores = s.cores := rfl
@[simp] theorem State.updDie_clk (s : State) (d : Nat) (f : Die → Die) : (s.updDie d f).clk = s.clk := rfl
@[simp] theorem State.updDie_agenda (s : State) (d : Nat) (f : Die → Die) : (s.updDie d f).agenda = s.agenda := rfl
@[simp] theorem State.updDie_focus (s : State) (d : Nat) (f : Die → Die) : (s.updDie d f).focus = s.focus := rfl
@[simp] theorem State.updDie_freeCtr (s : State) (d : Nat) (f : Die → Die) : (s.updDie d f).freeCtr = s.freeCtr := rfl
@[simp] theorem State.updDie_down (s : State) (d : Nat) (f : Die → Die) : (s.updDie d f).down = s.down := rfl
@[simp] theorem State.updDie_rctl (s : State) (d : Nat) (f : Die → Die) : (s.updDie d f).rctl = s.rctl := rfl
@[simp] theorem State.updDie_rctlNext (s : State) (d : Nat) (f : Die → Die) : (s.updDie d f).rctlNext = s.rctlNext := rfl
@[simp] theorem State.updDie_accepted (s : State) (d : Nat) (f : Die → Die) : (s.updDie d f).accepted = s.accepted := rfl
@[simp] theorem State.updDie_hostMem (s : State) (d : Nat) (f : Die → Die) : (s.updDie d f).hostMem = s.hostMem := rfl
@[simp] theorem State.updDie_nextId (s : State) (d : Nat) (f : Die → Die) : (s.updDie d f).nextId = s.nextId := rfl
@[simp] theorem State.updDie_launchQ (s : State) (d : Nat) (f : Die → Die) : (s.updDie d f).launchQ = s.launchQ := rfl
@[simp] theorem State.updDie_launches (s : State) (d : Nat) (f : Die → Die) : (s.updDie d f).launches = s.launches := rfl
@[simp] theorem State.updDie_vis (s : State) (d : Nat) (f : Die → Die) : (s.updDie d f).vis = s.vis := rfl
@[simp] theorem State.updDie_images (s : State) (d : Nat) (f : Die → Die) : (s.updDie d f).images = s.images := rfl
@[simp] theorem State.updDie_pipes (s : State) (d : Nat) (f : Die → Die) : (s.updDie d f).pipes = s.pipes := rfl
@[simp] theorem State.updDie_walks (s : State) (d : Nat) (f : Die → Die) : (s.updDie d f).walks = s.walks := rfl
@[simp] theorem State.updDie_compass (s : State) (d : Nat) (f : Die → Die) : (s.updDie d f).compass = s.compass := rfl
@[simp] theorem State.updDie_compassQ (s : State) (d : Nat) (f : Die → Die) : (s.updDie d f).compassQ = s.compassQ := rfl
@[simp] theorem State.updDie_ladders (s : State) (d : Nat) (f : Die → Die) : (s.updDie d f).ladders = s.ladders := rfl
@[simp] theorem State.updDie_groups (s : State) (d : Nat) (f : Die → Die) : (s.updDie d f).groups = s.groups := rfl
@[simp] theorem State.updDie_packets (s : State) (d : Nat) (f : Die → Die) : (s.updDie d f).packets = s.packets := rfl
@[simp] theorem State.updDie_contribs (s : State) (d : Nat) (f : Die → Die) : (s.updDie d f).contribs = s.contribs := rfl
@[simp] theorem State.updDie_redUnits (s : State) (d : Nat) (f : Die → Die) : (s.updDie d f).redUnits = s.redUnits := rfl
@[simp] theorem State.updDie_barNow (s : State) (d : Nat) (f : Die → Die) : (s.updDie d f).barNow = s.barNow := rfl
@[simp] theorem State.updDie_larder (s : State) (d : Nat) (f : Die → Die) : (s.updDie d f).larder = s.larder := rfl
@[simp] theorem State.updDie_nodesUsed (s : State) (d : Nat) (f : Die → Die) : (s.updDie d f).nodesUsed = s.nodesUsed := rfl
@[simp] theorem State.updDie_proposals (s : State) (d : Nat) (f : Die → Die) : (s.updDie d f).proposals = s.proposals := rfl
@[simp] theorem State.updDie_scopeDecs (s : State) (d : Nat) (f : Die → Die) : (s.updDie d f).scopeDecs = s.scopeDecs := rfl
@[simp] theorem State.updDie_energyMsgs (s : State) (d : Nat) (f : Die → Die) : (s.updDie d f).energyMsgs = s.energyMsgs := rfl
@[simp] theorem State.updDie_irqs (s : State) (d : Nat) (f : Die → Die) : (s.updDie d f).irqs = s.irqs := rfl
@[simp] theorem State.updDie_peersUp (s : State) (d : Nat) (f : Die → Die) : (s.updDie d f).peersUp = s.peersUp := rfl
@[simp] theorem State.updDie_inbound (s : State) (d : Nat) (f : Die → Die) : (s.updDie d f).inbound = s.inbound := rfl
@[simp] theorem State.updDie_owedWrites (s : State) (d : Nat) (f : Die → Die) : (s.updDie d f).owedWrites = s.owedWrites := rfl
@[simp] theorem State.updDie_ueSent (s : State) (d : Nat) (f : Die → Die) : (s.updDie d f).ueSent = s.ueSent := rfl
@[simp] theorem State.updDie_nvmeMem (s : State) (d : Nat) (f : Die → Die) : (s.updDie d f).nvmeMem = s.nvmeMem := rfl
@[simp] theorem State.updDie_slots (s : State) (d : Nat) (f : Die → Die) : (s.updDie d f).slots = s.slots := rfl
@[simp] theorem State.updDie_temp (s : State) (d : Nat) (f : Die → Die) : (s.updDie d f).temp = s.temp := rfl
@[simp] theorem State.updDie_scopeReqs (s : State) (d : Nat) (f : Die → Die) : (s.updDie d f).scopeReqs = s.scopeReqs := rfl
@[simp] theorem State.updDie_teamMsgs (s : State) (d : Nat) (f : Die → Die) : (s.updDie d f).teamMsgs = s.teamMsgs := rfl
@[simp] theorem State.updDie_kernels (s : State) (d : Nat) (f : Die → Die) : (s.updDie d f).kernels = s.kernels := rfl
@[simp] theorem State.updDie_slabs (s : State) (d : Nat) (f : Die → Die) : (s.updDie d f).slabs = s.slabs := rfl
@[simp] theorem State.updDie_waiters (s : State) (d : Nat) (f : Die → Die) : (s.updDie d f).waiters = s.waiters := rfl
@[simp] theorem State.updDie_badEcc (s : State) (d : Nat) (f : Die → Die) : (s.updDie d f).badEcc = s.badEcc := rfl
@[simp] theorem State.updDie_softEcc (s : State) (d : Nat) (f : Die → Die) : (s.updDie d f).softEcc = s.softEcc := rfl
@[simp] theorem State.updDie_fabric (s : State) (d : Nat) (f : Die → Die) : (s.updDie d f).fabric = s.fabric := rfl
@[simp] theorem State.updDie_stations (s : State) (d : Nat) (f : Die → Die) : (s.updDie d f).stations = s.stations := rfl
@[simp] theorem State.updDie_flits (s : State) (d : Nat) (f : Die → Die) : (s.updDie d f).flits = s.flits := rfl
@[simp] theorem State.updDie_ueq (s : State) (d : Nat) (f : Die → Die) : (s.updDie d f).ueq = s.ueq := rfl
@[simp] theorem State.updDie_ueOps (s : State) (d : Nat) (f : Die → Die) : (s.updDie d f).ueOps = s.ueOps := rfl

/-! ## State.updVI -/

@[simp] theorem State.updVI_mem (s : State) (v : Nat) (f : VI → VI) : (s.updVI v f).mem = s.mem := rfl
@[simp] theorem State.updVI_cores (s : State) (v : Nat) (f : VI → VI) : (s.updVI v f).cores = s.cores := rfl
@[simp] theorem State.updVI_dies (s : State) (v : Nat) (f : VI → VI) : (s.updVI v f).dies = s.dies := rfl
@[simp] theorem State.updVI_clk (s : State) (v : Nat) (f : VI → VI) : (s.updVI v f).clk = s.clk := rfl
@[simp] theorem State.updVI_agenda (s : State) (v : Nat) (f : VI → VI) : (s.updVI v f).agenda = s.agenda := rfl
@[simp] theorem State.updVI_focus (s : State) (v : Nat) (f : VI → VI) : (s.updVI v f).focus = s.focus := rfl
@[simp] theorem State.updVI_freeCtr (s : State) (v : Nat) (f : VI → VI) : (s.updVI v f).freeCtr = s.freeCtr := rfl
@[simp] theorem State.updVI_down (s : State) (v : Nat) (f : VI → VI) : (s.updVI v f).down = s.down := rfl
@[simp] theorem State.updVI_rctl (s : State) (v : Nat) (f : VI → VI) : (s.updVI v f).rctl = s.rctl := rfl
@[simp] theorem State.updVI_rctlNext (s : State) (v : Nat) (f : VI → VI) : (s.updVI v f).rctlNext = s.rctlNext := rfl
@[simp] theorem State.updVI_accepted (s : State) (v : Nat) (f : VI → VI) : (s.updVI v f).accepted = s.accepted := rfl
@[simp] theorem State.updVI_hostMem (s : State) (v : Nat) (f : VI → VI) : (s.updVI v f).hostMem = s.hostMem := rfl
@[simp] theorem State.updVI_nextId (s : State) (v : Nat) (f : VI → VI) : (s.updVI v f).nextId = s.nextId := rfl
@[simp] theorem State.updVI_launchQ (s : State) (v : Nat) (f : VI → VI) : (s.updVI v f).launchQ = s.launchQ := rfl
@[simp] theorem State.updVI_launches (s : State) (v : Nat) (f : VI → VI) : (s.updVI v f).launches = s.launches := rfl
@[simp] theorem State.updVI_images (s : State) (v : Nat) (f : VI → VI) : (s.updVI v f).images = s.images := rfl
@[simp] theorem State.updVI_pipes (s : State) (v : Nat) (f : VI → VI) : (s.updVI v f).pipes = s.pipes := rfl
@[simp] theorem State.updVI_walks (s : State) (v : Nat) (f : VI → VI) : (s.updVI v f).walks = s.walks := rfl
@[simp] theorem State.updVI_compass (s : State) (v : Nat) (f : VI → VI) : (s.updVI v f).compass = s.compass := rfl
@[simp] theorem State.updVI_compassQ (s : State) (v : Nat) (f : VI → VI) : (s.updVI v f).compassQ = s.compassQ := rfl
@[simp] theorem State.updVI_ladders (s : State) (v : Nat) (f : VI → VI) : (s.updVI v f).ladders = s.ladders := rfl
@[simp] theorem State.updVI_groups (s : State) (v : Nat) (f : VI → VI) : (s.updVI v f).groups = s.groups := rfl
@[simp] theorem State.updVI_packets (s : State) (v : Nat) (f : VI → VI) : (s.updVI v f).packets = s.packets := rfl
@[simp] theorem State.updVI_contribs (s : State) (v : Nat) (f : VI → VI) : (s.updVI v f).contribs = s.contribs := rfl
@[simp] theorem State.updVI_redUnits (s : State) (v : Nat) (f : VI → VI) : (s.updVI v f).redUnits = s.redUnits := rfl
@[simp] theorem State.updVI_barNow (s : State) (v : Nat) (f : VI → VI) : (s.updVI v f).barNow = s.barNow := rfl
@[simp] theorem State.updVI_larder (s : State) (v : Nat) (f : VI → VI) : (s.updVI v f).larder = s.larder := rfl
@[simp] theorem State.updVI_nodesUsed (s : State) (v : Nat) (f : VI → VI) : (s.updVI v f).nodesUsed = s.nodesUsed := rfl
@[simp] theorem State.updVI_proposals (s : State) (v : Nat) (f : VI → VI) : (s.updVI v f).proposals = s.proposals := rfl
@[simp] theorem State.updVI_scopeDecs (s : State) (v : Nat) (f : VI → VI) : (s.updVI v f).scopeDecs = s.scopeDecs := rfl
@[simp] theorem State.updVI_energyMsgs (s : State) (v : Nat) (f : VI → VI) : (s.updVI v f).energyMsgs = s.energyMsgs := rfl
@[simp] theorem State.updVI_irqs (s : State) (v : Nat) (f : VI → VI) : (s.updVI v f).irqs = s.irqs := rfl
@[simp] theorem State.updVI_peersUp (s : State) (v : Nat) (f : VI → VI) : (s.updVI v f).peersUp = s.peersUp := rfl
@[simp] theorem State.updVI_inbound (s : State) (v : Nat) (f : VI → VI) : (s.updVI v f).inbound = s.inbound := rfl
@[simp] theorem State.updVI_owedWrites (s : State) (v : Nat) (f : VI → VI) : (s.updVI v f).owedWrites = s.owedWrites := rfl
@[simp] theorem State.updVI_ueSent (s : State) (v : Nat) (f : VI → VI) : (s.updVI v f).ueSent = s.ueSent := rfl
@[simp] theorem State.updVI_nvmeMem (s : State) (v : Nat) (f : VI → VI) : (s.updVI v f).nvmeMem = s.nvmeMem := rfl
@[simp] theorem State.updVI_slots (s : State) (v : Nat) (f : VI → VI) : (s.updVI v f).slots = s.slots := rfl
@[simp] theorem State.updVI_temp (s : State) (v : Nat) (f : VI → VI) : (s.updVI v f).temp = s.temp := rfl
@[simp] theorem State.updVI_scopeReqs (s : State) (v : Nat) (f : VI → VI) : (s.updVI v f).scopeReqs = s.scopeReqs := rfl
@[simp] theorem State.updVI_teamMsgs (s : State) (v : Nat) (f : VI → VI) : (s.updVI v f).teamMsgs = s.teamMsgs := rfl
@[simp] theorem State.updVI_kernels (s : State) (v : Nat) (f : VI → VI) : (s.updVI v f).kernels = s.kernels := rfl
@[simp] theorem State.updVI_slabs (s : State) (v : Nat) (f : VI → VI) : (s.updVI v f).slabs = s.slabs := rfl
@[simp] theorem State.updVI_waiters (s : State) (v : Nat) (f : VI → VI) : (s.updVI v f).waiters = s.waiters := rfl
@[simp] theorem State.updVI_badEcc (s : State) (v : Nat) (f : VI → VI) : (s.updVI v f).badEcc = s.badEcc := rfl
@[simp] theorem State.updVI_softEcc (s : State) (v : Nat) (f : VI → VI) : (s.updVI v f).softEcc = s.softEcc := rfl
@[simp] theorem State.updVI_fabric (s : State) (v : Nat) (f : VI → VI) : (s.updVI v f).fabric = s.fabric := rfl
@[simp] theorem State.updVI_stations (s : State) (v : Nat) (f : VI → VI) : (s.updVI v f).stations = s.stations := rfl
@[simp] theorem State.updVI_flits (s : State) (v : Nat) (f : VI → VI) : (s.updVI v f).flits = s.flits := rfl
@[simp] theorem State.updVI_ueq (s : State) (v : Nat) (f : VI → VI) : (s.updVI v f).ueq = s.ueq := rfl
@[simp] theorem State.updVI_ueOps (s : State) (v : Nat) (f : VI → VI) : (s.updVI v f).ueOps = s.ueOps := rfl

/-! ## State.updLaunch -/

@[simp] theorem State.updLaunch_mem (s : State) (i : Nat) (f : Launch → Launch) : (s.updLaunch i f).mem = s.mem := rfl
@[simp] theorem State.updLaunch_cores (s : State) (i : Nat) (f : Launch → Launch) : (s.updLaunch i f).cores = s.cores := rfl
@[simp] theorem State.updLaunch_dies (s : State) (i : Nat) (f : Launch → Launch) : (s.updLaunch i f).dies = s.dies := rfl
@[simp] theorem State.updLaunch_clk (s : State) (i : Nat) (f : Launch → Launch) : (s.updLaunch i f).clk = s.clk := rfl
@[simp] theorem State.updLaunch_agenda (s : State) (i : Nat) (f : Launch → Launch) : (s.updLaunch i f).agenda = s.agenda := rfl
@[simp] theorem State.updLaunch_focus (s : State) (i : Nat) (f : Launch → Launch) : (s.updLaunch i f).focus = s.focus := rfl
@[simp] theorem State.updLaunch_freeCtr (s : State) (i : Nat) (f : Launch → Launch) : (s.updLaunch i f).freeCtr = s.freeCtr := rfl
@[simp] theorem State.updLaunch_down (s : State) (i : Nat) (f : Launch → Launch) : (s.updLaunch i f).down = s.down := rfl
@[simp] theorem State.updLaunch_rctl (s : State) (i : Nat) (f : Launch → Launch) : (s.updLaunch i f).rctl = s.rctl := rfl
@[simp] theorem State.updLaunch_rctlNext (s : State) (i : Nat) (f : Launch → Launch) : (s.updLaunch i f).rctlNext = s.rctlNext := rfl
@[simp] theorem State.updLaunch_accepted (s : State) (i : Nat) (f : Launch → Launch) : (s.updLaunch i f).accepted = s.accepted := rfl
@[simp] theorem State.updLaunch_hostMem (s : State) (i : Nat) (f : Launch → Launch) : (s.updLaunch i f).hostMem = s.hostMem := rfl
@[simp] theorem State.updLaunch_nextId (s : State) (i : Nat) (f : Launch → Launch) : (s.updLaunch i f).nextId = s.nextId := rfl
@[simp] theorem State.updLaunch_launchQ (s : State) (i : Nat) (f : Launch → Launch) : (s.updLaunch i f).launchQ = s.launchQ := rfl
@[simp] theorem State.updLaunch_vis (s : State) (i : Nat) (f : Launch → Launch) : (s.updLaunch i f).vis = s.vis := rfl
@[simp] theorem State.updLaunch_images (s : State) (i : Nat) (f : Launch → Launch) : (s.updLaunch i f).images = s.images := rfl
@[simp] theorem State.updLaunch_pipes (s : State) (i : Nat) (f : Launch → Launch) : (s.updLaunch i f).pipes = s.pipes := rfl
@[simp] theorem State.updLaunch_walks (s : State) (i : Nat) (f : Launch → Launch) : (s.updLaunch i f).walks = s.walks := rfl
@[simp] theorem State.updLaunch_compass (s : State) (i : Nat) (f : Launch → Launch) : (s.updLaunch i f).compass = s.compass := rfl
@[simp] theorem State.updLaunch_compassQ (s : State) (i : Nat) (f : Launch → Launch) : (s.updLaunch i f).compassQ = s.compassQ := rfl
@[simp] theorem State.updLaunch_ladders (s : State) (i : Nat) (f : Launch → Launch) : (s.updLaunch i f).ladders = s.ladders := rfl
@[simp] theorem State.updLaunch_groups (s : State) (i : Nat) (f : Launch → Launch) : (s.updLaunch i f).groups = s.groups := rfl
@[simp] theorem State.updLaunch_packets (s : State) (i : Nat) (f : Launch → Launch) : (s.updLaunch i f).packets = s.packets := rfl
@[simp] theorem State.updLaunch_contribs (s : State) (i : Nat) (f : Launch → Launch) : (s.updLaunch i f).contribs = s.contribs := rfl
@[simp] theorem State.updLaunch_redUnits (s : State) (i : Nat) (f : Launch → Launch) : (s.updLaunch i f).redUnits = s.redUnits := rfl
@[simp] theorem State.updLaunch_barNow (s : State) (i : Nat) (f : Launch → Launch) : (s.updLaunch i f).barNow = s.barNow := rfl
@[simp] theorem State.updLaunch_larder (s : State) (i : Nat) (f : Launch → Launch) : (s.updLaunch i f).larder = s.larder := rfl
@[simp] theorem State.updLaunch_nodesUsed (s : State) (i : Nat) (f : Launch → Launch) : (s.updLaunch i f).nodesUsed = s.nodesUsed := rfl
@[simp] theorem State.updLaunch_proposals (s : State) (i : Nat) (f : Launch → Launch) : (s.updLaunch i f).proposals = s.proposals := rfl
@[simp] theorem State.updLaunch_scopeDecs (s : State) (i : Nat) (f : Launch → Launch) : (s.updLaunch i f).scopeDecs = s.scopeDecs := rfl
@[simp] theorem State.updLaunch_energyMsgs (s : State) (i : Nat) (f : Launch → Launch) : (s.updLaunch i f).energyMsgs = s.energyMsgs := rfl
@[simp] theorem State.updLaunch_irqs (s : State) (i : Nat) (f : Launch → Launch) : (s.updLaunch i f).irqs = s.irqs := rfl
@[simp] theorem State.updLaunch_peersUp (s : State) (i : Nat) (f : Launch → Launch) : (s.updLaunch i f).peersUp = s.peersUp := rfl
@[simp] theorem State.updLaunch_inbound (s : State) (i : Nat) (f : Launch → Launch) : (s.updLaunch i f).inbound = s.inbound := rfl
@[simp] theorem State.updLaunch_owedWrites (s : State) (i : Nat) (f : Launch → Launch) : (s.updLaunch i f).owedWrites = s.owedWrites := rfl
@[simp] theorem State.updLaunch_ueSent (s : State) (i : Nat) (f : Launch → Launch) : (s.updLaunch i f).ueSent = s.ueSent := rfl
@[simp] theorem State.updLaunch_nvmeMem (s : State) (i : Nat) (f : Launch → Launch) : (s.updLaunch i f).nvmeMem = s.nvmeMem := rfl
@[simp] theorem State.updLaunch_slots (s : State) (i : Nat) (f : Launch → Launch) : (s.updLaunch i f).slots = s.slots := rfl
@[simp] theorem State.updLaunch_temp (s : State) (i : Nat) (f : Launch → Launch) : (s.updLaunch i f).temp = s.temp := rfl
@[simp] theorem State.updLaunch_scopeReqs (s : State) (i : Nat) (f : Launch → Launch) : (s.updLaunch i f).scopeReqs = s.scopeReqs := rfl
@[simp] theorem State.updLaunch_teamMsgs (s : State) (i : Nat) (f : Launch → Launch) : (s.updLaunch i f).teamMsgs = s.teamMsgs := rfl
@[simp] theorem State.updLaunch_kernels (s : State) (i : Nat) (f : Launch → Launch) : (s.updLaunch i f).kernels = s.kernels := rfl
@[simp] theorem State.updLaunch_slabs (s : State) (i : Nat) (f : Launch → Launch) : (s.updLaunch i f).slabs = s.slabs := rfl
@[simp] theorem State.updLaunch_waiters (s : State) (i : Nat) (f : Launch → Launch) : (s.updLaunch i f).waiters = s.waiters := rfl
@[simp] theorem State.updLaunch_badEcc (s : State) (i : Nat) (f : Launch → Launch) : (s.updLaunch i f).badEcc = s.badEcc := rfl
@[simp] theorem State.updLaunch_softEcc (s : State) (i : Nat) (f : Launch → Launch) : (s.updLaunch i f).softEcc = s.softEcc := rfl
@[simp] theorem State.updLaunch_fabric (s : State) (i : Nat) (f : Launch → Launch) : (s.updLaunch i f).fabric = s.fabric := rfl
@[simp] theorem State.updLaunch_stations (s : State) (i : Nat) (f : Launch → Launch) : (s.updLaunch i f).stations = s.stations := rfl
@[simp] theorem State.updLaunch_flits (s : State) (i : Nat) (f : Launch → Launch) : (s.updLaunch i f).flits = s.flits := rfl
@[simp] theorem State.updLaunch_ueq (s : State) (i : Nat) (f : Launch → Launch) : (s.updLaunch i f).ueq = s.ueq := rfl
@[simp] theorem State.updLaunch_ueOps (s : State) (i : Nat) (f : Launch → Launch) : (s.updLaunch i f).ueOps = s.ueOps := rfl

/-! ## State.updDog -/

@[simp] theorem State.updDog_mem (s : State) (v q : Nat) (f : Watchdog → Watchdog) : (s.updDog v q f).mem = s.mem := rfl
@[simp] theorem State.updDog_cores (s : State) (v q : Nat) (f : Watchdog → Watchdog) : (s.updDog v q f).cores = s.cores := rfl
@[simp] theorem State.updDog_dies (s : State) (v q : Nat) (f : Watchdog → Watchdog) : (s.updDog v q f).dies = s.dies := rfl
@[simp] theorem State.updDog_clk (s : State) (v q : Nat) (f : Watchdog → Watchdog) : (s.updDog v q f).clk = s.clk := rfl
@[simp] theorem State.updDog_agenda (s : State) (v q : Nat) (f : Watchdog → Watchdog) : (s.updDog v q f).agenda = s.agenda := rfl
@[simp] theorem State.updDog_focus (s : State) (v q : Nat) (f : Watchdog → Watchdog) : (s.updDog v q f).focus = s.focus := rfl
@[simp] theorem State.updDog_freeCtr (s : State) (v q : Nat) (f : Watchdog → Watchdog) : (s.updDog v q f).freeCtr = s.freeCtr := rfl
@[simp] theorem State.updDog_down (s : State) (v q : Nat) (f : Watchdog → Watchdog) : (s.updDog v q f).down = s.down := rfl
@[simp] theorem State.updDog_rctl (s : State) (v q : Nat) (f : Watchdog → Watchdog) : (s.updDog v q f).rctl = s.rctl := rfl
@[simp] theorem State.updDog_rctlNext (s : State) (v q : Nat) (f : Watchdog → Watchdog) : (s.updDog v q f).rctlNext = s.rctlNext := rfl
@[simp] theorem State.updDog_accepted (s : State) (v q : Nat) (f : Watchdog → Watchdog) : (s.updDog v q f).accepted = s.accepted := rfl
@[simp] theorem State.updDog_hostMem (s : State) (v q : Nat) (f : Watchdog → Watchdog) : (s.updDog v q f).hostMem = s.hostMem := rfl
@[simp] theorem State.updDog_nextId (s : State) (v q : Nat) (f : Watchdog → Watchdog) : (s.updDog v q f).nextId = s.nextId := rfl
@[simp] theorem State.updDog_launchQ (s : State) (v q : Nat) (f : Watchdog → Watchdog) : (s.updDog v q f).launchQ = s.launchQ := rfl
@[simp] theorem State.updDog_launches (s : State) (v q : Nat) (f : Watchdog → Watchdog) : (s.updDog v q f).launches = s.launches := rfl
@[simp] theorem State.updDog_images (s : State) (v q : Nat) (f : Watchdog → Watchdog) : (s.updDog v q f).images = s.images := rfl
@[simp] theorem State.updDog_pipes (s : State) (v q : Nat) (f : Watchdog → Watchdog) : (s.updDog v q f).pipes = s.pipes := rfl
@[simp] theorem State.updDog_walks (s : State) (v q : Nat) (f : Watchdog → Watchdog) : (s.updDog v q f).walks = s.walks := rfl
@[simp] theorem State.updDog_compass (s : State) (v q : Nat) (f : Watchdog → Watchdog) : (s.updDog v q f).compass = s.compass := rfl
@[simp] theorem State.updDog_compassQ (s : State) (v q : Nat) (f : Watchdog → Watchdog) : (s.updDog v q f).compassQ = s.compassQ := rfl
@[simp] theorem State.updDog_ladders (s : State) (v q : Nat) (f : Watchdog → Watchdog) : (s.updDog v q f).ladders = s.ladders := rfl
@[simp] theorem State.updDog_groups (s : State) (v q : Nat) (f : Watchdog → Watchdog) : (s.updDog v q f).groups = s.groups := rfl
@[simp] theorem State.updDog_packets (s : State) (v q : Nat) (f : Watchdog → Watchdog) : (s.updDog v q f).packets = s.packets := rfl
@[simp] theorem State.updDog_contribs (s : State) (v q : Nat) (f : Watchdog → Watchdog) : (s.updDog v q f).contribs = s.contribs := rfl
@[simp] theorem State.updDog_redUnits (s : State) (v q : Nat) (f : Watchdog → Watchdog) : (s.updDog v q f).redUnits = s.redUnits := rfl
@[simp] theorem State.updDog_barNow (s : State) (v q : Nat) (f : Watchdog → Watchdog) : (s.updDog v q f).barNow = s.barNow := rfl
@[simp] theorem State.updDog_larder (s : State) (v q : Nat) (f : Watchdog → Watchdog) : (s.updDog v q f).larder = s.larder := rfl
@[simp] theorem State.updDog_nodesUsed (s : State) (v q : Nat) (f : Watchdog → Watchdog) : (s.updDog v q f).nodesUsed = s.nodesUsed := rfl
@[simp] theorem State.updDog_proposals (s : State) (v q : Nat) (f : Watchdog → Watchdog) : (s.updDog v q f).proposals = s.proposals := rfl
@[simp] theorem State.updDog_scopeDecs (s : State) (v q : Nat) (f : Watchdog → Watchdog) : (s.updDog v q f).scopeDecs = s.scopeDecs := rfl
@[simp] theorem State.updDog_energyMsgs (s : State) (v q : Nat) (f : Watchdog → Watchdog) : (s.updDog v q f).energyMsgs = s.energyMsgs := rfl
@[simp] theorem State.updDog_irqs (s : State) (v q : Nat) (f : Watchdog → Watchdog) : (s.updDog v q f).irqs = s.irqs := rfl
@[simp] theorem State.updDog_peersUp (s : State) (v q : Nat) (f : Watchdog → Watchdog) : (s.updDog v q f).peersUp = s.peersUp := rfl
@[simp] theorem State.updDog_inbound (s : State) (v q : Nat) (f : Watchdog → Watchdog) : (s.updDog v q f).inbound = s.inbound := rfl
@[simp] theorem State.updDog_owedWrites (s : State) (v q : Nat) (f : Watchdog → Watchdog) : (s.updDog v q f).owedWrites = s.owedWrites := rfl
@[simp] theorem State.updDog_ueSent (s : State) (v q : Nat) (f : Watchdog → Watchdog) : (s.updDog v q f).ueSent = s.ueSent := rfl
@[simp] theorem State.updDog_nvmeMem (s : State) (v q : Nat) (f : Watchdog → Watchdog) : (s.updDog v q f).nvmeMem = s.nvmeMem := rfl
@[simp] theorem State.updDog_slots (s : State) (v q : Nat) (f : Watchdog → Watchdog) : (s.updDog v q f).slots = s.slots := rfl
@[simp] theorem State.updDog_temp (s : State) (v q : Nat) (f : Watchdog → Watchdog) : (s.updDog v q f).temp = s.temp := rfl
@[simp] theorem State.updDog_scopeReqs (s : State) (v q : Nat) (f : Watchdog → Watchdog) : (s.updDog v q f).scopeReqs = s.scopeReqs := rfl
@[simp] theorem State.updDog_teamMsgs (s : State) (v q : Nat) (f : Watchdog → Watchdog) : (s.updDog v q f).teamMsgs = s.teamMsgs := rfl
@[simp] theorem State.updDog_kernels (s : State) (v q : Nat) (f : Watchdog → Watchdog) : (s.updDog v q f).kernels = s.kernels := rfl
@[simp] theorem State.updDog_slabs (s : State) (v q : Nat) (f : Watchdog → Watchdog) : (s.updDog v q f).slabs = s.slabs := rfl
@[simp] theorem State.updDog_waiters (s : State) (v q : Nat) (f : Watchdog → Watchdog) : (s.updDog v q f).waiters = s.waiters := rfl
@[simp] theorem State.updDog_badEcc (s : State) (v q : Nat) (f : Watchdog → Watchdog) : (s.updDog v q f).badEcc = s.badEcc := rfl
@[simp] theorem State.updDog_softEcc (s : State) (v q : Nat) (f : Watchdog → Watchdog) : (s.updDog v q f).softEcc = s.softEcc := rfl
@[simp] theorem State.updDog_fabric (s : State) (v q : Nat) (f : Watchdog → Watchdog) : (s.updDog v q f).fabric = s.fabric := rfl
@[simp] theorem State.updDog_stations (s : State) (v q : Nat) (f : Watchdog → Watchdog) : (s.updDog v q f).stations = s.stations := rfl
@[simp] theorem State.updDog_flits (s : State) (v q : Nat) (f : Watchdog → Watchdog) : (s.updDog v q f).flits = s.flits := rfl
@[simp] theorem State.updDog_ueq (s : State) (v q : Nat) (f : Watchdog → Watchdog) : (s.updDog v q f).ueq = s.ueq := rfl
@[simp] theorem State.updDog_ueOps (s : State) (v q : Nat) (f : Watchdog → Watchdog) : (s.updDog v q f).ueOps = s.ueOps := rfl

end Sys2Proof.Machine
end

