-- ==== Sys2Proof/Laws/Issue.lean ====
section
/-!
SUPPORT. The issue of a bundle of one move (R19-R23): what the cycle, the examination and the commit come to when the core issues the
context's bundle, nothing is pending and fetch goes straight on.
-/

-- One after another: side by side they take too much memory.
set_option Elab.async false

namespace Sys2Proof.Machine

/-! ## The fetch decision -/

theorem takeTransfer_nil : takeTransfer [] = (none, []) := rfl

theorem applyChanges_nil (v : Vector LoopLevel 4) : applyChanges v [] = (v, []) := rfl

theorem loopEnds_disarmed (x : BIndex) (v : Vector LoopLevel 4) (ls : List Nat) (h : ∀ l ∈ ls, (lvl v l).armed = false) :
    loopEnds x ls v = (none, v) := by
  induction ls with
  | nil => rfl
  | cons l ls ih =>
    have e := h l (by simp)
    simp only [loopEnds, e, Bool.false_and]
    exact ih fun k hk => h k (by simp [hk])

theorem zeroTrip_disarmed (n : Nat) (i : BIndex) (v : Vector LoopLevel 4) (h : ∀ l, l < 4 → (lvl v l).armed = false) :
    zeroTrip n i v = (i, v) := by
  cases n with
  | zero => rfl
  | succ n => simp [zeroTrip, h]

/-- With nothing pending and no level armed, fetch goes to the bundle that follows. -/
theorem decideNext_straight (fin : BIndex) (handler own : Bool) (x : BIndex) (f : FlowSt) (hx : f.xfer = []) (hc : f.changes = [])
    (hl : ∀ l, l < 4 → (lvl f.loops l).armed = false) (hf : x ≠ fin) : decideNext fin handler own x f = (.at (x + 1), f) := by
  obtain ⟨loops, xfer, changes⟩ := f
  simp only at hx hc hl
  subst hx; subst hc
  have h1 : loopEnds x [3, 2, 1, 0] loops = (none, loops) := loopEnds_disarmed _ _ _ fun l hm => hl l (by
    simp at hm; omega)
  have h2 := zeroTrip_disarmed 4 (x + 1) loops hl
  unfold decideNext
  simp only [applyChanges_nil, takeTransfer_nil, h1, h2]
  simp [hf]

/-! ## The examination -/

theorem readAll_one (s : State) (t : Ctx) (p q : PopSt) (m : Move) (v : VWord) (h : s.readSrc t p m.src = (.val v, q)) :
    s.readAll t p [m] = ([(m, .val v)], q) := by
  simp [State.readAll, h]

/-- The pending faults of a calm context. -/
theorem pendingTrap_calm (t : Ctx) (ms : List Move) (b : Bool) (h : Calm t) : pendingTrap t ms b = none := by
  simp [pendingTrap, pendingTrap.copy, pendingTrap.nan, h.store, h.copy, h.nan]

/-- A claim list of one move conflicts with nothing. -/
theorem bundleClash_one (m : Move) : bundleClash [m] [] = none := by
  simp [bundleClash]

theorem imBusy_calm (t : Ctx) (ms : List Move) (h : Calm t) : imBusy t ms = none := by simp [imBusy, h.divide]

theorem outstanding_calm (t : Ctx) (m : Move) (h : Calm t) (hr : ∀ g, m.act = .trig g → g.results t ≤ 8) :
    ¬ 24 < outstanding t [m] := by
  have := h.results
  have hc : (t.snap.countP fun e => 1 < e.left) ≤ t.snap.length := List.countP_le_length
  unfold outstanding
  simp only [List.map_cons, List.map_nil, List.sum_cons, List.sum_nil, Nat.add_zero]
  cases hm : m.act with
  | trig g => have := hr g hm; simp only; omega
  | dst d => simp only; omega
  | push q => simp only; omega

/-- What a move alone needs beside its source, that its bundle may issue: nothing to look up, nothing to wait for, room for what it pushes. -/
structure Passes (env : Env) (s : State) (t : Ctx) (m : Move) (v : VWord) : Prop where
  fits : ∀ g, m.act = .trig g → g.results t ≤ 8
  looked : ∀ g, m.act = .trig g → g.check env s v = none
  noBreak : ∀ g, m.act = .trig g → g.brk = none
  ready : ∀ g, m.act = .trig g → g.wait env s v = .ready
  saq : ∀ g, m.act = .trig g → g.saq = true → t.saq.length < 32
  sd : m.act = .push .sd ∨ m.act = .push .vsd → t.sdq.length < 32
  send : m.act = .push .fsend ∨ m.act = .push .fsendh → t.sendF.length < 128
  address : ∀ q, m.act = .push q → sendTrap env s t.sendOpen q v = none
  stack : ∀ i, m.act = .dst (.g i) → i = t.ctl.spreg → t.ctl.slim.toNat ≤ v.toNat % 2 ^ 64

/-- The examination of a bundle of one move. -/
theorem assess_one (s : State) (c x : Nat) (m : Move) (v : VWord) (q : PopSt) (hc : Calm (s.ctx c x)) (hg : (s.ctx c x).guard m.guard = true)
    (hs : s.readSrc (s.ctx c x) { seed := (s.ctx c x).ctl.seed } m.src = (.val v, q))
    (hp : Passes (envOf c x (s.ctx c x) [(m, v)]) s (s.ctx c x) m v) :
    s.assess c x [m] = .go [(m, v)] q := by
  generalize ht : s.ctx c x = t at *
  have hact : (if t.asNever = true then [] else [m].filter fun m => t.guard m.guard) = [m] := by
    simp [hc.moves, hg]
  unfold State.assess
  suffices h : s.examine c x [m] = .go [(m, v)] q by rw [h]; rfl
  unfold State.examine
  simp only [ht, hact, bundleClash_one, imBusy_calm t _ hc, if_neg (outstanding_calm t m hc hp.fits), readAll_one s t _ q m v hs]
  have hany : (([(m, PopRes.val (v))] : List (Move × PopRes)).any fun r => decide (r.2 = .wait)) = false := by simp
  simp only [hany]
  simp only [Bool.false_eq_true, if_false, List.filterMap_cons, List.filterMap_nil]
  have hslot : slotTrap (envOf c x t [(m, v)]) s t.sendOpen [(m, PopRes.val (v))] = none := by
    unfold slotTrap
    cases hm : m.act with
    | trig g => simp [hp.looked g hm, slotTrap]
    | push q => simp [hp.address q hm, slotTrap]
    | dst d => simp [slotTrap]
  have hroom : roomFor t [m] = true := by
    unfold roomFor
    cases hm : m.act with
    | trig g =>
      by_cases hq : g.saq = true
      · have := hp.saq g hm hq; simp [hm, hq]; omega
      · simp [hm, hq]
    | push q =>
      cases q with
      | sd => have := hp.sd (.inl hm); simp [hm]; omega
      | vsd => have := hp.sd (.inr hm); simp [hm]; omega
      | fsend => have := hp.send (.inl hm); simp [hm]; omega
      | fsendh => have := hp.send (.inr hm); simp [hm]; omega
    | dst d => simp [hm]
  have hwait : (waitsOf (envOf c x t [(m, v)]) s [(m, v)]).all Wait.isReady = true := by
    unfold waitsOf triggersOf
    cases hm : m.act with
    | trig g => simp [hm, hp.ready g hm, Wait.isReady]
    | push q => simp [hm]
    | dst d => simp [hm]
  have hstack : stackTrap t [(m, v)] = none := by
    unfold stackTrap
    simp only [List.findSome?_cons, List.findSome?_nil]
    cases hm : m.act with
    | trig g => simp
    | push q => simp
    | dst d =>
      cases d with
      | g i =>
        simp only
        by_cases hi : i = t.ctl.spreg
        · have := hp.stack i hm hi
          have h2 : ¬ (v).toNat % 2 ^ 64 < t.ctl.slim.toNat := by omega
          simp only [h2, decide_false, Bool.and_false, Bool.false_eq_true, if_false]
        · simp [hi]
      | _ => simp
  have hbrk : breakTrap [(m, v)] = none := by
    unfold breakTrap triggersOf
    cases hm : m.act with
    | trig g => simp [hm, hp.noBreak g hm]
    | push q => simp [hm]
    | dst d => simp [hm]
  simp only [hslot, hroom, hwait, hc.drained, hstack, hbrk, pendingTrap_calm t _ _ hc]
  simp

/-! ## Changes of one context -/

/-- Nothing but context x of core c has changed: it has become f. -/
structure Ch (s t : State) (c x : Nat) (f : Ctx) : Prop where
  core : t.core c = (s.core c).setCtx x f
  cores : ∀ d, d ≠ c → t.core d = s.core d
  rest : t = { s with cores := t.cores }

theorem Core.setCtx_setCtx (k : Core) (x : Nat) (f g : Ctx) (h : x < 5) : (k.setCtx x f).setCtx x g = k.setCtx x g := by
  simp [Core.setCtx, h, vset, Vector.setIfInBounds]

theorem Ch.setCtx (s : State) (c x : Nat) (f : Ctx) : Ch s (s.setCtx c x f) c x f :=
  ⟨by simp [State.setCtx], fun d hd => by rw [State.setCtx, State.updCore_core_other _ _ _ _ hd], rfl⟩

theorem Ch.updCtx (s : State) (c x : Nat) (f : Ctx → Ctx) : Ch s (s.updCtx c x f) c x (f (s.ctx c x)) := Ch.setCtx s c x _

theorem Ch.ctx {s t : State} {c x : Nat} {f : Ctx} (h : Ch s t c x f) (hx : x < 5) : t.ctx c x = f := by
  unfold State.ctx
  rw [h.core, Core.setCtx_ctx _ _ _ hx]

theorem Ch.trans {s t u : State} {c x : Nat} {f g : Ctx} (h : Ch s t c x f) (k : Ch t u c x g) (hx : x < 5) : Ch s u c x g := by
  refine ⟨?_, fun d hd => (k.cores d hd).trans (h.cores d hd), ?_⟩
  · rw [k.core, h.core, Core.setCtx_setCtx _ _ _ _ hx]
  · rw [k.rest, h.rest]

/-- The pops of a bundle that pops nothing. -/
theorem takePops_none (s : State) (c x : Nat) (t : Ctx) (ht : s.ctx c x = t) : Ch s (s.takePops c x { seed := t.ctl.seed }) c x t := by
  have hp (z : Nat) : (s.pipes.map fun q => { q with queues := q.queues.zipIdx.map fun k =>
      let n := PopSt.taken { seed := t.ctl.seed } (q.id, k.2)
      ({ k.1 with entries := k.1.entries.drop n, gone := k.1.gone ++ List.replicate n z } : ChanQueue) }) = s.pipes := by
    have : (fun q : Pipeline => { q with queues := q.queues.zipIdx.map fun k =>
        let n := PopSt.taken { seed := t.ctl.seed } (q.id, k.2)
        ({ k.1 with entries := k.1.entries.drop n, gone := k.1.gone ++ List.replicate n z } : ChanQueue) }) = id := by
      funext q
      have hq : (q.queues.zipIdx.map fun k =>
          let n := PopSt.taken { seed := t.ctl.seed } (q.id, k.2)
          ({ k.1 with entries := k.1.entries.drop n, gone := k.1.gone ++ List.replicate n z } : ChanQueue)) = q.queues := by
        have h2 : (fun k : ChanQueue × Nat =>
            let n := PopSt.taken { seed := t.ctl.seed } (q.id, k.2)
            ({ k.1 with entries := k.1.entries.drop n, gone := k.1.gone ++ List.replicate n z } : ChanQueue)) = Prod.fst := by
          funext k
          simp [PopSt.taken]
        rw [h2, List.zipIdx_map_fst]
      simp only [hq, id]
    rw [this, List.map_id]
  have hc : Ch s (s.updCtx c x fun t' => { t' with ldq := t'.ldq.drop 0, recvF := t'.recvF.drop 0, ctl := { t'.ctl with seed := t.ctl.seed } })
      c x t := by
    have := Ch.updCtx s c x fun t' => { t' with ldq := t'.ldq.drop 0, recvF := t'.recvF.drop 0, ctl := { t'.ctl with seed := t.ctl.seed } }
    rw [ht] at this
    exact this
  unfold State.takePops
  simp only [State.updCtx_pipes, List.isEmpty_nil, if_true]
  refine ⟨hc.core, hc.cores, ?_⟩
  rw [hp]
  rfl

/-! ## The commit -/

/-- What the charge of a launch leaves alone. -/
theorem chargeLaunch_rest (s : State) (c l n : Nat) :
    s.chargeLaunch c l n = { s with launches := (s.chargeLaunch c l n).launches, energyMsgs := (s.chargeLaunch c l n).energyMsgs } := by
  unfold State.chargeLaunch
  split
  · rfl
  · simp only
    split
    · rfl
    · split <;> rfl

theorem chargeLaunch_launches (s : State) (c l n : Nat) :
    (s.chargeLaunch c l n).launches.map (fun l => { l with charge := 0 }) = s.launches.map (fun l => { l with charge := 0 })
      ∧ s.energyMsgs <+: (s.chargeLaunch c l n).energyMsgs := by
  unfold State.chargeLaunch
  split
  · exact ⟨rfl, List.prefix_rfl⟩
  · simp only
    split
    · exact ⟨rfl, List.prefix_rfl⟩
    · split
      · refine ⟨?_, List.prefix_rfl⟩
        unfold State.updLaunch
        rw [List.map_map]
        refine List.map_congr_left fun k _ => ?_
        simp only [Function.comp]
        split <;> rfl
      · exact ⟨rfl, List.prefix_append _ _⟩

/-- The decision after a bundle with nothing pending before it, whatever it registers for later ones. -/
theorem ahead_straight (s : State) (c : Nat) (t0 : Ctx) (h : Option Held) (own : Bool) (more : FlowSt → FlowSt) (hs : Straight t0) :
    s.ahead c { t0 with handler := h } own t0.flow more = { next := .at (t0.pc + 1), flow := more t0.flow, nul := false } := by
  have hd : ({ t0 with handler := h } : Ctx).decide own t0.pc t0.flow = (.at (t0.pc + 1), t0.flow) :=
    decideNext_straight _ _ own t0.pc t0.flow hs.noTransfer hs.noChange hs.noLoop hs.notLast
  unfold State.ahead
  simp only [hd, hs.noNull, if_true]

/-- Where fetch goes after a bundle with nothing pending before it. -/
theorem moveOn_straight (s : State) (c x : Nat) (t0 : Ctx) (hs : Straight t0) (hl : (s.ctx c x).loops = t0.loops) :
    s.moveOn c x t0 = s.setCtx c x { s.ctx c x with pc := t0.pc + 1, nul := false } := by
  unfold State.moveOn
  simp only [ahead_straight s c t0 _ _ _ hs]
  congr 1
  simp only [Ctx.setFlow, Ctx.flow, hs.noTransfer, hs.noChange, List.nil_append, List.length_nil, List.drop_zero, ← hl]

/-- A move's registers lie in the allotment, and it is not the row that only the system context may run (R9, R258). -/
def Allowed (t : Ctx) (m : Move) : Prop := (∀ i, m.act = .dst (.g i) → i.toNat < t.nregs) ∧ m.isMwr = false

theorem check_allowed (t : Ctx) (m : Move) (sys : Bool) (hs : ∀ i, m.src = .g i → i.toNat < t.nregs) (ha : Allowed t m) :
    m.check t.nregs sys = none := by
  have h1 : (srcG m.src).bind (fun i => if t.nregs ≤ i then some i else none) = none := by
    cases hm : m.src with
    | g i => have := hs i hm; simp [srcG]; omega
    | _ => simp [srcG]
  have h2 : m.regBound t.nregs = none := by
    unfold Move.regBound
    simp only [h1]
    cases hm : m.act with
    | trig g => rfl
    | push q => rfl
    | dst d =>
      cases d with
      | g i => have := ha.1 i hm; simp [dstG]; omega
      | _ => simp [dstG]
  simp [Move.check, h2, ha.2]

theorem State.atBundle_ctx (s : State) (x : Nat) (hx : x < 5) : (s.atBundle x).ctx s.focus.c x = s.begun x := s.updCtx_ctx _ _ _ hx

/-- What a source gives does not depend on where the cycle has come to. -/
theorem readSrc_atBundle (s : State) (x : Nat) (t : Ctx) (p : PopSt) (src : Src) : (s.atBundle x).readSrc t p src = s.readSrc t p src := rfl

theorem deliverDue_frame (t : Ctx) : t.deliverDue = { t with port := t.deliverDue.port, snap := t.deliverDue.snap, ctl := t.deliverDue.ctl } := rfl

theorem begun_worker (s : State) (x : Nat) : (s.begun x).worker = (s.ctx s.focus.c x).worker := rfl

theorem begun_runnable (s : State) (x : Nat) : (s.begun x).runnable = (s.ctx s.focus.c x).runnable := rfl

/-- The cycle of a core that issues the bundle of its running context. -/
theorem cycle_issuing (s : State) (x : Nat) (w : Worker) (bundle : State → Nat → Except Trap (List Move)) (hi : Issuing s x w)
    (ms : List Move) (hb : bundle (s.atBundle x) x = .ok ms) :
    s.cycle s.focus.c bundle = (s.atBundle x).issueMoves s.focus.c x ms := by
  have hx4 : x ≠ 4 := by have := hi.inCore; omega
  have hx5 : x < 5 := by have := hi.inCore; omega
  have hu : (s.core s.focus.c).fenced = false := hi.unfenced
  have hst : (s.core s.focus.c).stall = 0 := hi.noStall
  have hr : (s.core s.focus.c).running = some x := hi.runs
  have hctx := s.atBundle_ctx x hx5
  have hw : (s.begun x).worker = some w := hi.holds
  have hrun : (s.begun x).runnable = true := hi.runnable
  have hsd : (s.begun x).stepDue = false := hi.noStep
  have hk : (s.begun x).killReq = none := hi.noKill
  have ha : (s.begun x).asNever = false := hi.acts
  have hl : ((s.core s.focus.c).lastWorker != some w.uid && (s.core s.focus.c).paid != some w.uid) = false := by
    rcases hi.same with h | h
    · have : (s.core s.focus.c).lastWorker = some w.uid := h
      simp [this]
    · have : (s.core s.focus.c).paid = some w.uid := h
      simp [this]
  unfold State.cycle
  simp only [hu, hst, hr, Bool.false_eq_true, if_false, Nat.lt_irrefl]
  have he : s.beginBundle s.focus.c x = s.atBundle x := rfl
  simp only [he, hctx, hw, hsd, hk, hrun, hi.running.1, hi.running.2, hl, hb, ha]
  simp

/-- The issue of the bundle that holds one move alone. -/
theorem issueSolo_go (s : State) (x : Nat) (w : Worker) (m : Move) (v : VWord) (p : PopSt) (hf : Fires s x w m.guard m.src v p)
    (ha : Allowed (s.begun x) m) (hp : Passes (envOf s.focus.c x (s.begun x) [(m, v)]) (s.atBundle x) (s.begun x) m v) :
    s.issueSolo m = .next ((s.atBundle x).commit s.focus.c x [(m, v)] p) := by
  obtain ⟨hi, hc, -, hg, hs⟩ := hf
  have hx5 : x < 5 := by have := hi.inCore; omega
  have hctx := s.atBundle_ctx x hx5
  have hr : (s.atBundle x).readSrc ((s.atBundle x).ctx s.focus.c x) { seed := ((s.atBundle x).ctx s.focus.c x).ctl.seed } m.src
      = (.val v, p) := by
    rw [hctx, readSrc_atBundle]; exact hs.reads
  unfold State.issueSolo
  rw [cycle_issuing s x w _ hi [m]]
  · unfold State.issueMoves
    rw [assess_one (s.atBundle x) s.focus.c x m v p (by rw [hctx]; exact hc) (by rw [hctx]; exact hg) hr (by rw [hctx]; exact hp), hctx]
    have hlim : ((s.atBundle x).core s.focus.c).limits
        (weightOf (envOf s.focus.c x (s.begun x) [(m, v)]) (s.atBundle x) [(m, v)]) = false := by
      have : ((s.atBundle x).core s.focus.c).clim.1 = false := by
        have h := hi.noLimit
        have he : ((s.atBundle x).core s.focus.c).clim = (s.core s.focus.c).clim := by
          simp only [State.atBundle, State.beginBundle, State.updCtx, State.setCtx, State.updCore_core, Core.setCtx]
          split <;> rfl
        rw [he]; exact h
      simp [Core.limits, this]
    simp [hlim]
  · rw [show (s.atBundle x).focus.c = s.focus.c from rfl, hctx, check_allowed _ _ _ hs.allotted ha]

theorem progress_cores (s : State) (l : Nat) : (s.progress l).cores = s.cores := by
  unfold State.progress
  split
  · unfold State.updDog; exact State.updVI_cores _ _ _
  · rfl

theorem progress_focus (s : State) (l : Nat) : (s.progress l).focus = s.focus := by
  unfold State.progress
  split
  · unfold State.updDog; exact State.updVI_focus _ _ _
  · rfl

theorem takePops_focus (s : State) (c x : Nat) (p : PopSt) : (s.takePops c x p).focus = s.focus := by
  unfold State.takePops
  split
  · rfl
  · rw [progress_focus]; rfl

theorem takePops_cores (s : State) (c x : Nat) (p : PopSt) : (s.takePops c x p).cores = (s.updCtx c x fun t => t.took p).cores := by
  unfold State.takePops
  split
  · rfl
  · rw [progress_cores]; rfl

theorem takePops_ctx (s : State) (c x : Nat) (p : PopSt) (hx : x < 5) : (s.takePops c x p).ctx c x = (s.ctx c x).took p := by
  have h := takePops_cores s c x p
  have e := s.updCtx_ctx c x (fun t => t.took p) hx
  unfold State.ctx State.core at *
  rw [h]; exact e

theorem popped_ctx (s : State) (x : Nat) (p : PopSt) (hx : x < 5) : (s.popped x p).ctx s.focus.c x = s.front x p := by
  unfold State.front State.popped
  rw [takePops_ctx _ _ _ _ hx, s.atBundle_ctx x hx]

/-- The issue of a bundle of one move: what its own acts leave, a, is what the next state is made of. -/
theorem issueSolo_only (s : State) (x : Nat) (w : Worker) (m : Move) (v : VWord) (p : PopSt) (a : State) (hf : Fires s x w m.guard m.src v p)
    (ha : Allowed (s.begun x) m) (hp : Passes (envOf s.focus.c x (s.begun x) [(m, v)]) (s.atBundle x) (s.begun x) m v)
    (hact : runActs (envOf s.focus.c x (s.begun x) [(m, v)]) ((s.popped x p).updCtx s.focus.c x fun t =>
      { t with lat := mergeLatches (s.begun x).tiles (s.begun x).lat [(m, v)] }) [(m, v)] = a)
    (hc : a.focus.c = s.focus.c) (hpc : (writeRegs (a.ctx s.focus.c x) [(m, v)]).pc = (s.begun x).pc)
    (hlo : (writeRegs (a.ctx s.focus.c x) [(m, v)]).loops = (s.begun x).loops) :
    ∃ t, s.issueSolo m = .next t ∧ Only a t x w ((writeRegs (a.ctx s.focus.c x) [(m, v)]).noted p.nfs).passed := by
  have hx5 : x < 5 := by have := hf.issuing.inCore; omega
  have hgo := issueSolo_go s x w m v p hf ha hp
  have hst := hf.straight
  have hctx := s.atBundle_ctx x hx5
  have hw : (s.begun x).worker = some w := hf.issuing.holds
  refine ⟨_, hgo, ?_⟩
  generalize he : envOf s.focus.c x (s.begun x) [(m, v)] = env at *
  have hlat : env.lat = mergeLatches (s.begun x).tiles (s.begun x).lat [(m, v)] := by rw [← he]; rfl
  let vs : List Valued := [(m, v)]
  let n := weightOf env (s.atBundle x) vs
  let F : Ctx → Ctx := fun t =>
    let t := writeRegs t vs
    { t with snap := countDown t.snap, divBusy := t.divBusy - 1, ctl := { t.ctl with nfs := if p.nfs then t.ctl.nfs ||| 1 else t.ctl.nfs }
             awaiting := [], blocked := 0, tokDone := false, hasBlocked := false, resumed := false, asNever := false
             stepDue := t.ctl.step.getLsbD 0 }
  let s3 := a.updCtx s.focus.c x F
  let s4 := s3.updCore s.focus.c fun k => { k.charge n with lastWorker := some w.uid }
  let s5 := s4.chargeLaunch s.focus.c (s.begun x).launch n
  have hrun : runActs env (((s.atBundle x).takePops s.focus.c x p).updCtx s.focus.c x fun t => { t with lat := env.lat }) [(m, v)] = a := by
    rw [hlat]; exact hact
  have hcommit : (s.atBundle x).commit s.focus.c x [(m, v)] p = s5.moveOn s.focus.c x (s.begun x) := by
    unfold State.commit
    simp only [hctx, he, hrun, hw, Option.map_some, Option.isSome_some, if_true]
    rfl
  have hF : ∀ t, F t = { ((writeRegs t vs).noted p.nfs).passed with pc := (writeRegs t vs).pc, nul := (writeRegs t vs).nul } := fun t => rfl
  have h3 := Ch.updCtx a s.focus.c x F
  have hlr := chargeLaunch_rest s4 s.focus.c (s.begun x).launch n
  have hcore : s5.cores = s4.cores := by
    have : s5 = { s4 with launches := s5.launches, energyMsgs := s5.energyMsgs } := hlr
    rw [this]
  have hk : ∀ d, s5.core d = s4.core d := fun d => by unfold State.core; rw [hcore]
  have hk4 : s4.core s.focus.c = { (s3.core s.focus.c).charge n with lastWorker := some w.uid } := by simp [s4]
  have hctx5 : s5.ctx s.focus.c x = F (a.ctx s.focus.c x) := by
    unfold State.ctx
    rw [hk, hk4]
    have := h3.ctx hx5
    unfold State.ctx at this
    rw [← this]
    rfl
  have hmv := moveOn_straight s5 s.focus.c x (s.begun x) hst (by rw [hctx5, hF]; exact hlo)
  let f := ((writeRegs (a.ctx s.focus.c x) vs).noted p.nfs).passed
  have hf : ({ s5.ctx s.focus.c x with pc := (s.begun x).pc + 1, nul := false } : Ctx) = f := by
    rw [hctx5, hF, ← hpc]
    rfl
  rw [hmv, hf] at hcommit
  rw [hcommit]
  have hfin := Ch.setCtx s5 s.focus.c x f
  refine ⟨?_, ?_, ?_, ?_, ?_⟩
  · rw [hc, hfin.core, hk, hk4]
    have h53 : s3.core s.focus.c = (a.core s.focus.c).setCtx x (F (a.ctx s.focus.c x)) := h3.core
    rw [h53]
    simp only [Core.charge, Core.setCtx, hx5, if_true, f, vs]
    simp [vset, Vector.setIfInBounds]
  · intro d hd
    rw [hc] at hd
    rw [hfin.cores d hd, hk]
    have : s4.core d = s3.core d := State.updCore_core_other _ _ _ _ hd
    rw [this]
    exact h3.cores d hd
  · have e5 : s5 = { s4 with launches := s5.launches, energyMsgs := s5.energyMsgs } := hlr
    have e4 : s4 = { s3 with cores := s4.cores } := rfl
    have e3 : s3 = { a with cores := s3.cores } := h3.rest
    have et := hfin.rest
    rw [et, e5, e4, e3]
  · have e4 : s4.launches = a.launches := by
      show s3.launches = a.launches
      exact (congrArg State.launches h3.rest).trans rfl
    rw [hfin.rest, ← e4]
    exact (chargeLaunch_launches s4 _ _ _).1
  · have e4 : s4.energyMsgs = a.energyMsgs := by
      show s3.energyMsgs = a.energyMsgs
      exact (congrArg State.energyMsgs h3.rest).trans rfl
    rw [hfin.rest, ← e4]
    exact (chargeLaunch_launches s4 _ _ _).2

/-! ## Triggers alone -/

theorem filter_filter_lt_gt {α : Type} (t : List (Nat × α)) (i : Nat) :
    (t.filter fun p => p.1 < i).filter (fun p => i < p.1) = [] ∧ (t.filter fun p => i < p.1).filter (fun p => p.1 < i) = [] := by
  constructor
  · rw [List.filter_filter, List.filter_eq_nil_iff]; intro p _; simp; omega
  · rw [List.filter_filter, List.filter_eq_nil_iff]; intro p _; simp; omega

/-- An entry replaced twice. -/
theorem tset_tset {α : Type} (t : List (Nat × α)) (i : Nat) (a b : α) : tset (tset t i a) i b = tset t i b := by
  have h := filter_filter_lt_gt t i
  unfold tset
  simp only [List.filter_append, List.filter_cons, Nat.lt_irrefl, decide_false, Bool.false_eq_true, if_false, h.1, h.2, List.nil_append,
    List.append_nil, List.filter_filter, Bool.and_self]

/-- A context replaced twice. -/
theorem State.setCtx_setCtx (s : State) (c x : Nat) (f g : Ctx) (hx : x < 5) : (s.setCtx c x f).setCtx c x g = s.setCtx c x g := by
  unfold State.setCtx State.updCore
  rw [State.setCore_core]
  simp only []
  rw [Core.setCtx_setCtx _ _ _ _ hx]
  simp only [State.setCore, tset_tset]

theorem State.updCtx_updCtx (s : State) (c x : Nat) (f g : Ctx → Ctx) (hx : x < 5) :
    (s.updCtx c x f).updCtx c x g = s.updCtx c x fun t => g (f t) := by
  unfold State.updCtx
  rw [State.setCtx_ctx _ _ _ _ hx, State.setCtx_setCtx _ _ _ _ _ hx]

/-- A context changed to what it is, once it has been replaced. -/
theorem State.updCtx_same (s : State) (c x : Nat) (f g : Ctx → Ctx) (hx : x < 5) (h : g (f (s.ctx c x)) = f (s.ctx c x)) :
    (s.updCtx c x f).updCtx c x g = s.updCtx c x f := by
  unfold State.updCtx
  rw [State.setCtx_ctx _ _ _ _ hx, State.setCtx_setCtx _ _ _ _ _ hx, h]

/-- The state in which a bundle acts is one in which its context has been replaced: replacing its latches by themselves changes nothing. -/
theorem popped_lat (s : State) (x : Nat) (p : PopSt) (hx : x < 5) :
    (s.popped x p).updCtx s.focus.c x (fun t => { t with lat := (s.begun x).lat }) = s.popped x p := by
  have hs : ∀ (u : State) (f : Ctx), u.ctx s.focus.c x = f → f.lat = (s.begun x).lat → (∃ g h, u.cores = ((h : State).setCtx s.focus.c x g).cores) →
      u.updCtx s.focus.c x (fun t => { t with lat := (s.begun x).lat }) = u := by
    rintro u f rfl hl ⟨g, h, hu⟩
    have hk : ∀ d, u.core d = (h.setCtx s.focus.c x g).core d := fun d => by unfold State.core; rw [hu]
    have hg : u.ctx s.focus.c x = g := by
      unfold State.ctx; rw [hk]; exact h.setCtx_ctx _ _ _ hx
    have hcs : (u.setCtx s.focus.c x g).cores = u.cores := by
      have e : (u.setCtx s.focus.c x g).cores = ((h.setCtx s.focus.c x g).setCtx s.focus.c x g).cores := by
        simp only [State.setCtx, State.updCore, State.setCore]
        simp only [State.setCtx, State.updCore, State.setCore] at hu
        have hk' := hk s.focus.c
        simp only [State.setCtx, State.updCore, State.setCore] at hk'
        rw [hk', hu]
      rw [e, State.setCtx_setCtx _ _ _ _ _ hx, hu]
    have : ({ u.ctx s.focus.c x with lat := (s.begun x).lat } : Ctx) = g := by rw [← hl, hg]
    unfold State.updCtx
    simp only [this]
    show ({ u with cores := (u.setCtx s.focus.c x g).cores } : State) = u
    rw [hcs]
  refine hs _ _ rfl ?_ ?_
  · rw [popped_ctx s x p hx]; rfl
  · exact ⟨((s.atBundle x).ctx s.focus.c x).took p, s.atBundle x, takePops_cores _ _ _ _⟩

theorem envOf_trig (c x : Nat) (t : Ctx) (m : Move) (v : VWord) (g : Trigger) (hm : m.act = .trig g) (hg : g.code ≠ 0x346) :
    envOf c x t [(m, v)] = { c := c, x := x, t0 := t, lat := t.lat, ldqf := t.ctl.ldqf } := by
  simp [envOf, mergeLatches, ldqfEnd, hm, hg]

theorem runActs_trig (env : Env) (s : State) (m : Move) (v : VWord) (g : Trigger) (hm : m.act = .trig g) :
    runActs env s [(m, v)] = g.act env s v := by
  unfold runActs drawOrder triggersOf
  simp only [List.filterMap_cons, List.filterMap_nil, hm, List.map_cons, List.map_nil, List.foldl_cons, List.foldl_nil]
  by_cases hd : draws g = true
  · simp only [hd, if_true, List.filter_cons, List.filter_nil]
    unfold draws at hd
    have : g.unit = .fa ∨ g.unit = .vu0 ∨ g.unit = .vu1 := by simpa [or_assoc] using hd
    rcases this with h | h | h <;> simp [h]
  · by_cases he : g.atEnd = true <;> simp [hd, he]

/-- A trigger alone: what its own effect leaves is what the next state is made of. -/
theorem issueTrig_only (s : State) (x : Nat) (w : Worker) (g : Guard) (src : Src) (v : VWord) (p : PopSt) (tr : Trigger) (a : State)
    (env : Env) (hf : Fires s x w g src v p) (hm : tr.code ≠ mwrCode)
    (henv : envOf s.focus.c x (s.begun x) [(soloMove g src (.trig tr), v)] = env)
    (hp : Passes env (s.atBundle x) (s.begun x) (soloMove g src (.trig tr)) v)
    (ha : tr.act env (s.popped x p) v = a) (hc : a.focus.c = s.focus.c) (hpc : (a.ctx s.focus.c x).pc = (s.begun x).pc)
    (hlo : (a.ctx s.focus.c x).loops = (s.begun x).loops) :
    ∃ t, s.issueSolo (soloMove g src (.trig tr)) = .next t ∧ Only a t x w ((a.ctx s.focus.c x).noted p.nfs).passed := by
  have hx5 : x < 5 := by have := hf.issuing.inCore; omega
  subst henv
  refine issueSolo_only s x w (soloMove g src (.trig tr)) v p a hf ⟨fun i h => ?_, ?_⟩ hp ?_ hc hpc hlo
  · simp [soloMove] at h
  · simp [Move.isMwr, soloMove, hm]
  · rw [show mergeLatches (s.begun x).tiles (s.begun x).lat [(soloMove g src (.trig tr), v)] = (s.begun x).lat from rfl, popped_lat s x p hx5,
      runActs_trig _ _ _ _ tr rfl, ha]

/-- A trigger that looks nothing up, waits for nothing and takes no place in the SAQ. -/
theorem passes_plain (env : Env) (s : State) (t : Ctx) (g : Guard) (src : Src) (tr : Trigger) (v : VWord) (h1 : tr.results t ≤ 8)
    (h2 : tr.check env s v = none) (h3 : tr.brk = none) (h4 : tr.wait env s v = .ready) (h5 : tr.saq = true → t.saq.length < 32) :
    Passes env s t (soloMove g src (.trig tr)) v := by
  constructor <;> simp only [soloMove, MoveAct.trig.injEq, reduceCtorEq, false_imp_iff, forall_eq', or_self, implies_true] <;> assumption

/-- Only changes to a context: the state it is compared with may be the one before them. -/
theorem Only.of_ch {b a t : State} {x : Nat} {w : Worker} {f k : Ctx} (h : Only a t x w f) (hx : x < 5) (ha : Ch b a b.focus.c x k) :
    Only b t x w f := by
  have hf : a.focus = b.focus := by rw [ha.rest]
  obtain ⟨h1, h2, h3, h4, h5⟩ := h
  rw [hf] at h1 h2
  refine ⟨?_, fun d hd => (h2 d hd).trans (ha.cores d hd), ?_, ?_, ?_⟩
  · rw [h1, ha.core, Core.setCtx_setCtx _ _ _ _ hx]
  · rw [h3, ha.rest]
  · rw [h4, ha.rest]
  · rw [← show a.energyMsgs = b.energyMsgs by rw [ha.rest]]; exact h5

/-- A trigger alone whose effect is one on its context. -/
theorem issueTrig_ctx (s : State) (x : Nat) (w : Worker) (g : Guard) (src : Src) (v : VWord) (p : PopSt) (tr : Trigger) (G : Ctx → Ctx)
    (hf : Fires s x w g src v p) (hm : tr.code ≠ mwrCode) (hc : tr.code ≠ 0x346)
    (hp : Passes (s.env x) (s.atBundle x) (s.begun x) (soloMove g src (.trig tr)) v)
    (ha : tr.act (s.env x) (s.popped x p) v = (s.popped x p).updCtx s.focus.c x G) (hpc : (G (s.front x p)).pc = (s.begun x).pc)
    (hlo : (G (s.front x p)).loops = (s.begun x).loops) :
    ∃ t, s.issueSolo (soloMove g src (.trig tr)) = .next t ∧ Only (s.popped x p) t x w ((G (s.front x p)).noted p.nfs).passed := by
  have hx5 : x < 5 := by have := hf.issuing.inCore; omega
  have hfc : (s.popped x p).focus = s.focus := takePops_focus _ _ _ _
  have hctx : ((s.popped x p).updCtx s.focus.c x G).ctx s.focus.c x = G (s.front x p) := by
    rw [State.updCtx_ctx _ _ _ _ hx5, popped_ctx s x p hx5]
  have := issueTrig_only s x w g src v p tr _ (s.env x) hf hm (envOf_trig _ _ _ _ _ tr rfl hc) hp ha (by
    show (s.popped x p).focus.c = _
    rw [hfc]) (by rw [hctx]; exact hpc) (by rw [hctx]; exact hlo)
  obtain ⟨t, h1, h2⟩ := this
  rw [hctx] at h2
  refine ⟨t, h1, h2.of_ch hx5 (k := G (s.front x p)) ?_⟩
  rw [hfc, ← popped_ctx s x p hx5]
  exact Ch.updCtx _ _ _ _

end Sys2Proof.Machine
end

