-- ==== Sys2Proof/Laws/Memory.lean ====
section
/-!
SUPPORT. What the operations over memory do: each keeps the canonical form, and what each byte reads as after it.
-/

-- One after another: side by side they take too much memory.
set_option Elab.async false

namespace Sys2Proof.Machine

/-! ## Reading -/

theorem memGet_nil (a : Nat) : memGet [] a = memZero := rfl

theorem memGet_cons (p : Host.Cell) (m : List Host.Cell) (a : Nat) :
    memGet (p :: m) a = if a = p.1 then p.2 else memGet m a := by
  unfold memGet
  rw [List.lookup_cons]
  by_cases h : a = p.1
  · simp [h]
  · have : (a == p.1) = false := by simpa using h
    simp [this, h]

/-- A byte read from a list joined to another comes from the first that lists its address. -/
theorem memGet_append (m n : List Host.Cell) (a : Nat) (h : ∀ p ∈ m, p.1 ≠ a) : memGet (m ++ n) a = memGet n a := by
  induction m with
  | nil => rfl
  | cons p m ih =>
    rw [List.cons_append, memGet_cons, if_neg (fun e => h p (by simp) e.symm)]
    exact ih fun q hq => h q (by simp [hq])

/-- Addresses that a filter keeps read as before. -/
theorem memGet_filter (f : Nat → Bool) (m : List Host.Cell) (a : Nat) :
    memGet (m.filter fun p => f p.1) a = if f a then memGet m a else memZero := by
  induction m with
  | nil => simp [memGet_nil]
  | cons p m ih =>
    rw [List.filter_cons]
    by_cases hp : f p.1
    · rw [if_pos hp, memGet_cons, memGet_cons, ih]
      by_cases ha : a = p.1
      · simp [ha, hp]
      · simp [ha]
    · rw [if_neg hp, ih, memGet_cons]
      by_cases ha : a = p.1
      · subst ha; simp [hp]
      · simp [ha]

/-- A joined list whose first part lists only addresses of a set that the rest does not list. -/
theorem memGet_append_left (m n : List Host.Cell) (a : Nat) (h : ∀ p ∈ n, p.1 ≠ a) : memGet (m ++ n) a = memGet m a := by
  induction m with
  | nil =>
    have := memGet_append n [] a h
    rw [List.append_nil] at this
    exact this
  | cons p m ih => rw [List.cons_append, memGet_cons, memGet_cons, ih]

/-! ## cellsOf -/

theorem cellsOf_range (a : Nat) (bs : List Byte) : ∀ p ∈ cellsOf a bs, a ≤ p.1 ∧ p.1 < a + bs.length ∧ p.2 ≠ memZero := by
  induction bs generalizing a with
  | nil => simp [cellsOf]
  | cons b bs ih =>
    intro p hp
    unfold cellsOf at hp
    split at hp
    · have := ih (a + 1) p hp
      simp only [List.length_cons]
      exact ⟨by omega, by omega, this.2.2⟩
    · rename_i hb
      rcases List.mem_cons.mp hp with rfl | hp
      · exact ⟨Nat.le_refl _, by simp, hb⟩
      · have := ih (a + 1) p hp
        simp only [List.length_cons]
        exact ⟨by omega, by omega, this.2.2⟩

theorem cellsOf_sorted (a : Nat) (bs : List Byte) : (cellsOf a bs).Pairwise (fun p q => p.1 < q.1) := by
  induction bs generalizing a with
  | nil => simp [cellsOf]
  | cons b bs ih =>
    unfold cellsOf
    split
    · exact ih (a + 1)
    · refine List.pairwise_cons.mpr ⟨fun q hq => ?_, ih (a + 1)⟩
      have := (cellsOf_range (a + 1) bs q hq).1
      omega

theorem memGet_cellsOf (a : Nat) (bs : List Byte) (b : Nat) :
    memGet (cellsOf a bs) b = if a ≤ b then bs.getD (b - a) memZero else memZero := by
  induction bs generalizing a with
  | nil => simp [cellsOf, memGet_nil]
  | cons x bs ih =>
    unfold cellsOf
    by_cases h : b = a
    · subst h
      split
      · rename_i hx
        rw [ih, if_neg (by omega)]
        simp [hx]
      · rw [memGet_cons]; simp
    · have key : memGet (cellsOf (a + 1) bs) b = if a ≤ b then (x :: bs).getD (b - a) memZero else memZero := by
        rw [ih]
        by_cases hle : a ≤ b
        · have e : b - a = (b - (a + 1)) + 1 := by omega
          rw [if_pos (by omega), if_pos hle, e]
          rfl
        · rw [if_neg (by omega), if_neg hle]
      split
      · exact key
      · rw [memGet_cons, if_neg h]; exact key

/-! ## Writing -/

/-- A byte after a write of bytes from an address on. -/
theorem memGet_memWrite (m : List Host.Cell) (a : Nat) (bs : List Byte) (b : Nat) :
    memGet (memWrite m a bs) b = if a ≤ b ∧ b < a + bs.length then bs.getD (b - a) memZero else memGet m b := by
  unfold memWrite
  have hlo := memGet_filter (fun i => decide (i < a)) m b
  have hhi := memGet_filter (fun i => decide (a + bs.length ≤ i)) m b
  have hc := memGet_cellsOf a bs b
  simp only [decide_eq_true_eq] at hlo hhi
  by_cases h1 : b < a
  · rw [memGet_append_left, memGet_append_left, hlo, if_pos h1, if_neg (by omega)]
    · intro p hp; have := (cellsOf_range a bs p hp).1; omega
    · intro p hp; have := (List.mem_filter.mp hp).2; simp only [decide_eq_true_eq] at this; omega
  · by_cases h2 : b < a + bs.length
    · rw [memGet_append_left, memGet_append, hc, if_pos (by omega), if_pos ⟨by omega, h2⟩]
      · intro p hp; have := (List.mem_filter.mp hp).2; simp only [decide_eq_true_eq] at this; omega
      · intro p hp; have := (List.mem_filter.mp hp).2; simp only [decide_eq_true_eq] at this; omega
    · rw [memGet_append, hhi, if_pos (by omega), if_neg (by omega)]
      intro p hp
      rcases List.mem_append.mp hp with hp | hp
      · have := (List.mem_filter.mp hp).2; simp only [decide_eq_true_eq] at this; omega
      · have := (cellsOf_range a bs p hp).2.1; omega

/-- A byte after the write of one byte. -/
theorem memGet_memSet (m : List Host.Cell) (a : Nat) (b : Byte) (i : Nat) : memGet (memSet m a b) i = if i = a then b else memGet m i := by
  unfold memSet
  rw [memGet_memWrite]
  by_cases h : i = a
  · subst h; simp
  · rw [if_neg (by simp; omega), if_neg h]

/-- A byte after writes at other addresses. -/
theorem memGet_memPut_of_not_mem (l : List (Nat × Byte)) (m : List Host.Cell) (a : Nat) (h : ∀ p ∈ l, p.1 ≠ a) :
    memGet (memPut m l) a = memGet m a := by
  induction l generalizing m with
  | nil => rfl
  | cons p l ih =>
    have : memPut m (p :: l) = memPut (memSet m p.1 p.2) l := rfl
    rw [this, ih _ fun q hq => h q (by simp [hq]), memGet_memSet, if_neg (fun e => h p (by simp) e.symm)]

/-- A byte after a run is cleared. -/
theorem memGet_memClear (m : List Host.Cell) (a n b : Nat) :
    memGet (memClear m a n) b = if a ≤ b ∧ b < a + n then memZero else memGet m b := by
  have := memGet_filter (fun i => decide (i < a) || decide (a + n ≤ i)) m b
  unfold memClear
  rw [this]
  by_cases h : a ≤ b ∧ b < a + n
  · rw [if_pos h, if_neg]; simp; omega
  · rw [if_neg h, if_pos]; simp; omega

/-! ## The canonical form -/

theorem wf_nil : Memory.wf [] := ⟨List.Pairwise.nil, by simp⟩

/-- A part of a canonical memory is canonical. -/
theorem wf_filter (m : List Host.Cell) (f : Host.Cell → Bool) (h : Memory.wf m) : Memory.wf (m.filter f) :=
  ⟨h.1.filter _, fun p hp => h.2 p (List.mem_filter.mp hp).1⟩

theorem wf_memClear (m : List Host.Cell) (a n : Nat) (h : Memory.wf m) : Memory.wf (memClear m a n) := wf_filter m _ h

/-- Cells of a range between the parts of a canonical memory below and above it. -/
theorem wf_memPaste (m : List Host.Cell) (a n : Nat) (cs : List Host.Cell) (h : Memory.wf m) (hc : Memory.wf cs)
    (hr : ∀ p ∈ cs, a ≤ p.1 ∧ p.1 < a + n) : Memory.wf (memPaste m a n cs) := by
  have hl : ∀ p ∈ m.filter (fun p => p.1 < a), p.1 < a := fun p hp => by simpa using (List.mem_filter.mp hp).2
  have hh : ∀ p ∈ m.filter (fun p => a + n ≤ p.1), a + n ≤ p.1 := fun p hp => by simpa using (List.mem_filter.mp hp).2
  unfold memPaste
  refine ⟨?_, ?_⟩
  · refine List.pairwise_append.mpr ⟨List.pairwise_append.mpr ⟨h.1.filter _, hc.1, ?_⟩, h.1.filter _, ?_⟩
    · intro p hp q hq; have := hl p hp; have := hr q hq; omega
    · intro p hp q hq
      have h2 := hh q hq
      rcases List.mem_append.mp hp with hp | hp
      · have := hl p hp; omega
      · have := hr p hp; omega
  · intro p hp
    rcases List.mem_append.mp hp with hp | hp
    · rcases List.mem_append.mp hp with hp | hp
      · exact h.2 p (List.mem_filter.mp hp).1
      · exact hc.2 p hp
    · exact h.2 p (List.mem_filter.mp hp).1

theorem wf_cellsOf (a : Nat) (bs : List Byte) : Memory.wf (cellsOf a bs) := ⟨cellsOf_sorted a bs, fun p hp => (cellsOf_range a bs p hp).2.2⟩

/-- A write keeps the canonical form. -/
theorem wf_memWrite (m : List Host.Cell) (a : Nat) (bs : List Byte) (h : Memory.wf m) : Memory.wf (memWrite m a bs) :=
  wf_memPaste m a bs.length (cellsOf a bs) h (wf_cellsOf a bs) fun p hp => ⟨(cellsOf_range a bs p hp).1, (cellsOf_range a bs p hp).2.1⟩

theorem wf_memSet (m : List Host.Cell) (a : Nat) (b : Byte) (h : Memory.wf m) : Memory.wf (memSet m a b) := wf_memWrite m a [b] h

/-- Scattered writes keep the canonical form. -/
theorem wf_memPut (l : List (Nat × Byte)) (m : List Host.Cell) (h : Memory.wf m) : Memory.wf (memPut m l) := by
  induction l generalizing m with
  | nil => exact h
  | cons p l ih => exact ih (memSet m p.1 p.2) (wf_memSet m p.1 p.2 h)

/-- A range of a canonical memory, moved, is canonical. -/
theorem wf_cellsMoved (m : List Host.Cell) (a n b : Nat) (h : Memory.wf m) :
    Memory.wf (cellsMoved m a n b) ∧ ∀ p ∈ cellsMoved m a n b, b ≤ p.1 ∧ p.1 < b + n := by
  have hr : ∀ p ∈ m.filter (fun p => a ≤ p.1 && p.1 < a + n), a ≤ p.1 ∧ p.1 < a + n := fun p hp => by simpa using (List.mem_filter.mp hp).2
  refine ⟨⟨?_, ?_⟩, ?_⟩
  · refine List.pairwise_map.mpr ?_
    refine List.Pairwise.imp_of_mem ?_ (h.1.filter (fun p => a ≤ p.1 && p.1 < a + n))
    intro p q hp hq hlt
    have := hr p hp; have := hr q hq
    simp only; omega
  · intro p hp
    obtain ⟨q, hq, rfl⟩ := List.mem_map.mp hp
    exact h.2 q (List.mem_filter.mp hq).1
  · intro p hp
    obtain ⟨q, hq, rfl⟩ := List.mem_map.mp hp
    have := hr q hq
    simp only; omega

/-- A copy within a memory keeps the canonical form. -/
theorem wf_memMove (m : List Host.Cell) (a n b : Nat) (h : Memory.wf m) : Memory.wf (memMove m a n b) :=
  wf_memPaste m b n _ h (wf_cellsMoved m a n b h).1 (wf_cellsMoved m a n b h).2

end Sys2Proof.Machine
end

