-- ==== Sys2Proof/Laws/PerInstr.lean ====
section
/-!
SUPPORT. Per instruction: the slots of a move are those of a guard, a source and a destination code, and the code gives the
instruction back (R31, R33-R37). The round trip of the encoding rests on these lemmas.
-/

-- One after another: side by side they take too much memory.
set_option Elab.async false

namespace Sys2Proof.Laws

/-- A well-formed slot is a never-move, or the slots of a guard, a source and a destination code at which the tables of the decoder have it. -/
def Coded.Statement (i : Instr) : Prop :=
  i.wf = true → i.isSlot = true →
    (∃ a b, i = .neverMove a b) ∨ ∃ g s d, guardOk g = true ∧ d < 1024 ∧ encode i = slotOf g s d ∧ instrAt g s d = some i

/-- The steps of the other agents stand in no slot. -/
theorem Coded.of_not_slot {i : Instr} (h : i.isSlot = false) : Coded.Statement i := fun _ h' => by simp [h] at h'

/-- A row of the table of destination codes. -/
theorem Coded.of_code {i : Instr} {g : Guard} {s : Src} {d : Nat} (hw : i.wf = guardOk g) (hd : d < 1024) (he : encode i = slotOf g s d)
    (hi : instrAt g s d = some i) : Coded.Statement i :=
  fun h _ => .inr ⟨g, s, d, by rw [← hw]; exact h, hd, he, hi⟩

/-- The code of a latch is below 1024. -/
theorem latch_code_lt (l : Latch) : l.code < 1024 := by
  cases l <;> simp only [Latch.code] <;> omega

/-- The code of a destination is below 1024. -/
theorem dst_code_lt (d : Dst) : d.code < 1024 := by
  cases d with
  | latch l => exact latch_code_lt l
  | _ => simp only [Dst.code] <;> omega


/-- The codes of each table of the decoder. -/
theorem keys_push (g : Guard) (s : Src) : (pushCodes g s).map (·.1) =
    [0x07A, 0x07B, 0x07C, 0x07D] := rfl
theorem keys_ia0 (g : Guard) (s : Src) : (ia0Codes g s).map (·.1) =
    [0x081, 0x082, 0x083, 0x084, 0x085, 0x086, 0x087, 0x088, 0x089, 0x08A, 0x08B, 0x08C, 0x08D, 0x08E, 0x08F, 0x090, 0x091, 0x092, 0x093, 0x094, 0x095, 0x096, 0x097, 0x098, 0x099, 0x09A, 0x09B, 0x09C, 0x09D, 0x09E, 0x09F, 0x0A0, 0x0A1, 0x0A2] := rfl
theorem keys_ia1 (g : Guard) (s : Src) : (ia1Codes g s).map (·.1) =
    [0x0C1, 0x0C2, 0x0C3, 0x0C4, 0x0C5, 0x0C6, 0x0C7, 0x0C8, 0x0C9, 0x0CA, 0x0CB, 0x0CC, 0x0CD, 0x0CE, 0x0CF, 0x0D0, 0x0D1, 0x0D2, 0x0D3, 0x0D4, 0x0D5, 0x0D6, 0x0D7, 0x0D8, 0x0D9, 0x0DA, 0x0DB, 0x0DC, 0x0DD, 0x0DE, 0x0DF, 0x0E0, 0x0E1, 0x0E2] := rfl
theorem keys_im (g : Guard) (s : Src) : (imCodes g s).map (·.1) =
    [0x101, 0x102, 0x103, 0x104, 0x105, 0x106, 0x107, 0x108] := rfl
theorem keys_fa (g : Guard) (s : Src) : (faCodes g s).map (·.1) =
    [0x142, 0x143, 0x144, 0x145, 0x146, 0x147, 0x148, 0x149, 0x14A, 0x14B, 0x14C, 0x14D, 0x14E, 0x14F, 0x150, 0x151, 0x152, 0x153, 0x154, 0x155] := rfl
theorem keys_cu (g : Guard) (s : Src) : (cuCodes g s).map (·.1) =
    [0x181, 0x182, 0x183, 0x184, 0x185, 0x186, 0x187] := rfl
theorem keys_vu0 (g : Guard) (s : Src) : (vu0Codes g s).map (·.1) =
    [0x1C3, 0x1C4, 0x1C5, 0x1C6, 0x1C7, 0x1C8, 0x1C9, 0x1CA, 0x1CB, 0x1CC, 0x1CD, 0x1CE, 0x1CF, 0x1D0, 0x1D1, 0x1D2, 0x1D3, 0x1D4, 0x1D5, 0x1D6, 0x1D7, 0x1D8, 0x1D9, 0x1DA, 0x1DB, 0x1DC, 0x1DD, 0x1DE, 0x1DF, 0x1E0, 0x1E1, 0x1E2, 0x1E3, 0x1E4, 0x1E5, 0x1E6, 0x1E7] := rfl
theorem keys_vu1 (g : Guard) (s : Src) : (vu1Codes g s).map (·.1) =
    [0x203, 0x204, 0x205, 0x206, 0x207, 0x208, 0x209, 0x20A, 0x20B, 0x20C, 0x20D, 0x20E, 0x20F, 0x210, 0x211, 0x212, 0x213, 0x214, 0x215, 0x216, 0x217, 0x218, 0x219, 0x21A, 0x21B, 0x21C, 0x21D, 0x21E, 0x21F, 0x220, 0x221, 0x222, 0x223, 0x224, 0x225, 0x226, 0x227] := rfl
theorem keys_au (g : Guard) (s : Src) : (auCodes g s).map (·.1) =
    [0x242, 0x243, 0x244, 0x245, 0x246, 0x247, 0x248, 0x249, 0x24A, 0x24B, 0x24C, 0x24D, 0x24E, 0x24F, 0x250, 0x251, 0x252, 0x253, 0x254, 0x255, 0x256, 0x257, 0x258, 0x259, 0x25A] := rfl
theorem keys_qu (g : Guard) (s : Src) : (quCodes g s).map (·.1) =
    [0x281, 0x282, 0x283, 0x284, 0x285, 0x286, 0x287] := rfl
theorem keys_ce (g : Guard) (s : Src) : (ceCodes g s).map (·.1) =
    [0x2C1, 0x2C2, 0x2C3, 0x2C4, 0x2C5, 0x2C6, 0x2C7, 0x2C8] := rfl
theorem keys_mx (g : Guard) (s : Src) : (mxCodes g s).map (·.1) =
    [0x318, 0x319, 0x31A, 0x31B, 0x31C, 0x31D] := rfl
theorem keys_sy (g : Guard) (s : Src) : (syCodes g s).map (·.1) =
    [0x341, 0x342, 0x343, 0x344, 0x345, 0x346, 0x347, 0x348, 0x349, 0x34A, 0x34B, 0x34C, 0x34D, 0x34E, 0x34F] := rfl
theorem keys_xu (g : Guard) (s : Src) : (xuCodes g s).map (·.1) =
    [0x381, 0x382, 0x383, 0x384, 0x385, 0x386, 0x387, 0x388, 0x389, 0x38A, 0x38B, 0x38C, 0x38D] := rfl

/-- The destination codes that push or trigger. -/
def actKeys : List Nat :=
    [0x07A, 0x07B, 0x07C, 0x07D]
    ++ [0x081, 0x082, 0x083, 0x084, 0x085, 0x086, 0x087, 0x088, 0x089, 0x08A, 0x08B, 0x08C, 0x08D, 0x08E, 0x08F, 0x090, 0x091, 0x092,
    0x093, 0x094, 0x095, 0x096, 0x097, 0x098, 0x099, 0x09A, 0x09B, 0x09C, 0x09D, 0x09E, 0x09F, 0x0A0, 0x0A1, 0x0A2]
    ++ [0x0C1, 0x0C2, 0x0C3, 0x0C4, 0x0C5, 0x0C6, 0x0C7, 0x0C8, 0x0C9, 0x0CA, 0x0CB, 0x0CC, 0x0CD, 0x0CE, 0x0CF, 0x0D0, 0x0D1, 0x0D2,
    0x0D3, 0x0D4, 0x0D5, 0x0D6, 0x0D7, 0x0D8, 0x0D9, 0x0DA, 0x0DB, 0x0DC, 0x0DD, 0x0DE, 0x0DF, 0x0E0, 0x0E1, 0x0E2]
    ++ [0x101, 0x102, 0x103, 0x104, 0x105, 0x106, 0x107, 0x108]
    ++ [0x142, 0x143, 0x144, 0x145, 0x146, 0x147, 0x148, 0x149, 0x14A, 0x14B, 0x14C, 0x14D, 0x14E, 0x14F, 0x150, 0x151, 0x152, 0x153,
    0x154, 0x155]
    ++ [0x181, 0x182, 0x183, 0x184, 0x185, 0x186, 0x187]
    ++ [0x1C3, 0x1C4, 0x1C5, 0x1C6, 0x1C7, 0x1C8, 0x1C9, 0x1CA, 0x1CB, 0x1CC, 0x1CD, 0x1CE, 0x1CF, 0x1D0, 0x1D1, 0x1D2, 0x1D3, 0x1D4,
    0x1D5, 0x1D6, 0x1D7, 0x1D8, 0x1D9, 0x1DA, 0x1DB, 0x1DC, 0x1DD, 0x1DE, 0x1DF, 0x1E0, 0x1E1, 0x1E2, 0x1E3, 0x1E4, 0x1E5, 0x1E6,
    0x1E7]
    ++ [0x203, 0x204, 0x205, 0x206, 0x207, 0x208, 0x209, 0x20A, 0x20B, 0x20C, 0x20D, 0x20E, 0x20F, 0x210, 0x211, 0x212, 0x213, 0x214,
    0x215, 0x216, 0x217, 0x218, 0x219, 0x21A, 0x21B, 0x21C, 0x21D, 0x21E, 0x21F, 0x220, 0x221, 0x222, 0x223, 0x224, 0x225, 0x226,
    0x227]
    ++ [0x242, 0x243, 0x244, 0x245, 0x246, 0x247, 0x248, 0x249, 0x24A, 0x24B, 0x24C, 0x24D, 0x24E, 0x24F, 0x250, 0x251, 0x252, 0x253,
    0x254, 0x255, 0x256, 0x257, 0x258, 0x259, 0x25A]
    ++ [0x281, 0x282, 0x283, 0x284, 0x285, 0x286, 0x287]
    ++ [0x2C1, 0x2C2, 0x2C3, 0x2C4, 0x2C5, 0x2C6, 0x2C7, 0x2C8]
    ++ [0x318, 0x319, 0x31A, 0x31B, 0x31C, 0x31D]
    ++ [0x341, 0x342, 0x343, 0x344, 0x345, 0x346, 0x347, 0x348, 0x349, 0x34A, 0x34B, 0x34C, 0x34D, 0x34E, 0x34F]
    ++ [0x381, 0x382, 0x383, 0x384, 0x385, 0x386, 0x387, 0x388, 0x389, 0x38A, 0x38B, 0x38C, 0x38D]

/-- They depend on neither guard nor source. -/
theorem act_keys (g : Guard) (s : Src) : (actCodes g s).map (·.1) = actKeys := by
  simp only [actCodes, List.map_append, keys_push, keys_ia0, keys_ia1, keys_im, keys_fa, keys_cu, keys_vu0, keys_vu1, keys_au, keys_qu, keys_ce, keys_mx, keys_sy, keys_xu]
  rfl

/-- A key that a table does not list is not found in it. -/
theorem lookup_none {α : Type} (l : List (Nat × α)) (d : Nat) (h : d ∉ l.map (·.1)) : l.lookup d = none := by
  induction l with
  | nil => rfl
  | cons p l ih =>
    simp only [List.map_cons, List.mem_cons, not_or] at h
    rw [List.lookup_cons, beq_eq_false_iff_ne.2 h.1]
    exact ih h.2

/-- A code above every key of a table is not found in it. -/
theorem lookup_lt {α : Type} (l : List (Nat × α)) (b d : Nat) (h : ∀ k ∈ l.map (·.1), k < b) (hd : b ≤ d) : l.lookup d = none :=
  lookup_none l d fun hm => by have := h d hm; omega

/-- A code is looked up in one table and then in the other. -/
theorem lookup_app {α : Type} (t u : List (Nat × α)) (j : Nat) : (t ++ u).lookup j = (t.lookup j).or (u.lookup j) := by
  induction t with
  | nil => simp
  | cons p t ih =>
    rw [List.cons_append, List.lookup_cons, List.lookup_cons, ih]
    cases j == p.1 <;> simp

/-- What the table of triggers and pushes has for a code is its row. -/
theorem instrAt_row {g : Guard} {s : Src} {d : Nat} {i : Instr} (h : (actCodes g s).lookup d = some i) : instrAt g s d = some i := by
  rw [instrAt, h]

/-- Each table lies below the next, so a code of one is not in those before it. -/
theorem lt_push (g : Guard) (s : Src) (d : Nat) (h : 0x080 ≤ d) : (pushCodes g s).lookup d = none :=
  lookup_lt _ 0x080 d (by rw [keys_push]; decide) h
theorem lt_ia0 (g : Guard) (s : Src) (d : Nat) (h : 0x0C0 ≤ d) : (ia0Codes g s).lookup d = none :=
  lookup_lt _ 0x0C0 d (by rw [keys_ia0]; decide) h
theorem lt_ia1 (g : Guard) (s : Src) (d : Nat) (h : 0x100 ≤ d) : (ia1Codes g s).lookup d = none :=
  lookup_lt _ 0x100 d (by rw [keys_ia1]; decide) h
theorem lt_im (g : Guard) (s : Src) (d : Nat) (h : 0x140 ≤ d) : (imCodes g s).lookup d = none :=
  lookup_lt _ 0x140 d (by rw [keys_im]; decide) h
theorem lt_fa (g : Guard) (s : Src) (d : Nat) (h : 0x180 ≤ d) : (faCodes g s).lookup d = none :=
  lookup_lt _ 0x180 d (by rw [keys_fa]; decide) h
theorem lt_cu (g : Guard) (s : Src) (d : Nat) (h : 0x1C0 ≤ d) : (cuCodes g s).lookup d = none :=
  lookup_lt _ 0x1C0 d (by rw [keys_cu]; decide) h
theorem lt_vu0 (g : Guard) (s : Src) (d : Nat) (h : 0x200 ≤ d) : (vu0Codes g s).lookup d = none :=
  lookup_lt _ 0x200 d (by rw [keys_vu0]; decide) h
theorem lt_vu1 (g : Guard) (s : Src) (d : Nat) (h : 0x240 ≤ d) : (vu1Codes g s).lookup d = none :=
  lookup_lt _ 0x240 d (by rw [keys_vu1]; decide) h
theorem lt_au (g : Guard) (s : Src) (d : Nat) (h : 0x280 ≤ d) : (auCodes g s).lookup d = none :=
  lookup_lt _ 0x280 d (by rw [keys_au]; decide) h
theorem lt_qu (g : Guard) (s : Src) (d : Nat) (h : 0x2C0 ≤ d) : (quCodes g s).lookup d = none :=
  lookup_lt _ 0x2C0 d (by rw [keys_qu]; decide) h
theorem lt_ce (g : Guard) (s : Src) (d : Nat) (h : 0x300 ≤ d) : (ceCodes g s).lookup d = none :=
  lookup_lt _ 0x300 d (by rw [keys_ce]; decide) h
theorem lt_mx (g : Guard) (s : Src) (d : Nat) (h : 0x340 ≤ d) : (mxCodes g s).lookup d = none :=
  lookup_lt _ 0x340 d (by rw [keys_mx]; decide) h
theorem lt_sy (g : Guard) (s : Src) (d : Nat) (h : 0x380 ≤ d) : (syCodes g s).lookup d = none :=
  lookup_lt _ 0x380 d (by rw [keys_sy]; decide) h

/-- A row of each table is the row of its code. -/
theorem at_push {g : Guard} {s : Src} {d : Nat} {i : Instr} (_ : 0x07A ≤ d) (h : (pushCodes g s).lookup d = some i) : instrAt g s d = some i :=
  instrAt_row (by simp only [actCodes, lookup_app, h, Option.some_or])
theorem at_ia0 {g : Guard} {s : Src} {d : Nat} {i : Instr} (hd : 0x080 ≤ d) (h : (ia0Codes g s).lookup d = some i) : instrAt g s d = some i :=
  instrAt_row (by simp only [actCodes, lookup_app, lt_push g s d (by omega), h, Option.none_or, Option.some_or])
theorem at_ia1 {g : Guard} {s : Src} {d : Nat} {i : Instr} (hd : 0x0C0 ≤ d) (h : (ia1Codes g s).lookup d = some i) : instrAt g s d = some i :=
  instrAt_row (by simp only [actCodes, lookup_app, lt_push g s d (by omega), lt_ia0 g s d (by omega), h, Option.none_or, Option.some_or])
theorem at_im {g : Guard} {s : Src} {d : Nat} {i : Instr} (hd : 0x100 ≤ d) (h : (imCodes g s).lookup d = some i) : instrAt g s d = some i :=
  instrAt_row (by simp only [actCodes, lookup_app, lt_push g s d (by omega), lt_ia0 g s d (by omega), lt_ia1 g s d (by omega), h, Option.none_or, Option.some_or])
theorem at_fa {g : Guard} {s : Src} {d : Nat} {i : Instr} (hd : 0x140 ≤ d) (h : (faCodes g s).lookup d = some i) : instrAt g s d = some i :=
  instrAt_row (by simp only [actCodes, lookup_app, lt_push g s d (by omega), lt_ia0 g s d (by omega), lt_ia1 g s d (by omega), lt_im g s d (by omega), h, Option.none_or, Option.some_or])
theorem at_cu {g : Guard} {s : Src} {d : Nat} {i : Instr} (hd : 0x180 ≤ d) (h : (cuCodes g s).lookup d = some i) : instrAt g s d = some i :=
  instrAt_row (by simp only [actCodes, lookup_app, lt_push g s d (by omega), lt_ia0 g s d (by omega), lt_ia1 g s d (by omega), lt_im g s d (by omega), lt_fa g s d (by omega), h, Option.none_or, Option.some_or])
theorem at_vu0 {g : Guard} {s : Src} {d : Nat} {i : Instr} (hd : 0x1C0 ≤ d) (h : (vu0Codes g s).lookup d = some i) : instrAt g s d = some i :=
  instrAt_row (by simp only [actCodes, lookup_app, lt_push g s d (by omega), lt_ia0 g s d (by omega), lt_ia1 g s d (by omega), lt_im g s d (by omega), lt_fa g s d (by omega), lt_cu g s d (by omega), h, Option.none_or, Option.some_or])
theorem at_vu1 {g : Guard} {s : Src} {d : Nat} {i : Instr} (hd : 0x200 ≤ d) (h : (vu1Codes g s).lookup d = some i) : instrAt g s d = some i :=
  instrAt_row (by simp only [actCodes, lookup_app, lt_push g s d (by omega), lt_ia0 g s d (by omega), lt_ia1 g s d (by omega), lt_im g s d (by omega), lt_fa g s d (by omega), lt_cu g s d (by omega), lt_vu0 g s d (by omega), h, Option.none_or, Option.some_or])
theorem at_au {g : Guard} {s : Src} {d : Nat} {i : Instr} (hd : 0x240 ≤ d) (h : (auCodes g s).lookup d = some i) : instrAt g s d = some i :=
  instrAt_row (by simp only [actCodes, lookup_app, lt_push g s d (by omega), lt_ia0 g s d (by omega), lt_ia1 g s d (by omega), lt_im g s d (by omega), lt_fa g s d (by omega), lt_cu g s d (by omega), lt_vu0 g s d (by omega), lt_vu1 g s d (by omega), h, Option.none_or, Option.some_or])
theorem at_qu {g : Guard} {s : Src} {d : Nat} {i : Instr} (hd : 0x280 ≤ d) (h : (quCodes g s).lookup d = some i) : instrAt g s d = some i :=
  instrAt_row (by simp only [actCodes, lookup_app, lt_push g s d (by omega), lt_ia0 g s d (by omega), lt_ia1 g s d (by omega), lt_im g s d (by omega), lt_fa g s d (by omega), lt_cu g s d (by omega), lt_vu0 g s d (by omega), lt_vu1 g s d (by omega), lt_au g s d (by omega), h, Option.none_or, Option.some_or])
theorem at_ce {g : Guard} {s : Src} {d : Nat} {i : Instr} (hd : 0x2C0 ≤ d) (h : (ceCodes g s).lookup d = some i) : instrAt g s d = some i :=
  instrAt_row (by simp only [actCodes, lookup_app, lt_push g s d (by omega), lt_ia0 g s d (by omega), lt_ia1 g s d (by omega), lt_im g s d (by omega), lt_fa g s d (by omega), lt_cu g s d (by omega), lt_vu0 g s d (by omega), lt_vu1 g s d (by omega), lt_au g s d (by omega), lt_qu g s d (by omega), h, Option.none_or, Option.some_or])
theorem at_mx {g : Guard} {s : Src} {d : Nat} {i : Instr} (hd : 0x300 ≤ d) (h : (mxCodes g s).lookup d = some i) : instrAt g s d = some i :=
  instrAt_row (by simp only [actCodes, lookup_app, lt_push g s d (by omega), lt_ia0 g s d (by omega), lt_ia1 g s d (by omega), lt_im g s d (by omega), lt_fa g s d (by omega), lt_cu g s d (by omega), lt_vu0 g s d (by omega), lt_vu1 g s d (by omega), lt_au g s d (by omega), lt_qu g s d (by omega), lt_ce g s d (by omega), h, Option.none_or, Option.some_or])
theorem at_sy {g : Guard} {s : Src} {d : Nat} {i : Instr} (hd : 0x340 ≤ d) (h : (syCodes g s).lookup d = some i) : instrAt g s d = some i :=
  instrAt_row (by simp only [actCodes, lookup_app, lt_push g s d (by omega), lt_ia0 g s d (by omega), lt_ia1 g s d (by omega), lt_im g s d (by omega), lt_fa g s d (by omega), lt_cu g s d (by omega), lt_vu0 g s d (by omega), lt_vu1 g s d (by omega), lt_au g s d (by omega), lt_qu g s d (by omega), lt_ce g s d (by omega), lt_mx g s d (by omega), h, Option.none_or, Option.some_or])
theorem at_xu {g : Guard} {s : Src} {d : Nat} {i : Instr} (hd : 0x380 ≤ d) (h : (xuCodes g s).lookup d = some i) : instrAt g s d = some i :=
  instrAt_row (by simp only [actCodes, lookup_app, lt_push g s d (by omega), lt_ia0 g s d (by omega), lt_ia1 g s d (by omega), lt_im g s d (by omega), lt_fa g s d (by omega), lt_cu g s d (by omega), lt_vu0 g s d (by omega), lt_vu1 g s d (by omega), lt_au g s d (by omega), lt_qu g s d (by omega), lt_ce g s d (by omega), lt_mx g s d (by omega), lt_sy g s d (by omega), h, Option.none_or])

theorem dst_g : ∀ i : BitVec 6, dstOf i.toNat = some (.g i) ∧ i.toNat ∉ actKeys := by decide +kernel
theorem dst_p : ∀ i : BitVec 4, dstOf (0x040 + i.toNat) = some (.p i) ∧ 0x040 + i.toNat ∉ actKeys := by decide +kernel
theorem dst_v : ∀ i : BitVec 5, dstOf (0x050 + i.toNat) = some (.v i) ∧ 0x050 + i.toNat ∉ actKeys := by decide +kernel
theorem dst_k : ∀ i : BitVec 3, dstOf (0x070 + i.toNat) = some (.k i) ∧ 0x070 + i.toNat ∉ actKeys := by decide +kernel
theorem dst_mp : ∀ i : BitVec 3, dstOf (0x300 + i.toNat) = some (.latch (.mp i)) ∧ 0x300 + i.toNat ∉ actKeys := by decide +kernel
theorem dst_tc : ∀ i : BitVec 4, dstOf (0x308 + i.toNat) = some (.latch (.tc i)) ∧ 0x308 + i.toNat ∉ actKeys := by decide +kernel
theorem dst_ia : ∀ i : BitVec 1, dstOf (0x080 + 0x40 * i.toNat) = some (.latch (.iaO i)) ∧ 0x080 + 0x40 * i.toNat ∉ actKeys := by decide +kernel
theorem dst_vuO : ∀ i : BitVec 1, dstOf (0x1C0 + 0x40 * i.toNat) = some (.latch (.vuO i)) ∧ 0x1C0 + 0x40 * i.toNat ∉ actKeys := by decide +kernel
theorem dst_vuP : ∀ i : BitVec 1, dstOf (0x1C1 + 0x40 * i.toNat) = some (.latch (.vuP i)) ∧ 0x1C1 + 0x40 * i.toNat ∉ actKeys := by decide +kernel
theorem dst_vuK : ∀ i : BitVec 1, dstOf (0x1C2 + 0x40 * i.toNat) = some (.latch (.vuK i)) ∧ 0x1C2 + 0x40 * i.toNat ∉ actKeys := by decide +kernel

/-- The code of a latch is that latch's alone. -/
theorem dst_latch (l : Latch) : dstOf l.code = some (.latch l) ∧ l.code ∉ actKeys := by
  cases l with
  | iaO i => exact dst_ia i
  | vuO i => exact dst_vuO i
  | vuP i => exact dst_vuP i
  | vuK i => exact dst_vuK i
  | mp i => exact dst_mp i
  | tc i => exact dst_tc i
  | _ => decide

/-- The code of a destination is that destination's alone: it pushes nothing and triggers nothing. -/
theorem dst_code (d : Dst) : dstOf d.code = some d ∧ d.code ∉ actKeys := by
  cases d with
  | g i => exact dst_g i
  | p i => exact dst_p i
  | v i => exact dst_v i
  | k i => exact dst_k i
  | latch l => exact dst_latch l
  | _ => decide

/-- A move to a register or a latch. -/
theorem instrAt_dst (g : Guard) (s : Src) (d : Dst) : instrAt g s d.code = some (plainMove g s d) := by
  have h := dst_code d
  rw [instrAt, lookup_none _ _ (act_keys g s ▸ h.2), h.1]
  rfl

/-- A row whose destination is a register or a latch. -/
theorem Coded.of_dst {i : Instr} {g : Guard} {s : Src} {d : Dst} (hw : i.wf = guardOk g) (he : encode i = slotOf g s d.code)
    (hi : plainMove g s d = i) : Coded.Statement i :=
  Coded.of_code hw (dst_code_lt d) he (hi ▸ instrAt_dst g s d)

theorem Coded.move (g : Guard) (s : Src) (d : Dst) : Coded.Statement (.move g s d) := fun h _ => by
  have h' : guardOk g = true ∧ s.isPlain = true := by simpa [Instr.wf] using h
  refine .inr ⟨g, s, d.code, h'.1, dst_code_lt d, rfl, ?_⟩
  rw [instrAt_dst]
  cases s <;> first | rfl | simp [Src.isPlain] at h'
theorem Coded.neverMove (a : BitVec 9) (b : BitVec 10) : Coded.Statement (.neverMove a b) := fun _ _ => .inl ⟨a, b, rfl⟩
theorem Coded.limm24 (g : Guard) (x : BitVec 24) (d : Dst) : Coded.Statement (.limm24 g x d) := Coded.of_dst (s := .limm24 x) rfl rfl rfl
theorem Coded.limm48 (g : Guard) (x : BitVec 48) (d : Dst) : Coded.Statement (.limm48 g x d) := Coded.of_dst (s := .limm48 x) rfl rfl rfl
theorem Coded.ldq (g : Guard) (d : Dst) : Coded.Statement (.ldq g d) := Coded.of_dst (s := .ldq) rfl rfl rfl
theorem Coded.vldq (g : Guard) (d : Dst) : Coded.Statement (.vldq g d) := Coded.of_dst (s := .vldq) rfl rfl rfl
theorem Coded.frecv (g : Guard) (d : Dst) : Coded.Statement (.frecv g d) := Coded.of_dst (s := .frecv) rfl rfl rfl
theorem Coded.qp (g : Guard) (h : BitVec 2) (d : Dst) : Coded.Statement (.qp g h d) := Coded.of_dst (s := .qp h) rfl rfl rfl
theorem Coded.qv (g : Guard) (h : BitVec 2) (d : Dst) : Coded.Statement (.qv g h d) := Coded.of_dst (s := .qv h) rfl rfl rfl

/-- A one-bit number. -/
theorem one_bit (u : BitVec 1) : u = 0#1 ∨ u = 1#1 := by revert u; decide

theorem Coded.sd (g : Guard) (s : Src) : Coded.Statement (.sd g s) :=
  Coded.of_code (d := 0x07A) rfl (by decide) rfl (at_push (by decide) rfl)
theorem Coded.vsd (g : Guard) (s : Src) : Coded.Statement (.vsd g s) :=
  Coded.of_code (d := 0x07B) rfl (by decide) rfl (at_push (by decide) rfl)
theorem Coded.fsend (g : Guard) (s : Src) : Coded.Statement (.fsend g s) :=
  Coded.of_code (d := 0x07C) rfl (by decide) rfl (at_push (by decide) rfl)
theorem Coded.fsendh (g : Guard) (s : Src) : Coded.Statement (.fsendh g s) :=
  Coded.of_code (d := 0x07D) rfl (by decide) rfl (at_push (by decide) rfl)
theorem Coded.add (g : Guard) (s : Src) (u : BitVec 1) : Coded.Statement (.add g s u) := by
  rcases one_bit u with rfl | rfl
  · exact Coded.of_code (d := 0x081) rfl (by decide) rfl (at_ia0 (by decide) rfl)
  · exact Coded.of_code (d := 0x0C1) rfl (by decide) rfl (at_ia1 (by decide) rfl)
theorem Coded.sub (g : Guard) (s : Src) (u : BitVec 1) : Coded.Statement (.sub g s u) := by
  rcases one_bit u with rfl | rfl
  · exact Coded.of_code (d := 0x082) rfl (by decide) rfl (at_ia0 (by decide) rfl)
  · exact Coded.of_code (d := 0x0C2) rfl (by decide) rfl (at_ia1 (by decide) rfl)
theorem Coded.add32 (g : Guard) (s : Src) (u : BitVec 1) : Coded.Statement (.add32 g s u) := by
  rcases one_bit u with rfl | rfl
  · exact Coded.of_code (d := 0x083) rfl (by decide) rfl (at_ia0 (by decide) rfl)
  · exact Coded.of_code (d := 0x0C3) rfl (by decide) rfl (at_ia1 (by decide) rfl)
theorem Coded.sub32 (g : Guard) (s : Src) (u : BitVec 1) : Coded.Statement (.sub32 g s u) := by
  rcases one_bit u with rfl | rfl
  · exact Coded.of_code (d := 0x084) rfl (by decide) rfl (at_ia0 (by decide) rfl)
  · exact Coded.of_code (d := 0x0C4) rfl (by decide) rfl (at_ia1 (by decide) rfl)
theorem Coded.and (g : Guard) (s : Src) (u : BitVec 1) : Coded.Statement (.and g s u) := by
  rcases one_bit u with rfl | rfl
  · exact Coded.of_code (d := 0x085) rfl (by decide) rfl (at_ia0 (by decide) rfl)
  · exact Coded.of_code (d := 0x0C5) rfl (by decide) rfl (at_ia1 (by decide) rfl)
theorem Coded.or (g : Guard) (s : Src) (u : BitVec 1) : Coded.Statement (.or g s u) := by
  rcases one_bit u with rfl | rfl
  · exact Coded.of_code (d := 0x086) rfl (by decide) rfl (at_ia0 (by decide) rfl)
  · exact Coded.of_code (d := 0x0C6) rfl (by decide) rfl (at_ia1 (by decide) rfl)
theorem Coded.xor (g : Guard) (s : Src) (u : BitVec 1) : Coded.Statement (.xor g s u) := by
  rcases one_bit u with rfl | rfl
  · exact Coded.of_code (d := 0x087) rfl (by decide) rfl (at_ia0 (by decide) rfl)
  · exact Coded.of_code (d := 0x0C7) rfl (by decide) rfl (at_ia1 (by decide) rfl)
theorem Coded.andn (g : Guard) (s : Src) (u : BitVec 1) : Coded.Statement (.andn g s u) := by
  rcases one_bit u with rfl | rfl
  · exact Coded.of_code (d := 0x088) rfl (by decide) rfl (at_ia0 (by decide) rfl)
  · exact Coded.of_code (d := 0x0C8) rfl (by decide) rfl (at_ia1 (by decide) rfl)
theorem Coded.shl (g : Guard) (s : Src) (u : BitVec 1) : Coded.Statement (.shl g s u) := by
  rcases one_bit u with rfl | rfl
  · exact Coded.of_code (d := 0x089) rfl (by decide) rfl (at_ia0 (by decide) rfl)
  · exact Coded.of_code (d := 0x0C9) rfl (by decide) rfl (at_ia1 (by decide) rfl)
theorem Coded.shr (g : Guard) (s : Src) (u : BitVec 1) : Coded.Statement (.shr g s u) := by
  rcases one_bit u with rfl | rfl
  · exact Coded.of_code (d := 0x08A) rfl (by decide) rfl (at_ia0 (by decide) rfl)
  · exact Coded.of_code (d := 0x0CA) rfl (by decide) rfl (at_ia1 (by decide) rfl)
theorem Coded.sar (g : Guard) (s : Src) (u : BitVec 1) : Coded.Statement (.sar g s u) := by
  rcases one_bit u with rfl | rfl
  · exact Coded.of_code (d := 0x08B) rfl (by decide) rfl (at_ia0 (by decide) rfl)
  · exact Coded.of_code (d := 0x0CB) rfl (by decide) rfl (at_ia1 (by decide) rfl)
theorem Coded.rol (g : Guard) (s : Src) (u : BitVec 1) : Coded.Statement (.rol g s u) := by
  rcases one_bit u with rfl | rfl
  · exact Coded.of_code (d := 0x08C) rfl (by decide) rfl (at_ia0 (by decide) rfl)
  · exact Coded.of_code (d := 0x0CC) rfl (by decide) rfl (at_ia1 (by decide) rfl)
theorem Coded.min (g : Guard) (s : Src) (u : BitVec 1) : Coded.Statement (.min g s u) := by
  rcases one_bit u with rfl | rfl
  · exact Coded.of_code (d := 0x08D) rfl (by decide) rfl (at_ia0 (by decide) rfl)
  · exact Coded.of_code (d := 0x0CD) rfl (by decide) rfl (at_ia1 (by decide) rfl)
theorem Coded.max (g : Guard) (s : Src) (u : BitVec 1) : Coded.Statement (.max g s u) := by
  rcases one_bit u with rfl | rfl
  · exact Coded.of_code (d := 0x08E) rfl (by decide) rfl (at_ia0 (by decide) rfl)
  · exact Coded.of_code (d := 0x0CE) rfl (by decide) rfl (at_ia1 (by decide) rfl)
theorem Coded.minu (g : Guard) (s : Src) (u : BitVec 1) : Coded.Statement (.minu g s u) := by
  rcases one_bit u with rfl | rfl
  · exact Coded.of_code (d := 0x08F) rfl (by decide) rfl (at_ia0 (by decide) rfl)
  · exact Coded.of_code (d := 0x0CF) rfl (by decide) rfl (at_ia1 (by decide) rfl)
theorem Coded.maxu (g : Guard) (s : Src) (u : BitVec 1) : Coded.Statement (.maxu g s u) := by
  rcases one_bit u with rfl | rfl
  · exact Coded.of_code (d := 0x090) rfl (by decide) rfl (at_ia0 (by decide) rfl)
  · exact Coded.of_code (d := 0x0D0) rfl (by decide) rfl (at_ia1 (by decide) rfl)
theorem Coded.seq (g : Guard) (s : Src) (u : BitVec 1) : Coded.Statement (.seq g s u) := by
  rcases one_bit u with rfl | rfl
  · exact Coded.of_code (d := 0x091) rfl (by decide) rfl (at_ia0 (by decide) rfl)
  · exact Coded.of_code (d := 0x0D1) rfl (by decide) rfl (at_ia1 (by decide) rfl)
theorem Coded.sne (g : Guard) (s : Src) (u : BitVec 1) : Coded.Statement (.sne g s u) := by
  rcases one_bit u with rfl | rfl
  · exact Coded.of_code (d := 0x092) rfl (by decide) rfl (at_ia0 (by decide) rfl)
  · exact Coded.of_code (d := 0x0D2) rfl (by decide) rfl (at_ia1 (by decide) rfl)
theorem Coded.slt (g : Guard) (s : Src) (u : BitVec 1) : Coded.Statement (.slt g s u) := by
  rcases one_bit u with rfl | rfl
  · exact Coded.of_code (d := 0x093) rfl (by decide) rfl (at_ia0 (by decide) rfl)
  · exact Coded.of_code (d := 0x0D3) rfl (by decide) rfl (at_ia1 (by decide) rfl)
theorem Coded.sltu (g : Guard) (s : Src) (u : BitVec 1) : Coded.Statement (.sltu g s u) := by
  rcases one_bit u with rfl | rfl
  · exact Coded.of_code (d := 0x094) rfl (by decide) rfl (at_ia0 (by decide) rfl)
  · exact Coded.of_code (d := 0x0D4) rfl (by decide) rfl (at_ia1 (by decide) rfl)
theorem Coded.sle (g : Guard) (s : Src) (u : BitVec 1) : Coded.Statement (.sle g s u) := by
  rcases one_bit u with rfl | rfl
  · exact Coded.of_code (d := 0x095) rfl (by decide) rfl (at_ia0 (by decide) rfl)
  · exact Coded.of_code (d := 0x0D5) rfl (by decide) rfl (at_ia1 (by decide) rfl)
theorem Coded.sleu (g : Guard) (s : Src) (u : BitVec 1) : Coded.Statement (.sleu g s u) := by
  rcases one_bit u with rfl | rfl
  · exact Coded.of_code (d := 0x096) rfl (by decide) rfl (at_ia0 (by decide) rfl)
  · exact Coded.of_code (d := 0x0D6) rfl (by decide) rfl (at_ia1 (by decide) rfl)
theorem Coded.sext8 (g : Guard) (s : Src) (u : BitVec 1) : Coded.Statement (.sext8 g s u) := by
  rcases one_bit u with rfl | rfl
  · exact Coded.of_code (d := 0x097) rfl (by decide) rfl (at_ia0 (by decide) rfl)
  · exact Coded.of_code (d := 0x0D7) rfl (by decide) rfl (at_ia1 (by decide) rfl)
theorem Coded.sext16 (g : Guard) (s : Src) (u : BitVec 1) : Coded.Statement (.sext16 g s u) := by
  rcases one_bit u with rfl | rfl
  · exact Coded.of_code (d := 0x098) rfl (by decide) rfl (at_ia0 (by decide) rfl)
  · exact Coded.of_code (d := 0x0D8) rfl (by decide) rfl (at_ia1 (by decide) rfl)
theorem Coded.sext32 (g : Guard) (s : Src) (u : BitVec 1) : Coded.Statement (.sext32 g s u) := by
  rcases one_bit u with rfl | rfl
  · exact Coded.of_code (d := 0x099) rfl (by decide) rfl (at_ia0 (by decide) rfl)
  · exact Coded.of_code (d := 0x0D9) rfl (by decide) rfl (at_ia1 (by decide) rfl)
theorem Coded.zext32 (g : Guard) (s : Src) (u : BitVec 1) : Coded.Statement (.zext32 g s u) := by
  rcases one_bit u with rfl | rfl
  · exact Coded.of_code (d := 0x09A) rfl (by decide) rfl (at_ia0 (by decide) rfl)
  · exact Coded.of_code (d := 0x0DA) rfl (by decide) rfl (at_ia1 (by decide) rfl)
theorem Coded.clz (g : Guard) (s : Src) (u : BitVec 1) : Coded.Statement (.clz g s u) := by
  rcases one_bit u with rfl | rfl
  · exact Coded.of_code (d := 0x09B) rfl (by decide) rfl (at_ia0 (by decide) rfl)
  · exact Coded.of_code (d := 0x0DB) rfl (by decide) rfl (at_ia1 (by decide) rfl)
theorem Coded.ctz (g : Guard) (s : Src) (u : BitVec 1) : Coded.Statement (.ctz g s u) := by
  rcases one_bit u with rfl | rfl
  · exact Coded.of_code (d := 0x09C) rfl (by decide) rfl (at_ia0 (by decide) rfl)
  · exact Coded.of_code (d := 0x0DC) rfl (by decide) rfl (at_ia1 (by decide) rfl)
theorem Coded.popc (g : Guard) (s : Src) (u : BitVec 1) : Coded.Statement (.popc g s u) := by
  rcases one_bit u with rfl | rfl
  · exact Coded.of_code (d := 0x09D) rfl (by decide) rfl (at_ia0 (by decide) rfl)
  · exact Coded.of_code (d := 0x0DD) rfl (by decide) rfl (at_ia1 (by decide) rfl)
theorem Coded.sh1add (g : Guard) (s : Src) (u : BitVec 1) : Coded.Statement (.sh1add g s u) := by
  rcases one_bit u with rfl | rfl
  · exact Coded.of_code (d := 0x09E) rfl (by decide) rfl (at_ia0 (by decide) rfl)
  · exact Coded.of_code (d := 0x0DE) rfl (by decide) rfl (at_ia1 (by decide) rfl)
theorem Coded.sh2add (g : Guard) (s : Src) (u : BitVec 1) : Coded.Statement (.sh2add g s u) := by
  rcases one_bit u with rfl | rfl
  · exact Coded.of_code (d := 0x09F) rfl (by decide) rfl (at_ia0 (by decide) rfl)
  · exact Coded.of_code (d := 0x0DF) rfl (by decide) rfl (at_ia1 (by decide) rfl)
theorem Coded.sh3add (g : Guard) (s : Src) (u : BitVec 1) : Coded.Statement (.sh3add g s u) := by
  rcases one_bit u with rfl | rfl
  · exact Coded.of_code (d := 0x0A0) rfl (by decide) rfl (at_ia0 (by decide) rfl)
  · exact Coded.of_code (d := 0x0E0) rfl (by decide) rfl (at_ia1 (by decide) rfl)
theorem Coded.pass (g : Guard) (s : Src) (u : BitVec 1) : Coded.Statement (.pass g s u) := by
  rcases one_bit u with rfl | rfl
  · exact Coded.of_code (d := 0x0A1) rfl (by decide) rfl (at_ia0 (by decide) rfl)
  · exact Coded.of_code (d := 0x0E1) rfl (by decide) rfl (at_ia1 (by decide) rfl)
theorem Coded.bext (g : Guard) (s : Src) (u : BitVec 1) : Coded.Statement (.bext g s u) := by
  rcases one_bit u with rfl | rfl
  · exact Coded.of_code (d := 0x0A2) rfl (by decide) rfl (at_ia0 (by decide) rfl)
  · exact Coded.of_code (d := 0x0E2) rfl (by decide) rfl (at_ia1 (by decide) rfl)
theorem Coded.mul (g : Guard) (s : Src) : Coded.Statement (.mul g s) :=
  Coded.of_code (d := 0x101) rfl (by decide) rfl (at_im (by decide) rfl)
theorem Coded.mulh (g : Guard) (s : Src) : Coded.Statement (.mulh g s) :=
  Coded.of_code (d := 0x102) rfl (by decide) rfl (at_im (by decide) rfl)
theorem Coded.mulhu (g : Guard) (s : Src) : Coded.Statement (.mulhu g s) :=
  Coded.of_code (d := 0x103) rfl (by decide) rfl (at_im (by decide) rfl)
theorem Coded.mul32 (g : Guard) (s : Src) : Coded.Statement (.mul32 g s) :=
  Coded.of_code (d := 0x104) rfl (by decide) rfl (at_im (by decide) rfl)
theorem Coded.div (g : Guard) (s : Src) : Coded.Statement (.div g s) :=
  Coded.of_code (d := 0x105) rfl (by decide) rfl (at_im (by decide) rfl)
theorem Coded.divu (g : Guard) (s : Src) : Coded.Statement (.divu g s) :=
  Coded.of_code (d := 0x106) rfl (by decide) rfl (at_im (by decide) rfl)
theorem Coded.rem (g : Guard) (s : Src) : Coded.Statement (.rem g s) :=
  Coded.of_code (d := 0x107) rfl (by decide) rfl (at_im (by decide) rfl)
theorem Coded.remu (g : Guard) (s : Src) : Coded.Statement (.remu g s) :=
  Coded.of_code (d := 0x108) rfl (by decide) rfl (at_im (by decide) rfl)
theorem Coded.fadd (g : Guard) (s : Src) : Coded.Statement (.fadd g s) :=
  Coded.of_code (d := 0x142) rfl (by decide) rfl (at_fa (by decide) rfl)
theorem Coded.fsub (g : Guard) (s : Src) : Coded.Statement (.fsub g s) :=
  Coded.of_code (d := 0x143) rfl (by decide) rfl (at_fa (by decide) rfl)
theorem Coded.fmul (g : Guard) (s : Src) : Coded.Statement (.fmul g s) :=
  Coded.of_code (d := 0x144) rfl (by decide) rfl (at_fa (by decide) rfl)
theorem Coded.ffma (g : Guard) (s : Src) : Coded.Statement (.ffma g s) :=
  Coded.of_code (d := 0x145) rfl (by decide) rfl (at_fa (by decide) rfl)
theorem Coded.fmin (g : Guard) (s : Src) : Coded.Statement (.fmin g s) :=
  Coded.of_code (d := 0x146) rfl (by decide) rfl (at_fa (by decide) rfl)
theorem Coded.fmax (g : Guard) (s : Src) : Coded.Statement (.fmax g s) :=
  Coded.of_code (d := 0x147) rfl (by decide) rfl (at_fa (by decide) rfl)
theorem Coded.feq (g : Guard) (s : Src) : Coded.Statement (.feq g s) :=
  Coded.of_code (d := 0x148) rfl (by decide) rfl (at_fa (by decide) rfl)
theorem Coded.flt (g : Guard) (s : Src) : Coded.Statement (.flt g s) :=
  Coded.of_code (d := 0x149) rfl (by decide) rfl (at_fa (by decide) rfl)
theorem Coded.fle (g : Guard) (s : Src) : Coded.Statement (.fle g s) :=
  Coded.of_code (d := 0x14A) rfl (by decide) rfl (at_fa (by decide) rfl)
theorem Coded.fun (g : Guard) (s : Src) : Coded.Statement (.fun g s) :=
  Coded.of_code (d := 0x14B) rfl (by decide) rfl (at_fa (by decide) rfl)
theorem Coded.fsqrt (g : Guard) (s : Src) : Coded.Statement (.fsqrt g s) :=
  Coded.of_code (d := 0x14C) rfl (by decide) rfl (at_fa (by decide) rfl)
theorem Coded.frcp (g : Guard) (s : Src) : Coded.Statement (.frcp g s) :=
  Coded.of_code (d := 0x14D) rfl (by decide) rfl (at_fa (by decide) rfl)
theorem Coded.fcvti (g : Guard) (s : Src) : Coded.Statement (.fcvti g s) :=
  Coded.of_code (d := 0x14E) rfl (by decide) rfl (at_fa (by decide) rfl)
theorem Coded.icvtf (g : Guard) (s : Src) : Coded.Statement (.icvtf g s) :=
  Coded.of_code (d := 0x14F) rfl (by decide) rfl (at_fa (by decide) rfl)
theorem Coded.dadd (g : Guard) (s : Src) : Coded.Statement (.dadd g s) :=
  Coded.of_code (d := 0x150) rfl (by decide) rfl (at_fa (by decide) rfl)
theorem Coded.dsub (g : Guard) (s : Src) : Coded.Statement (.dsub g s) :=
  Coded.of_code (d := 0x151) rfl (by decide) rfl (at_fa (by decide) rfl)
theorem Coded.dmul (g : Guard) (s : Src) : Coded.Statement (.dmul g s) :=
  Coded.of_code (d := 0x152) rfl (by decide) rfl (at_fa (by decide) rfl)
theorem Coded.dfma (g : Guard) (s : Src) : Coded.Statement (.dfma g s) :=
  Coded.of_code (d := 0x153) rfl (by decide) rfl (at_fa (by decide) rfl)
theorem Coded.fcvtd (g : Guard) (s : Src) : Coded.Statement (.fcvtd g s) :=
  Coded.of_code (d := 0x154) rfl (by decide) rfl (at_fa (by decide) rfl)
theorem Coded.dcvtf (g : Guard) (s : Src) : Coded.Statement (.dcvtf g s) :=
  Coded.of_code (d := 0x155) rfl (by decide) rfl (at_fa (by decide) rfl)
theorem Coded.br (g : Guard) (s : Src) : Coded.Statement (.br g s) :=
  Coded.of_code (d := 0x181) rfl (by decide) rfl (at_cu (by decide) rfl)
theorem Coded.brr (g : Guard) (s : Src) : Coded.Statement (.brr g s) :=
  Coded.of_code (d := 0x182) rfl (by decide) rfl (at_cu (by decide) rfl)
theorem Coded.call (g : Guard) (s : Src) : Coded.Statement (.call g s) :=
  Coded.of_code (d := 0x183) rfl (by decide) rfl (at_cu (by decide) rfl)
theorem Coded.callr (g : Guard) (s : Src) : Coded.Statement (.callr g s) :=
  Coded.of_code (d := 0x184) rfl (by decide) rfl (at_cu (by decide) rfl)
theorem Coded.ret (g : Guard) (s : Src) : Coded.Statement (.ret g s) :=
  Coded.of_code (d := 0x185) rfl (by decide) rfl (at_cu (by decide) rfl)
theorem Coded.loop (g : Guard) (s : Src) : Coded.Statement (.loop g s) :=
  Coded.of_code (d := 0x186) rfl (by decide) rfl (at_cu (by decide) rfl)
theorem Coded.lbrk (g : Guard) (s : Src) : Coded.Statement (.lbrk g s) :=
  Coded.of_code (d := 0x187) rfl (by decide) rfl (at_cu (by decide) rfl)
theorem Coded.vu0Vadd (g : Guard) (s : Src) : Coded.Statement (.vu0Vadd g s) :=
  Coded.of_code (d := 0x1C3) rfl (by decide) rfl (at_vu0 (by decide) rfl)
theorem Coded.vu1Vadd (g : Guard) (s : Src) : Coded.Statement (.vu1Vadd g s) :=
  Coded.of_code (d := 0x203) rfl (by decide) rfl (at_vu1 (by decide) rfl)
theorem Coded.vu0Vsub (g : Guard) (s : Src) : Coded.Statement (.vu0Vsub g s) :=
  Coded.of_code (d := 0x1C4) rfl (by decide) rfl (at_vu0 (by decide) rfl)
theorem Coded.vu1Vsub (g : Guard) (s : Src) : Coded.Statement (.vu1Vsub g s) :=
  Coded.of_code (d := 0x204) rfl (by decide) rfl (at_vu1 (by decide) rfl)
theorem Coded.vu0Vmul (g : Guard) (s : Src) : Coded.Statement (.vu0Vmul g s) :=
  Coded.of_code (d := 0x1C5) rfl (by decide) rfl (at_vu0 (by decide) rfl)
theorem Coded.vu1Vmul (g : Guard) (s : Src) : Coded.Statement (.vu1Vmul g s) :=
  Coded.of_code (d := 0x205) rfl (by decide) rfl (at_vu1 (by decide) rfl)
theorem Coded.vu0Vfma (g : Guard) (s : Src) : Coded.Statement (.vu0Vfma g s) :=
  Coded.of_code (d := 0x1C6) rfl (by decide) rfl (at_vu0 (by decide) rfl)
theorem Coded.vu1Vfma (g : Guard) (s : Src) : Coded.Statement (.vu1Vfma g s) :=
  Coded.of_code (d := 0x206) rfl (by decide) rfl (at_vu1 (by decide) rfl)
theorem Coded.vu0Vmin (g : Guard) (s : Src) : Coded.Statement (.vu0Vmin g s) :=
  Coded.of_code (d := 0x1C7) rfl (by decide) rfl (at_vu0 (by decide) rfl)
theorem Coded.vu1Vmin (g : Guard) (s : Src) : Coded.Statement (.vu1Vmin g s) :=
  Coded.of_code (d := 0x207) rfl (by decide) rfl (at_vu1 (by decide) rfl)
theorem Coded.vu0Vmax (g : Guard) (s : Src) : Coded.Statement (.vu0Vmax g s) :=
  Coded.of_code (d := 0x1C8) rfl (by decide) rfl (at_vu0 (by decide) rfl)
theorem Coded.vu1Vmax (g : Guard) (s : Src) : Coded.Statement (.vu1Vmax g s) :=
  Coded.of_code (d := 0x208) rfl (by decide) rfl (at_vu1 (by decide) rfl)
theorem Coded.vu0Vabs (g : Guard) (s : Src) : Coded.Statement (.vu0Vabs g s) :=
  Coded.of_code (d := 0x1C9) rfl (by decide) rfl (at_vu0 (by decide) rfl)
theorem Coded.vu1Vabs (g : Guard) (s : Src) : Coded.Statement (.vu1Vabs g s) :=
  Coded.of_code (d := 0x209) rfl (by decide) rfl (at_vu1 (by decide) rfl)
theorem Coded.vu0Vneg (g : Guard) (s : Src) : Coded.Statement (.vu0Vneg g s) :=
  Coded.of_code (d := 0x1CA) rfl (by decide) rfl (at_vu0 (by decide) rfl)
theorem Coded.vu1Vneg (g : Guard) (s : Src) : Coded.Statement (.vu1Vneg g s) :=
  Coded.of_code (d := 0x20A) rfl (by decide) rfl (at_vu1 (by decide) rfl)
theorem Coded.vu0Vceq (g : Guard) (s : Src) : Coded.Statement (.vu0Vceq g s) :=
  Coded.of_code (d := 0x1CB) rfl (by decide) rfl (at_vu0 (by decide) rfl)
theorem Coded.vu1Vceq (g : Guard) (s : Src) : Coded.Statement (.vu1Vceq g s) :=
  Coded.of_code (d := 0x20B) rfl (by decide) rfl (at_vu1 (by decide) rfl)
theorem Coded.vu0Vclt (g : Guard) (s : Src) : Coded.Statement (.vu0Vclt g s) :=
  Coded.of_code (d := 0x1CC) rfl (by decide) rfl (at_vu0 (by decide) rfl)
theorem Coded.vu1Vclt (g : Guard) (s : Src) : Coded.Statement (.vu1Vclt g s) :=
  Coded.of_code (d := 0x20C) rfl (by decide) rfl (at_vu1 (by decide) rfl)
theorem Coded.vu0Vcle (g : Guard) (s : Src) : Coded.Statement (.vu0Vcle g s) :=
  Coded.of_code (d := 0x1CD) rfl (by decide) rfl (at_vu0 (by decide) rfl)
theorem Coded.vu1Vcle (g : Guard) (s : Src) : Coded.Statement (.vu1Vcle g s) :=
  Coded.of_code (d := 0x20D) rfl (by decide) rfl (at_vu1 (by decide) rfl)
theorem Coded.vu0Vcun (g : Guard) (s : Src) : Coded.Statement (.vu0Vcun g s) :=
  Coded.of_code (d := 0x1CE) rfl (by decide) rfl (at_vu0 (by decide) rfl)
theorem Coded.vu1Vcun (g : Guard) (s : Src) : Coded.Statement (.vu1Vcun g s) :=
  Coded.of_code (d := 0x20E) rfl (by decide) rfl (at_vu1 (by decide) rfl)
theorem Coded.vu0Vsel (g : Guard) (s : Src) : Coded.Statement (.vu0Vsel g s) :=
  Coded.of_code (d := 0x1CF) rfl (by decide) rfl (at_vu0 (by decide) rfl)
theorem Coded.vu1Vsel (g : Guard) (s : Src) : Coded.Statement (.vu1Vsel g s) :=
  Coded.of_code (d := 0x20F) rfl (by decide) rfl (at_vu1 (by decide) rfl)
theorem Coded.vu0Vand (g : Guard) (s : Src) : Coded.Statement (.vu0Vand g s) :=
  Coded.of_code (d := 0x1D0) rfl (by decide) rfl (at_vu0 (by decide) rfl)
theorem Coded.vu1Vand (g : Guard) (s : Src) : Coded.Statement (.vu1Vand g s) :=
  Coded.of_code (d := 0x210) rfl (by decide) rfl (at_vu1 (by decide) rfl)
theorem Coded.vu0Vor (g : Guard) (s : Src) : Coded.Statement (.vu0Vor g s) :=
  Coded.of_code (d := 0x1D1) rfl (by decide) rfl (at_vu0 (by decide) rfl)
theorem Coded.vu1Vor (g : Guard) (s : Src) : Coded.Statement (.vu1Vor g s) :=
  Coded.of_code (d := 0x211) rfl (by decide) rfl (at_vu1 (by decide) rfl)
theorem Coded.vu0Vxor (g : Guard) (s : Src) : Coded.Statement (.vu0Vxor g s) :=
  Coded.of_code (d := 0x1D2) rfl (by decide) rfl (at_vu0 (by decide) rfl)
theorem Coded.vu1Vxor (g : Guard) (s : Src) : Coded.Statement (.vu1Vxor g s) :=
  Coded.of_code (d := 0x212) rfl (by decide) rfl (at_vu1 (by decide) rfl)
theorem Coded.vu0Vshl (g : Guard) (s : Src) : Coded.Statement (.vu0Vshl g s) :=
  Coded.of_code (d := 0x1D3) rfl (by decide) rfl (at_vu0 (by decide) rfl)
theorem Coded.vu1Vshl (g : Guard) (s : Src) : Coded.Statement (.vu1Vshl g s) :=
  Coded.of_code (d := 0x213) rfl (by decide) rfl (at_vu1 (by decide) rfl)
theorem Coded.vu0Vshr (g : Guard) (s : Src) : Coded.Statement (.vu0Vshr g s) :=
  Coded.of_code (d := 0x1D4) rfl (by decide) rfl (at_vu0 (by decide) rfl)
theorem Coded.vu1Vshr (g : Guard) (s : Src) : Coded.Statement (.vu1Vshr g s) :=
  Coded.of_code (d := 0x214) rfl (by decide) rfl (at_vu1 (by decide) rfl)
theorem Coded.vu0Vsar (g : Guard) (s : Src) : Coded.Statement (.vu0Vsar g s) :=
  Coded.of_code (d := 0x1D5) rfl (by decide) rfl (at_vu0 (by decide) rfl)
theorem Coded.vu1Vsar (g : Guard) (s : Src) : Coded.Statement (.vu1Vsar g s) :=
  Coded.of_code (d := 0x215) rfl (by decide) rfl (at_vu1 (by decide) rfl)
theorem Coded.vu0Vcvt (g : Guard) (s : Src) : Coded.Statement (.vu0Vcvt g s) :=
  Coded.of_code (d := 0x1D6) rfl (by decide) rfl (at_vu0 (by decide) rfl)
theorem Coded.vu1Vcvt (g : Guard) (s : Src) : Coded.Statement (.vu1Vcvt g s) :=
  Coded.of_code (d := 0x216) rfl (by decide) rfl (at_vu1 (by decide) rfl)
theorem Coded.vu0Vbcast (g : Guard) (s : Src) : Coded.Statement (.vu0Vbcast g s) :=
  Coded.of_code (d := 0x1D7) rfl (by decide) rfl (at_vu0 (by decide) rfl)
theorem Coded.vu1Vbcast (g : Guard) (s : Src) : Coded.Statement (.vu1Vbcast g s) :=
  Coded.of_code (d := 0x217) rfl (by decide) rfl (at_vu1 (by decide) rfl)
theorem Coded.vu0Vextr (g : Guard) (s : Src) : Coded.Statement (.vu0Vextr g s) :=
  Coded.of_code (d := 0x1D8) rfl (by decide) rfl (at_vu0 (by decide) rfl)
theorem Coded.vu1Vextr (g : Guard) (s : Src) : Coded.Statement (.vu1Vextr g s) :=
  Coded.of_code (d := 0x218) rfl (by decide) rfl (at_vu1 (by decide) rfl)
theorem Coded.vu0Vperm (g : Guard) (s : Src) : Coded.Statement (.vu0Vperm g s) :=
  Coded.of_code (d := 0x1D9) rfl (by decide) rfl (at_vu0 (by decide) rfl)
theorem Coded.vu1Vperm (g : Guard) (s : Src) : Coded.Statement (.vu1Vperm g s) :=
  Coded.of_code (d := 0x219) rfl (by decide) rfl (at_vu1 (by decide) rfl)
theorem Coded.vu0Vredadd (g : Guard) (s : Src) : Coded.Statement (.vu0Vredadd g s) :=
  Coded.of_code (d := 0x1DA) rfl (by decide) rfl (at_vu0 (by decide) rfl)
theorem Coded.vu1Vredadd (g : Guard) (s : Src) : Coded.Statement (.vu1Vredadd g s) :=
  Coded.of_code (d := 0x21A) rfl (by decide) rfl (at_vu1 (by decide) rfl)
theorem Coded.vu0Vredmax (g : Guard) (s : Src) : Coded.Statement (.vu0Vredmax g s) :=
  Coded.of_code (d := 0x1DB) rfl (by decide) rfl (at_vu0 (by decide) rfl)
theorem Coded.vu1Vredmax (g : Guard) (s : Src) : Coded.Statement (.vu1Vredmax g s) :=
  Coded.of_code (d := 0x21B) rfl (by decide) rfl (at_vu1 (by decide) rfl)
theorem Coded.vu0Vredmin (g : Guard) (s : Src) : Coded.Statement (.vu0Vredmin g s) :=
  Coded.of_code (d := 0x1DC) rfl (by decide) rfl (at_vu0 (by decide) rfl)
theorem Coded.vu1Vredmin (g : Guard) (s : Src) : Coded.Statement (.vu1Vredmin g s) :=
  Coded.of_code (d := 0x21C) rfl (by decide) rfl (at_vu1 (by decide) rfl)
theorem Coded.vu0Vexp2 (g : Guard) (s : Src) : Coded.Statement (.vu0Vexp2 g s) :=
  Coded.of_code (d := 0x1DD) rfl (by decide) rfl (at_vu0 (by decide) rfl)
theorem Coded.vu1Vexp2 (g : Guard) (s : Src) : Coded.Statement (.vu1Vexp2 g s) :=
  Coded.of_code (d := 0x21D) rfl (by decide) rfl (at_vu1 (by decide) rfl)
theorem Coded.vu0Vlog2 (g : Guard) (s : Src) : Coded.Statement (.vu0Vlog2 g s) :=
  Coded.of_code (d := 0x1DE) rfl (by decide) rfl (at_vu0 (by decide) rfl)
theorem Coded.vu1Vlog2 (g : Guard) (s : Src) : Coded.Statement (.vu1Vlog2 g s) :=
  Coded.of_code (d := 0x21E) rfl (by decide) rfl (at_vu1 (by decide) rfl)
theorem Coded.vu0Vrcp (g : Guard) (s : Src) : Coded.Statement (.vu0Vrcp g s) :=
  Coded.of_code (d := 0x1DF) rfl (by decide) rfl (at_vu0 (by decide) rfl)
theorem Coded.vu1Vrcp (g : Guard) (s : Src) : Coded.Statement (.vu1Vrcp g s) :=
  Coded.of_code (d := 0x21F) rfl (by decide) rfl (at_vu1 (by decide) rfl)
theorem Coded.vu0Vrsqrt (g : Guard) (s : Src) : Coded.Statement (.vu0Vrsqrt g s) :=
  Coded.of_code (d := 0x1E0) rfl (by decide) rfl (at_vu0 (by decide) rfl)
theorem Coded.vu1Vrsqrt (g : Guard) (s : Src) : Coded.Statement (.vu1Vrsqrt g s) :=
  Coded.of_code (d := 0x220) rfl (by decide) rfl (at_vu1 (by decide) rfl)
theorem Coded.vu0Vtanh (g : Guard) (s : Src) : Coded.Statement (.vu0Vtanh g s) :=
  Coded.of_code (d := 0x1E1) rfl (by decide) rfl (at_vu0 (by decide) rfl)
theorem Coded.vu1Vtanh (g : Guard) (s : Src) : Coded.Statement (.vu1Vtanh g s) :=
  Coded.of_code (d := 0x221) rfl (by decide) rfl (at_vu1 (by decide) rfl)
theorem Coded.vu0Vquant (g : Guard) (s : Src) : Coded.Statement (.vu0Vquant g s) :=
  Coded.of_code (d := 0x1E2) rfl (by decide) rfl (at_vu0 (by decide) rfl)
theorem Coded.vu1Vquant (g : Guard) (s : Src) : Coded.Statement (.vu1Vquant g s) :=
  Coded.of_code (d := 0x222) rfl (by decide) rfl (at_vu1 (by decide) rfl)
theorem Coded.vu0Vdeq (g : Guard) (s : Src) : Coded.Statement (.vu0Vdeq g s) :=
  Coded.of_code (d := 0x1E3) rfl (by decide) rfl (at_vu0 (by decide) rfl)
theorem Coded.vu1Vdeq (g : Guard) (s : Src) : Coded.Statement (.vu1Vdeq g s) :=
  Coded.of_code (d := 0x223) rfl (by decide) rfl (at_vu1 (by decide) rfl)
theorem Coded.vu0Vnf (g : Guard) (s : Src) : Coded.Statement (.vu0Vnf g s) :=
  Coded.of_code (d := 0x1E4) rfl (by decide) rfl (at_vu0 (by decide) rfl)
theorem Coded.vu1Vnf (g : Guard) (s : Src) : Coded.Statement (.vu1Vnf g s) :=
  Coded.of_code (d := 0x224) rfl (by decide) rfl (at_vu1 (by decide) rfl)
theorem Coded.vu0Vscan (g : Guard) (s : Src) : Coded.Statement (.vu0Vscan g s) :=
  Coded.of_code (d := 0x1E5) rfl (by decide) rfl (at_vu0 (by decide) rfl)
theorem Coded.vu1Vscan (g : Guard) (s : Src) : Coded.Statement (.vu1Vscan g s) :=
  Coded.of_code (d := 0x225) rfl (by decide) rfl (at_vu1 (by decide) rfl)
theorem Coded.vu0Vtopk (g : Guard) (s : Src) : Coded.Statement (.vu0Vtopk g s) :=
  Coded.of_code (d := 0x1E6) rfl (by decide) rfl (at_vu0 (by decide) rfl)
theorem Coded.vu1Vtopk (g : Guard) (s : Src) : Coded.Statement (.vu1Vtopk g s) :=
  Coded.of_code (d := 0x226) rfl (by decide) rfl (at_vu1 (by decide) rfl)
theorem Coded.vu0Vidx (g : Guard) (s : Src) : Coded.Statement (.vu0Vidx g s) :=
  Coded.of_code (d := 0x1E7) rfl (by decide) rfl (at_vu0 (by decide) rfl)
theorem Coded.vu1Vidx (g : Guard) (s : Src) : Coded.Statement (.vu1Vidx g s) :=
  Coded.of_code (d := 0x227) rfl (by decide) rfl (at_vu1 (by decide) rfl)
theorem Coded.ld8 (g : Guard) (s : Src) : Coded.Statement (.ld8 g s) :=
  Coded.of_code (d := 0x242) rfl (by decide) rfl (at_au (by decide) rfl)
theorem Coded.ld16 (g : Guard) (s : Src) : Coded.Statement (.ld16 g s) :=
  Coded.of_code (d := 0x243) rfl (by decide) rfl (at_au (by decide) rfl)
theorem Coded.ld32 (g : Guard) (s : Src) : Coded.Statement (.ld32 g s) :=
  Coded.of_code (d := 0x244) rfl (by decide) rfl (at_au (by decide) rfl)
theorem Coded.ld64 (g : Guard) (s : Src) : Coded.Statement (.ld64 g s) :=
  Coded.of_code (d := 0x245) rfl (by decide) rfl (at_au (by decide) rfl)
theorem Coded.vld (g : Guard) (s : Src) : Coded.Statement (.vld g s) :=
  Coded.of_code (d := 0x246) rfl (by decide) rfl (at_au (by decide) rfl)
theorem Coded.vldm (g : Guard) (s : Src) : Coded.Statement (.vldm g s) :=
  Coded.of_code (d := 0x247) rfl (by decide) rfl (at_au (by decide) rfl)
theorem Coded.vldg (g : Guard) (s : Src) : Coded.Statement (.vldg g s) :=
  Coded.of_code (d := 0x248) rfl (by decide) rfl (at_au (by decide) rfl)
theorem Coded.st8 (g : Guard) (s : Src) : Coded.Statement (.st8 g s) :=
  Coded.of_code (d := 0x249) rfl (by decide) rfl (at_au (by decide) rfl)
theorem Coded.st16 (g : Guard) (s : Src) : Coded.Statement (.st16 g s) :=
  Coded.of_code (d := 0x24A) rfl (by decide) rfl (at_au (by decide) rfl)
theorem Coded.st32 (g : Guard) (s : Src) : Coded.Statement (.st32 g s) :=
  Coded.of_code (d := 0x24B) rfl (by decide) rfl (at_au (by decide) rfl)
theorem Coded.st64 (g : Guard) (s : Src) : Coded.Statement (.st64 g s) :=
  Coded.of_code (d := 0x24C) rfl (by decide) rfl (at_au (by decide) rfl)
theorem Coded.vst (g : Guard) (s : Src) : Coded.Statement (.vst g s) :=
  Coded.of_code (d := 0x24D) rfl (by decide) rfl (at_au (by decide) rfl)
theorem Coded.vstm (g : Guard) (s : Src) : Coded.Statement (.vstm g s) :=
  Coded.of_code (d := 0x24E) rfl (by decide) rfl (at_au (by decide) rfl)
theorem Coded.vsts (g : Guard) (s : Src) : Coded.Statement (.vsts g s) :=
  Coded.of_code (d := 0x24F) rfl (by decide) rfl (at_au (by decide) rfl)
theorem Coded.ldblk (g : Guard) (s : Src) : Coded.Statement (.ldblk g s) :=
  Coded.of_code (d := 0x250) rfl (by decide) rfl (at_au (by decide) rfl)
theorem Coded.ldh (g : Guard) (s : Src) : Coded.Statement (.ldh g s) :=
  Coded.of_code (d := 0x251) rfl (by decide) rfl (at_au (by decide) rfl)
theorem Coded.amoadd (g : Guard) (s : Src) : Coded.Statement (.amoadd g s) :=
  Coded.of_code (d := 0x252) rfl (by decide) rfl (at_au (by decide) rfl)
theorem Coded.amomin (g : Guard) (s : Src) : Coded.Statement (.amomin g s) :=
  Coded.of_code (d := 0x253) rfl (by decide) rfl (at_au (by decide) rfl)
theorem Coded.amomax (g : Guard) (s : Src) : Coded.Statement (.amomax g s) :=
  Coded.of_code (d := 0x254) rfl (by decide) rfl (at_au (by decide) rfl)
theorem Coded.amoand (g : Guard) (s : Src) : Coded.Statement (.amoand g s) :=
  Coded.of_code (d := 0x255) rfl (by decide) rfl (at_au (by decide) rfl)
theorem Coded.amoor (g : Guard) (s : Src) : Coded.Statement (.amoor g s) :=
  Coded.of_code (d := 0x256) rfl (by decide) rfl (at_au (by decide) rfl)
theorem Coded.amoxor (g : Guard) (s : Src) : Coded.Statement (.amoxor g s) :=
  Coded.of_code (d := 0x257) rfl (by decide) rfl (at_au (by decide) rfl)
theorem Coded.amoswp (g : Guard) (s : Src) : Coded.Statement (.amoswp g s) :=
  Coded.of_code (d := 0x258) rfl (by decide) rfl (at_au (by decide) rfl)
theorem Coded.amocas (g : Guard) (s : Src) : Coded.Statement (.amocas g s) :=
  Coded.of_code (d := 0x259) rfl (by decide) rfl (at_au (by decide) rfl)
theorem Coded.amofadd (g : Guard) (s : Src) : Coded.Statement (.amofadd g s) :=
  Coded.of_code (d := 0x25A) rfl (by decide) rfl (at_au (by decide) rfl)
theorem Coded.qbind (g : Guard) (s : Src) : Coded.Statement (.qbind g s) :=
  Coded.of_code (d := 0x281) rfl (by decide) rfl (at_qu (by decide) rfl)
theorem Coded.qpush (g : Guard) (s : Src) : Coded.Statement (.qpush g s) :=
  Coded.of_code (d := 0x282) rfl (by decide) rfl (at_qu (by decide) rfl)
theorem Coded.qpushv (g : Guard) (s : Src) : Coded.Statement (.qpushv g s) :=
  Coded.of_code (d := 0x283) rfl (by decide) rfl (at_qu (by decide) rfl)
theorem Coded.qtry (g : Guard) (s : Src) : Coded.Statement (.qtry g s) :=
  Coded.of_code (d := 0x284) rfl (by decide) rfl (at_qu (by decide) rfl)
theorem Coded.qclose (g : Guard) (s : Src) : Coded.Statement (.qclose g s) :=
  Coded.of_code (d := 0x285) rfl (by decide) rfl (at_qu (by decide) rfl)
theorem Coded.qfmt (g : Guard) (s : Src) : Coded.Statement (.qfmt g s) :=
  Coded.of_code (d := 0x286) rfl (by decide) rfl (at_qu (by decide) rfl)
theorem Coded.qinfo (g : Guard) (s : Src) : Coded.Statement (.qinfo g s) :=
  Coded.of_code (d := 0x287) rfl (by decide) rfl (at_qu (by decide) rfl)
theorem Coded.cpy (g : Guard) (s : Src) : Coded.Statement (.cpy g s) :=
  Coded.of_code (d := 0x2C1) rfl (by decide) rfl (at_ce (by decide) rfl)
theorem Coded.chan (g : Guard) (s : Src) : Coded.Statement (.chan g s) :=
  Coded.of_code (d := 0x2C2) rfl (by decide) rfl (at_ce (by decide) rfl)
theorem Coded.cpyq (g : Guard) (s : Src) : Coded.Statement (.cpyq g s) :=
  Coded.of_code (d := 0x2C3) rfl (by decide) rfl (at_ce (by decide) rfl)
theorem Coded.bini (g : Guard) (s : Src) : Coded.Statement (.bini g s) :=
  Coded.of_code (d := 0x2C4) rfl (by decide) rfl (at_ce (by decide) rfl)
theorem Coded.bexp (g : Guard) (s : Src) : Coded.Statement (.bexp g s) :=
  Coded.of_code (d := 0x2C5) rfl (by decide) rfl (at_ce (by decide) rfl)
theorem Coded.barr (g : Guard) (s : Src) : Coded.Statement (.barr g s) :=
  Coded.of_code (d := 0x2C6) rfl (by decide) rfl (at_ce (by decide) rfl)
theorem Coded.bwait (g : Guard) (s : Src) : Coded.Statement (.bwait g s) :=
  Coded.of_code (d := 0x2C7) rfl (by decide) rfl (at_ce (by decide) rfl)
theorem Coded.cabt (g : Guard) (s : Src) : Coded.Statement (.cabt g s) :=
  Coded.of_code (d := 0x2C8) rfl (by decide) rfl (at_ce (by decide) rfl)
theorem Coded.mcall (g : Guard) (s : Src) : Coded.Statement (.mcall g s) :=
  Coded.of_code (d := 0x318) rfl (by decide) rfl (at_mx (by decide) rfl)
theorem Coded.mgrant (g : Guard) (s : Src) : Coded.Statement (.mgrant g s) :=
  Coded.of_code (d := 0x319) rfl (by decide) rfl (at_mx (by decide) rfl)
theorem Coded.mrel (g : Guard) (s : Src) : Coded.Statement (.mrel g s) :=
  Coded.of_code (d := 0x31A) rfl (by decide) rfl (at_mx (by decide) rfl)
theorem Coded.mstat (g : Guard) (s : Src) : Coded.Statement (.mstat g s) :=
  Coded.of_code (d := 0x31B) rfl (by decide) rfl (at_mx (by decide) rfl)
theorem Coded.mwr (g : Guard) (s : Src) : Coded.Statement (.mwr g s) :=
  Coded.of_code (d := 0x31C) rfl (by decide) rfl (at_mx (by decide) rfl)
theorem Coded.mabt (g : Guard) (s : Src) : Coded.Statement (.mabt g s) :=
  Coded.of_code (d := 0x31D) rfl (by decide) rfl (at_mx (by decide) rfl)
theorem Coded.wait (g : Guard) (s : Src) : Coded.Statement (.wait g s) :=
  Coded.of_code (d := 0x341) rfl (by decide) rfl (at_sy (by decide) rfl)
theorem Coded.fence (g : Guard) (s : Src) : Coded.Statement (.fence g s) :=
  Coded.of_code (d := 0x342) rfl (by decide) rfl (at_sy (by decide) rfl)
theorem Coded.acq (g : Guard) (s : Src) : Coded.Statement (.acq g s) :=
  Coded.of_code (d := 0x343) rfl (by decide) rfl (at_sy (by decide) rfl)
theorem Coded.rel (g : Guard) (s : Src) : Coded.Statement (.rel g s) :=
  Coded.of_code (d := 0x344) rfl (by decide) rfl (at_sy (by decide) rfl)
theorem Coded.ctlr (g : Guard) (s : Src) : Coded.Statement (.ctlr g s) :=
  Coded.of_code (d := 0x345) rfl (by decide) rfl (at_sy (by decide) rfl)
theorem Coded.ctlw (g : Guard) (s : Src) : Coded.Statement (.ctlw g s) :=
  Coded.of_code (d := 0x346) rfl (by decide) rfl (at_sy (by decide) rfl)
theorem Coded.trap (g : Guard) (s : Src) : Coded.Statement (.trap g s) :=
  Coded.of_code (d := 0x347) rfl (by decide) rfl (at_sy (by decide) rfl)
theorem Coded.eret (g : Guard) (s : Src) : Coded.Statement (.eret g s) :=
  Coded.of_code (d := 0x348) rfl (by decide) rfl (at_sy (by decide) rfl)
theorem Coded.yield (g : Guard) (s : Src) : Coded.Statement (.yield g s) :=
  Coded.of_code (d := 0x349) rfl (by decide) rfl (at_sy (by decide) rfl)
theorem Coded.spawn (g : Guard) (s : Src) : Coded.Statement (.spawn g s) :=
  Coded.of_code (d := 0x34A) rfl (by decide) rfl (at_sy (by decide) rfl)
theorem Coded.fso (g : Guard) (s : Src) : Coded.Statement (.fso g s) :=
  Coded.of_code (d := 0x34B) rfl (by decide) rfl (at_sy (by decide) rfl)
theorem Coded.fsc (g : Guard) (s : Src) : Coded.Statement (.fsc g s) :=
  Coded.of_code (d := 0x34C) rfl (by decide) rfl (at_sy (by decide) rfl)
theorem Coded.fsw (g : Guard) (s : Src) : Coded.Statement (.fsw g s) :=
  Coded.of_code (d := 0x34D) rfl (by decide) rfl (at_sy (by decide) rfl)
theorem Coded.tbar (g : Guard) (s : Src) : Coded.Statement (.tbar g s) :=
  Coded.of_code (d := 0x34E) rfl (by decide) rfl (at_sy (by decide) rfl)
theorem Coded.park (g : Guard) (s : Src) : Coded.Statement (.park g s) :=
  Coded.of_code (d := 0x34F) rfl (by decide) rfl (at_sy (by decide) rfl)
theorem Coded.gbind (g : Guard) (s : Src) : Coded.Statement (.gbind g s) :=
  Coded.of_code (d := 0x381) rfl (by decide) rfl (at_xu (by decide) rfl)
theorem Coded.gstep (g : Guard) (s : Src) : Coded.Statement (.gstep g s) :=
  Coded.of_code (d := 0x382) rfl (by decide) rfl (at_xu (by decide) rfl)
theorem Coded.gwait (g : Guard) (s : Src) : Coded.Statement (.gwait g s) :=
  Coded.of_code (d := 0x383) rfl (by decide) rfl (at_xu (by decide) rfl)
theorem Coded.gqry (g : Guard) (s : Src) : Coded.Statement (.gqry g s) :=
  Coded.of_code (d := 0x384) rfl (by decide) rfl (at_xu (by decide) rfl)
theorem Coded.xscore (g : Guard) (s : Src) : Coded.Statement (.xscore g s) :=
  Coded.of_code (d := 0x385) rfl (by decide) rfl (at_xu (by decide) rfl)
theorem Coded.xsettle (g : Guard) (s : Src) : Coded.Statement (.xsettle g s) :=
  Coded.of_code (d := 0x386) rfl (by decide) rfl (at_xu (by decide) rfl)
theorem Coded.xemit (g : Guard) (s : Src) : Coded.Statement (.xemit g s) :=
  Coded.of_code (d := 0x387) rfl (by decide) rfl (at_xu (by decide) rfl)
theorem Coded.xpref (g : Guard) (s : Src) : Coded.Statement (.xpref g s) :=
  Coded.of_code (d := 0x388) rfl (by decide) rfl (at_xu (by decide) rfl)
theorem Coded.xqry (g : Guard) (s : Src) : Coded.Statement (.xqry g s) :=
  Coded.of_code (d := 0x389) rfl (by decide) rfl (at_xu (by decide) rfl)
theorem Coded.gvobs (g : Guard) (s : Src) : Coded.Statement (.gvobs g s) :=
  Coded.of_code (d := 0x38A) rfl (by decide) rfl (at_xu (by decide) rfl)
theorem Coded.gvget (g : Guard) (s : Src) : Coded.Statement (.gvget g s) :=
  Coded.of_code (d := 0x38B) rfl (by decide) rfl (at_xu (by decide) rfl)
theorem Coded.gvepoch (g : Guard) (s : Src) : Coded.Statement (.gvepoch g s) :=
  Coded.of_code (d := 0x38C) rfl (by decide) rfl (at_xu (by decide) rfl)
theorem Coded.gvpin (g : Guard) (s : Src) : Coded.Statement (.gvpin g s) :=
  Coded.of_code (d := 0x38D) rfl (by decide) rfl (at_xu (by decide) rfl)
theorem Coded.bundleIssue : Coded.Statement (.bundleIssue) := Coded.of_not_slot rfl
theorem Coded.resultDelivery : Coded.Statement (.resultDelivery) := Coded.of_not_slot rfl
theorem Coded.contextSwitch : Coded.Statement (.contextSwitch) := Coded.of_not_slot rfl
theorem Coded.systemReturn : Coded.Statement (.systemReturn) := Coded.of_not_slot rfl
theorem Coded.debugResume : Coded.Statement (.debugResume) := Coded.of_not_slot rfl
theorem Coded.wdog : Coded.Statement (.wdog) := Coded.of_not_slot rfl
theorem Coded.laqSend : Coded.Statement (.laqSend) := Coded.of_not_slot rfl
theorem Coded.ldqEntryLand : Coded.Statement (.ldqEntryLand) := Coded.of_not_slot rfl
theorem Coded.saqDrain : Coded.Statement (.saqDrain) := Coded.of_not_slot rfl
theorem Coded.storePerform : Coded.Statement (.storePerform) := Coded.of_not_slot rfl
theorem Coded.homeAccessArrival : Coded.Statement (.homeAccessArrival) := Coded.of_not_slot rfl
theorem Coded.writeThroughAck : Coded.Statement (.writeThroughAck) := Coded.of_not_slot rfl
theorem Coded.pagerFillStart : Coded.Statement (.pagerFillStart) := Coded.of_not_slot rfl
theorem Coded.claimComplete : Coded.Statement (.claimComplete) := Coded.of_not_slot rfl
theorem Coded.pageFillComplete : Coded.Statement (.pageFillComplete) := Coded.of_not_slot rfl
theorem Coded.acqAtHome : Coded.Statement (.acqAtHome) := Coded.of_not_slot rfl
theorem Coded.relAtHome : Coded.Statement (.relAtHome) := Coded.of_not_slot rfl
theorem Coded.waiterRetry : Coded.Statement (.waiterRetry) := Coded.of_not_slot rfl
theorem Coded.amoPerform : Coded.Statement (.amoPerform) := Coded.of_not_slot rfl
theorem Coded.dispatchRound : Coded.Statement (.dispatchRound) := Coded.of_not_slot rfl
theorem Coded.workerStart : Coded.Statement (.workerStart) := Coded.of_not_slot rfl
theorem Coded.launchComplete : Coded.Statement (.launchComplete) := Coded.of_not_slot rfl
theorem Coded.teamMessageArrival : Coded.Statement (.teamMessageArrival) := Coded.of_not_slot rfl
theorem Coded.scopeRemoteRequest : Coded.Statement (.scopeRemoteRequest) := Coded.of_not_slot rfl
theorem Coded.scopeDecrement : Coded.Statement (.scopeDecrement) := Coded.of_not_slot rfl
theorem Coded.stageEntryVisible : Coded.Statement (.stageEntryVisible) := Coded.of_not_slot rfl
theorem Coded.stageSlotFreed : Coded.Statement (.stageSlotFreed) := Coded.of_not_slot rfl
theorem Coded.balancerInterval : Coded.Statement (.balancerInterval) := Coded.of_not_slot rfl
theorem Coded.energyChargeArrival : Coded.Statement (.energyChargeArrival) := Coded.of_not_slot rfl
theorem Coded.watchdogPre : Coded.Statement (.watchdogPre) := Coded.of_not_slot rfl
theorem Coded.watchdogKill : Coded.Statement (.watchdogKill) := Coded.of_not_slot rfl
theorem Coded.watchdogFence : Coded.Statement (.watchdogFence) := Coded.of_not_slot rfl
theorem Coded.preemptSave : Coded.Statement (.preemptSave) := Coded.of_not_slot rfl
theorem Coded.restore : Coded.Statement (.restore) := Coded.of_not_slot rfl
theorem Coded.spillWrite : Coded.Statement (.spillWrite) := Coded.of_not_slot rfl
theorem Coded.tenantViolation : Coded.Statement (.tenantViolation) := Coded.of_not_slot rfl
theorem Coded.viReset : Coded.Statement (.viReset) := Coded.of_not_slot rfl
theorem Coded.registerWrite : Coded.Statement (.registerWrite) := Coded.of_not_slot rfl
theorem Coded.launchPacket : Coded.Statement (.launchPacket) := Coded.of_not_slot rfl
theorem Coded.bodyRetry : Coded.Statement (.bodyRetry) := Coded.of_not_slot rfl
theorem Coded.compassEntryWrite : Coded.Statement (.compassEntryWrite) := Coded.of_not_slot rfl
theorem Coded.ladderWrite : Coded.Statement (.ladderWrite) := Coded.of_not_slot rfl
theorem Coded.larderEntryWrite : Coded.Statement (.larderEntryWrite) := Coded.of_not_slot rfl
theorem Coded.groupEntryWrite : Coded.Statement (.groupEntryWrite) := Coded.of_not_slot rfl
theorem Coded.ueCommand : Coded.Statement (.ueCommand) := Coded.of_not_slot rfl
theorem Coded.ueInboundWrite : Coded.Statement (.ueInboundWrite) := Coded.of_not_slot rfl
theorem Coded.thermalThrottle : Coded.Statement (.thermalThrottle) := Coded.of_not_slot rfl
theorem Coded.thermalShutdown : Coded.Statement (.thermalShutdown) := Coded.of_not_slot rfl
theorem Coded.coldReset : Coded.Statement (.coldReset) := Coded.of_not_slot rfl
theorem Coded.laneFailure : Coded.Statement (.laneFailure) := Coded.of_not_slot rfl
theorem Coded.copyCommandStart : Coded.Statement (.copyCommandStart) := Coded.of_not_slot rfl
theorem Coded.copyPiece : Coded.Statement (.copyPiece) := Coded.of_not_slot rfl
theorem Coded.copyCompletion : Coded.Statement (.copyCompletion) := Coded.of_not_slot rfl
theorem Coded.channelStep : Coded.Statement (.channelStep) := Coded.of_not_slot rfl
theorem Coded.firmwarePath : Coded.Statement (.firmwarePath) := Coded.of_not_slot rfl
theorem Coded.barrierUpdate : Coded.Statement (.barrierUpdate) := Coded.of_not_slot rfl
theorem Coded.bwaitReply : Coded.Statement (.bwaitReply) := Coded.of_not_slot rfl
theorem Coded.matrixCallStart : Coded.Statement (.matrixCallStart) := Coded.of_not_slot rfl
theorem Coded.bankGrant : Coded.Statement (.bankGrant) := Coded.of_not_slot rfl
theorem Coded.halt : Coded.Statement (.halt) := Coded.of_not_slot rfl
theorem Coded.tld : Coded.Statement (.tld) := Coded.of_not_slot rfl
theorem Coded.tst : Coded.Statement (.tst) := Coded.of_not_slot rfl
theorem Coded.tzero : Coded.Statement (.tzero) := Coded.of_not_slot rfl
theorem Coded.mma : Coded.Statement (.mma) := Coded.of_not_slot rfl
theorem Coded.retire : Coded.Statement (.retire) := Coded.of_not_slot rfl
theorem Coded.scale : Coded.Statement (.scale) := Coded.of_not_slot rfl
theorem Coded.microLoop : Coded.Statement (.microLoop) := Coded.of_not_slot rfl
theorem Coded.padd : Coded.Statement (.padd) := Coded.of_not_slot rfl
theorem Coded.signal : Coded.Statement (.signal) := Coded.of_not_slot rfl
theorem Coded.teamsync : Coded.Statement (.teamsync) := Coded.of_not_slot rfl
theorem Coded.compassContribution : Coded.Statement (.compassContribution) := Coded.of_not_slot rfl
theorem Coded.compassEpoch : Coded.Statement (.compassEpoch) := Coded.of_not_slot rfl
theorem Coded.compassObsAccept : Coded.Statement (.compassObsAccept) := Coded.of_not_slot rfl
theorem Coded.compassPinAccept : Coded.Statement (.compassPinAccept) := Coded.of_not_slot rfl
theorem Coded.slabSend : Coded.Statement (.slabSend) := Coded.of_not_slot rfl
theorem Coded.localFill : Coded.Statement (.localFill) := Coded.of_not_slot rfl
theorem Coded.slabDelivery : Coded.Statement (.slabDelivery) := Coded.of_not_slot rfl
theorem Coded.ldhCheck : Coded.Statement (.ldhCheck) := Coded.of_not_slot rfl
theorem Coded.stalehaloTimeout : Coded.Statement (.stalehaloTimeout) := Coded.of_not_slot rfl
theorem Coded.proposalArrive : Coded.Statement (.proposalArrive) := Coded.of_not_slot rfl
theorem Coded.expertFillStart : Coded.Statement (.expertFillStart) := Coded.of_not_slot rfl
theorem Coded.expertFillComplete : Coded.Statement (.expertFillComplete) := Coded.of_not_slot rfl
theorem Coded.expertFillFail : Coded.Statement (.expertFillFail) := Coded.of_not_slot rfl
theorem Coded.walkBatchStart : Coded.Statement (.walkBatchStart) := Coded.of_not_slot rfl
theorem Coded.blockDispatch : Coded.Statement (.blockDispatch) := Coded.of_not_slot rfl
theorem Coded.waiterPoolRetry : Coded.Statement (.waiterPoolRetry) := Coded.of_not_slot rfl
theorem Coded.ringSlotAllocation : Coded.Statement (.ringSlotAllocation) := Coded.of_not_slot rfl
theorem Coded.flitArrival : Coded.Statement (.flitArrival) := Coded.of_not_slot rfl
theorem Coded.fabricMessageSend : Coded.Statement (.fabricMessageSend) := Coded.of_not_slot rfl
theorem Coded.fabricAccessPerform : Coded.Statement (.fabricAccessPerform) := Coded.of_not_slot rfl
theorem Coded.fabricMessageDelivery : Coded.Statement (.fabricMessageDelivery) := Coded.of_not_slot rfl
theorem Coded.fabricResponse : Coded.Statement (.fabricResponse) := Coded.of_not_slot rfl
theorem Coded.multicastPacket : Coded.Statement (.multicastPacket) := Coded.of_not_slot rfl
theorem Coded.reductionContribution : Coded.Statement (.reductionContribution) := Coded.of_not_slot rfl
theorem Coded.reductionRetry : Coded.Statement (.reductionRetry) := Coded.of_not_slot rfl
theorem Coded.coreReset : Coded.Statement (.coreReset) := Coded.of_not_slot rfl
theorem Coded.nvmeFailure : Coded.Statement (.nvmeFailure) := Coded.of_not_slot rfl

end Sys2Proof.Laws
end

