-- ==== Sys2Proof/Tests/Slice0.lean ====
section
/-!
SUPPORT. Tests of the model: words of the spec's encodings, terms that are not instructions, single steps whose results the spec works out or that
follow by hand from its rules, and for each statement states that meet its hypotheses.
-/

-- One after another: side by side they take too much memory.
set_option Elab.async false

open Sys2Proof Sys2Proof.Machine

namespace Sys2Proof.Tests

/-! ## States to test in -/

/-- Reset, with a bare worker on context 0 of core 0 that fetches a bundle of never-moves. -/
def boot : State := State.reset.withFetchWord 24 0x800000

/-- That worker. -/
def wk : Worker := bareWorker State.reset { mem := memWrite [] 0 (soloBytes 24 0x800000) }

/-- boot with its context changed. -/
def on (f : Ctx → Ctx) : State := boot.updCtx 0 0 f

/-- The state that an outcome gives. -/
def after (o : Host.Outcome State Fault Refusal) : State := match o with | .next t => t | _ => State.reset

/-- Context 0 of core 0 after an instruction in a state. -/
def ran (i : Instr) (s : State) : Ctx := (after (exec i s)).ctx 0 0

/-- The values, latencies left and flags of the results outstanding. -/
def results (t : Ctx) : List (Nat × Nat × Nat) := t.snap.map fun e => (e.val.toNat, e.left, e.flags.toNat)

/-- The vector of 32-bit lanes, lane 0 first. -/
def lanes32 (l : List Nat) : VWord := BitVec.ofNat 2048 (l.foldr (fun x n => x + 2 ^ 32 * n) 0)

/-! ## Words of the spec's encodings -/

/-- R30: (p3) g2 -> ia0.o. -/
theorem test_decode_guarded_latch : decodeTableWord 24 0x180880 = some (.move 3 (.g 2) (.latch (.iaO 0))) := by decide
/-- R14: g5 -> sy.o, and #1 -> sy.ctlw. -/
theorem test_decode_ctlw : decodeTableWord 24 0x001740 = some (.move 0 (.g 5) (.latch .syO)) ∧ decodeTableWord 24 0x050746 = some (.ctlw 0 (.short 0x41)) := by decide
/-- R92: k0 -> vu0.k, v1 -> vu0.o, v2 -> vu0.p, v3 -> vu0.vfma, and vu0.v -> v4. -/
theorem test_decode_vector : decodeTableWord 24 0x01C1C2 = some (.move 0 (.k 0) (.latch (.vuK 0))) ∧ decodeTableWord 24 0x0145C0 = some (.move 0 (.v 1) (.latch (.vuO 0)))
    ∧ decodeTableWord 24 0x0149C1 = some (.move 0 (.v 2) (.latch (.vuP 0))) ∧ decodeTableWord 24 0x014DC6 = some (.vu0Vfma 0 (.v 3))
    ∧ decodeTableWord 24 0x021054 = some (.move 0 (.port (.vuV 0)) (.v 4)) := by decide
/-- R114: g10 -> au.o, #64 -> au.x, #0 -> au.vld. -/
theorem test_decode_vld : decodeTableWord 24 0x002A40 = some (.move 0 (.g 10) (.latch .auO)) ∧ decodeTableWord 48 0x00004007FA41 = some (.limm24 0 0x40 (.latch .auX))
    ∧ decodeTableWord 24 0x050246 = some (.vld 0 (.short 0x40)) := by decide
/-- R195: g12 -> au.o, #63 -> au.x, #0 -> au.ldblk. -/
theorem test_decode_ldblk : decodeTableWord 24 0x003240 = some (.move 0 (.g 12) (.latch .auO)) ∧ decodeTableWord 24 0x05FE41 = some (.move 0 (.short 0x7F) (.latch .auX))
    ∧ decodeTableWord 24 0x050250 = some (.ldblk 0 (.short 0x40)) := by decide
/-- R217: #3 -> au.x, g11 -> sd, #0 -> au.amoor. -/
theorem test_decode_amo : decodeTableWord 24 0x050E41 = some (.move 0 (.short 0x43) (.latch .auX)) ∧ decodeTableWord 24 0x002C7A = some (.sd 0 (.g 11))
    ∧ decodeTableWord 24 0x050256 = some (.amoor 0 (.short 0x40)) := by decide
/-- R124: #0x04_F0FF -> sy.wait, and #-1 -> sy.wait. -/
theorem test_decode_wait : decodeTableWord 48 0x04F0FF07FB41 = some (.wait 0 (.limm24 0x04F0FF)) ∧ decodeTableWord 24 0x04FF41 = some (.wait 0 (.short 0x3F)) := by decide
/-- R290, R292: #0x10A0 -> xu.gvobs, and #0x30A0 -> xu.gvepoch. -/
theorem test_decode_compass : decodeTableWord 48 0x0010A007FB8A = some (.gvobs 0 (.limm24 0x10A0)) ∧ decodeTableWord 48 0x0030A007FB8C = some (.gvepoch 0 (.limm24 0x30A0)) := by decide
/-- R331, R332: #0x2003 -> xu.xpref, and #0x33 -> xu.xqry. -/
theorem test_decode_larder : decodeTableWord 48 0x00200307FB88 = some (.xpref 0 (.limm24 0x2003)) ∧ decodeTableWord 24 0x05CF89 = some (.xqry 0 (.short 0x73)) := by decide
/-- R346: #0 -> sy.eret, #1 -> sy.eret, and sy.r -> g9. -/
theorem test_decode_eret : decodeTableWord 24 0x050348 = some (.eret 0 (.short 0x40)) ∧ decodeTableWord 24 0x050748 = some (.eret 0 (.short 0x41))
    ∧ decodeTableWord 24 0x023409 = some (.move 0 (.port .sy) (.g 9)) := by decide
/-- R379: g4 -> fsendh, g5 -> fsend, frecv -> g6. -/
theorem test_decode_fabric : decodeTableWord 24 0x00107D = some (.fsendh 0 (.g 4)) ∧ decodeTableWord 24 0x00147C = some (.fsend 0 (.g 5))
    ∧ decodeTableWord 24 0x01F006 = some (.frecv 0 (.g 6)) := by decide
/-- R34, R36: the queue pops qp1 and qv2 have source codes 0x0A1 and 0x0A6; 0x07E is no destination. -/
theorem test_decode_queue_pops : decodeTableWord 24 0x028403 = some (.qp 0 1 (.g 3)) ∧ decodeTableWord 24 0x029803 = some (.qv 0 2 (.g 3))
    ∧ decodeTableWord 24 0x00007E = none ∧ decodeTableWord 24 0x01F47E = none := by decide
/-- R33: a LIMM48 move in slot 6 has one slot left after it, and is none; slot 7 is data. -/
theorem test_decode_limm48_at_end : decodeSlots [0x07FC05, 0x000001] = [{ guard := 0, dst := 5, res := .illsrc }] := by decide

/-! ## Terms that are not instructions -/

/-- R32: a guard of never makes no move, of any unit. -/
theorem test_ill_formed_guards : Instr.wf (.move 0b10000 (.g 1) (.g 2)) = false ∧ Instr.wf (.limm24 0b10000 5 (.g 2)) = false ∧ Instr.wf (.limm48 0b10000 5 (.g 2)) = false
    ∧ Instr.wf (.sd 0b10000 (.g 1)) = false ∧ Instr.wf (.ldq 0b10000 (.g 1)) = false ∧ Instr.wf (.qp 0b10000 1 (.g 1)) = false ∧ Instr.wf (.add 0b10000 (.g 1) 1) = false
    ∧ Instr.wf (.vu1Vtanh 0b10000 (.g 1)) = false ∧ Instr.wf (.mcall 0b10000 (.g 1)) = false ∧ Instr.wf (.xqry 0b10000 (.g 1)) = false := by decide
/-- R33: a pop or a long immediate is a row of its own, not the source of a plain move. -/
theorem test_ill_formed_sources : Instr.wf (.move 0 .ldq (.g 2)) = false ∧ Instr.wf (.move 0 .vldq (.v 2)) = false ∧ Instr.wf (.move 0 .frecv (.g 2)) = false
    ∧ Instr.wf (.move 0 (.qp 1) (.g 2)) = false ∧ Instr.wf (.move 0 (.qv 1) (.v 2)) = false ∧ Instr.wf (.move 0 (.limm24 5) (.g 2)) = false
    ∧ Instr.wf (.move 0 (.limm48 5) (.g 2)) = false := by decide
/-- The same move with a guard that is not never and a plain source is one. -/
theorem test_well_formed : Instr.wf (.move 0b11111 (.g 1) (.g 2)) = true ∧ Instr.wf (.limm24 0 5 (.g 2)) = true ∧ Instr.wf .dispatchRound = true := by decide

/-! ## Formats -/

/-- R71, R75: b8p4's code 0x3C is 0.75, as an f32 0x3F40_0000; 0x7F is an infinity and 0x80 NaN, and set NFS (R86). -/
theorem test_b8p4_to_f32 : (conv 0x3C 0x44 0x00 0 0).bits = 0x3F400000 ∧ (conv 0xBC 0x44 0x00 0 0).bits = 0xBF400000 ∧ (conv 0x3C 0x44 0x00 0 0).nfs = false
    ∧ (conv 0x7F 0x44 0x00 0 0).bits = 0x7F800000 ∧ (conv 0x80 0x44 0x00 0 0).bits = 0x7FC00000 ∧ (conv 0x80 0x44 0x00 0 0).nfs = true := by decide +kernel
/-- R77: 236 and 250 into b8p4 (M = 224) and b8p4f (M = 240), to nearest, toward zero and saturated. -/
theorem test_overflow_of_b8p4 : (roundFmt 0x44 0 0 (XR.ofInt 236).toRV).bits = 0x7F ∧ (roundFmt 0x44 0 0 (XR.ofInt 232).toRV).bits = 0x7E
    ∧ (roundFmt 0x4C 0 0 (XR.ofInt 236).toRV).bits = 0x7F ∧ (roundFmt 0x4C 0 0 (XR.ofInt 250).toRV).bits = 0x80 ∧ (roundFmt 0x44 1 0 (XR.ofInt 250).toRV).bits = 0x7E
    ∧ (roundFmt 0x4C 2 0 (XR.ofInt 250).toRV).bits = 0x7F ∧ (roundFmt 0x4C 0 0 (XR.ofInt 248).toRV).bits = 0x80 ∧ (roundFmt 0x4C 2 0 (XR.ofInt 248).toRV).bits = 0x7F := by
  decide +kernel
/-- R77: −0.003 into b8p4 is −3·2^−10, to nearest and toward zero. -/
theorem test_subnormal_of_b8p4 : (roundFmt 0x44 0 0 (RV.fin true (.quo 3 1000 0))).bits = 0x83
    ∧ (roundFmt 0x44 1 0 (RV.fin true (.quo 3 1000 0))).bits = 0x83 := by decide +kernel
/-- R79: with SEED 1 the generator gives 0x4082_2041; 1.3 into b4p3 under mode 0b11 is 1.25, code 5. -/
theorem test_stochastic : drawSeed 1 = 0x40822041 ∧ drawValue 0x40822041 = 8527937
    ∧ roundFmt 0x63 3 1 (.fin false (.quo 13 10 0)) = { bits := 5, nfs := false, inexact := true, seed := 0x40822041 } := by decide +kernel
/-- R82: 3.0, −1.0, 0.3 and 0.1 with twelve zeros in b4p3: scale code 0x80 and elements 6, A, 1, 0. -/
theorem test_block_encoding :
    let b := encodeBlock ([XR.ofInt 3, XR.ofInt (-1), f32.decode 0x3E99999A, f32.decode 0x3DCCCCCD] ++ List.replicate 12 (.fin false 0 0)) 0x63 0 0
    b.scale = 0x80 ∧ b.codes = [6, 0xA, 1, 0] ++ List.replicate 12 0 ∧ b.sclamp = false ∧ b.nfs = false := by decide +kernel

/-! ## Single moves -/

/-- R21: a move to p0 has no effect, and one to pk ignores bit 0 (R10). -/
theorem test_predicates : (ran (.move 0 (.short 0x40) (.p 0)) boot).p = 1 ∧ (ran (.move 0 (.short 0x42) .pk) boot).p = 3 := by decide +kernel
/-- R35: #-1 -> v3 sets bits 63:0 and clears the rest. -/
theorem test_immediate_to_vector : vget (ran (.move 0 (.short 0x3F) (.v 3)) (on fun t => { t with v := Vector.replicate 32 (BitVec.allOnes 2048) })).v 3 0 = 0xFFFFFFFFFFFFFFFF := by
  decide +kernel
/-- R48: a sum wraps; its result has one cycle left when it is triggered, and is due after the cycle. -/
theorem test_add_wraps : results (ran (.add 0 (.short 0x3F) 0) (on fun t => { t with lat := { t.lat with iaO := #v[5, 0] } })) = [(4, 0, 0)] := by decide +kernel
/-- R48, R50: bext with lo 8 and width 8 takes 0xCD; sar of a negative value by 63 gives all ones. -/
theorem test_bext : results (ran (.bext 0 (.limm24 0x1C8) 1) (on fun t => { t with lat := { t.lat with iaO := #v[0, 0xABCD00] } })) = [(0xCD, 0, 0)] := by decide +kernel
theorem test_sar : results (ran (.sar 0 (.short 0x7F) 0) (on fun t => { t with lat := { t.lat with iaO := #v[0x8000000000000000, 0] } })) = [(2 ^ 64 - 1, 0, 0)] := by decide +kernel
/-- R52: −7 div 2 is −3 with remainder −1; a divide holds im for 18 issue cycles. -/
theorem test_div : results (ran (.div 0 (.short 0x42)) (on fun t => { t with lat := { t.lat with imO := BitVec.ofInt 64 (-7) } })) = [(2 ^ 64 - 3, 17, 0)]
    ∧ (ran (.div 0 (.short 0x42)) boot).divBusy = 17 := by decide +kernel
theorem test_rem : results (ran (.rem 0 (.short 0x42)) (on fun t => { t with lat := { t.lat with imO := BitVec.ofInt 64 (-7) } })) = [(2 ^ 64 - 1, 17, 0)] := by decide +kernel
/-- R52: a divide by zero gives all ones and the dividend, and does not trap. -/
theorem test_divide_by_zero : results (ran (.divu 0 (.short 0x40)) (on fun t => { t with lat := { t.lat with imO := 9 } })) = [(2 ^ 64 - 1, 17, 0)]
    ∧ results (ran (.remu 0 (.short 0x40)) (on fun t => { t with lat := { t.lat with imO := 9 } })) = [(9, 17, 0)] := by decide +kernel
/-- R55, R56: 1.0 + 1.0 is 2.0 after four cycles; the largest f32 doubled overflows to an infinity and sets NFS. -/
theorem test_fadd : results (ran (.fadd 0 (.limm48 0x3F800000)) (on fun t => { t with lat := { t.lat with faO := 0x3F800000 } })) = [(0x40000000, 3, 0)]
    ∧ results (ran (.fadd 0 (.limm48 0x7F7FFFFF)) (on fun t => { t with lat := { t.lat with faO := 0x7F7FFFFF } })) = [(0x7F800000, 3, 1)] := by decide +kernel
/-- R56: ffma rounds once: (1 + 2^−23)² − 1 is 2^−22 + 2^−46, rounded to 2^−22·(1 + 2^−24) = 2^−22 to nearest even. -/
theorem test_ffma : results (ran (.ffma 0 (.limm48 0xBF800000)) (on fun t => { t with lat := { t.lat with faO := 0x3F800001, faP := 0x3F800001 } })) = [(0x34800000, 3, 0)] := by
  decide +kernel
/-- R58: 2^31 into i32 saturates to its greatest value, and sets NFS. -/
theorem test_fcvti : results (ran (.fcvti 0 (.limm48 0x4F000000)) boot) = [(0x7FFFFFFF, 3, 1)] := by decide +kernel
/-- R60, R61: call links to the third bundle that follows, and its target waits for two delay bundles. -/
theorem test_call : (ran (.call 0 (.short 0x49)) boot).lr = 3 ∧ (ran (.call 0 (.short 0x49)) boot).pc = 1
    ∧ ((ran (.call 0 (.short 0x49)) boot).xfer.map fun e => (e.target.toNat, e.left)) = [(9, 2)] := by decide +kernel
/-- R12, R14: ctlw of 7 to RM keeps its two bits. -/
theorem test_ctlw_rm : (ran (.ctlw 0 (.short 0x41)) (on fun t => { t with lat := { t.lat with syO := 7 } })).ctl.rm = 3 := by decide +kernel

/-! ## Vectors -/

/-- R98: −128 in i8 has the absolute value −128, or 127 under RM 0b10. -/
theorem test_vabs : ((vUnary XR.abs fun n => (n.natAbs : Int)) { a := 0, b := 0, k := 1, t := 0x80, fmt := 0x0A, rm := 0, seed := 0 }).v = some 0x80
    ∧ ((vUnary XR.abs fun n => (n.natAbs : Int)) { a := 0, b := 0, k := 1, t := 0x80, fmt := 0x0A, rm := 2, seed := 0 }).v = some 0x7F := by decide +kernel
/-- R101: 2^24, 1, 1 and −2^24 on lanes 0 to 3 add to 1.0 by the tree of vredadd, and to 0 from left to right by vscan. -/
theorem test_vredadd : (vReduceAdd { a := 0, b := 0, k := 0x1111, t := lanes32 [0x4B800000, 0x3F800000, 0x3F800000, 0xCB800000], fmt := 0, rm := 0, seed := 0 }).s
    = some 0x3F800000 := by decide +kernel
theorem test_vscan : (vScan { a := 0, b := 0, k := 0x1111, t := lanes32 [0x4B800000, 0x3F800000, 0x3F800000, 0xCB800000], fmt := 0, rm := 0, seed := 0 }).s = some 0
    ∧ (vScan { a := 0, b := 0, k := 0x1111, t := lanes32 [0x4B800000, 0x3F800000, 0x3F800000, 0xCB800000], fmt := 0, rm := 0, seed := 0 }).v
      = some (lanes32 [0x4B800000, 0x4B800000, 0x4B800000, 0]) := by decide +kernel
/-- R103: 1/3 in i8 is 0 to nearest; log2 of 0 saturates to −128 with NFS. -/
theorem test_transcendentals : (vTrans XR.rcp { a := 0, b := 0, k := 1, t := 3, fmt := 0x0A, rm := 0, seed := 0 }).v = some 0
    ∧ (vTrans log2RV { a := 0, b := 0, k := 1, t := 0, fmt := 0x0A, rm := 0, seed := 0 }).v = some 0x80
    ∧ (vTrans log2RV { a := 0, b := 0, k := 1, t := 0, fmt := 0x0A, rm := 0, seed := 0 }).nfs = true := by decide +kernel
/-- R104: the block of R82 through vquant: bytes 0xA6 and 0x01, scale 0x80, and four blocks. -/
theorem test_vquant : (vQuant { a := 0, b := 0x63, k := BitVec.allOnes 256, t := lanes32 [0x40400000, 0xBF800000, 0x3E99999A, 0x3DCCCCCD], fmt := 0, rm := 0, seed := 0 }).v = some 0x1A6
    ∧ (vQuant { a := 0, b := 0x63, k := BitVec.allOnes 256, t := lanes32 [0x40400000, 0xBF800000, 0x3E99999A, 0x3DCCCCCD], fmt := 0, rm := 0, seed := 0 }).m = some 0x80
    ∧ (vQuant { a := 0, b := 0x63, k := BitVec.allOnes 256, t := lanes32 [0x40400000, 0xBF800000, 0x3E99999A, 0x3DCCCCCD], fmt := 0, rm := 0, seed := 0 }).s = some 4 := by decide +kernel
/-- R107: the three greatest of eight lanes are 5, 1 and 3. -/
theorem test_vtopk : (vTopk { a := 0, b := 3, k := 0xFFFFFFFF, t := lanes32 [0x3F000000, 0x40000000, 0x7FC00000, 0x40000000, 0xBF800000, 0x40400000, 0x3E800000, 0x40000000]
                              fmt := 0, rm := 0, seed := 0 }).m = some 0x00F0F0F0
    ∧ ((vTopk { a := 0, b := 3, k := 0xFFFFFFFF, t := lanes32 [0x3F000000, 0x40000000, 0x7FC00000, 0x40000000, 0xBF800000, 0x40400000, 0x3E800000, 0x40000000]
                fmt := 0, rm := 0, seed := 0 }).v.map (·.toNat % 2 ^ 32)) = some 0xFF030105 := by decide +kernel
/-- R100: under i16, #0x0000_0002_0000_0001 -> vidx sets lane 127 to 255. -/
theorem test_vidx : ((vIndex { a := 0, b := 0, k := BitVec.allOnes 256, t := 0x0000000200000001, fmt := 0x09, rm := 0, seed := 0 }).v.map fun v => (v.extractLsb' 2032 16).toNat)
    = some 255 := by decide +kernel

/-! ## The dispatcher, places, engines -/

/-- R165: two draws of the generator from DSEED 1, and the queue of the bounds 3, 8 and 48 that 3 picks. -/
theorem test_lottery : drawNext 1 = 0x40822041 ∧ drawNext (drawNext 1) = 0x100041060C011441 ∧ pickAt id 0 [3, 5, 40] = some 3 ∧ pickAt id 3 [3, 5, 40] = some 5 := by decide
/-- R138: five points over two dies, and ten over six workers; R173: 13 clusters over 1, 37 and 130 tokens. -/
theorem test_splits : chunks 5 2 = [(0, 3), (3, 2)] ∧ chunks 10 6 = [(0, 2), (2, 2), (4, 2), (6, 2), (8, 1), (9, 1)] ∧ splitSizes 13 [1, 37, 130] = [0, 3, 10] := by decide
/-- R251: the control word of a 64 by 128 tile of b8p4. -/
theorem test_tile_word : tcFmt 0x04040044 = 0x44 ∧ tcRows 0x04040044 = 64 ∧ tcCols 0x04040044 = 128 ∧ tcBs 0x04040044 = false := by decide
/-- R282: the Compass entry word after the fifth epoch of the spec's example: version 9, ladder 0, position 2, ss 2, block size 32, b4p3. -/
theorem test_entry_word : entVer 0x00000009440800E3 = 9 ∧ entValid 0x00000009440800E3 = true ∧ entPos 0x00000009440800E3 = 2 ∧ entSs 0x00000009440800E3 = 2
    ∧ entBsz 0x00000009440800E3 = 1 ∧ entFmt 0x00000009440800E3 = 0x63 := by decide
/-- R240: a barrier of count 2: bexp of 8,192, then two barrs with the bytes outstanding and reported. -/
theorem test_barrier : let b := barUpdate 0 (.init 2)
    let c := barCheck (barUpdate (barCheck (barUpdate (barCheck (barUpdate b (.bytes 8192))) (.bytes (-4096)))) .arrive)
    barParr c = 1 ∧ barBytes c = 4096 ∧ barPhase c = false
      ∧ barPhase (barCheck (barUpdate (barUpdate c (.bytes (-4096))) .arrive)) = true ∧ barParr (barCheck (barUpdate (barUpdate c (.bytes (-4096))) .arrive)) = 2 := by decide
/-- R365: the way round from die 2 to station 8, and from module 3 to module 11 of 16. -/
theorem test_ring_way : goesBack 9 2 8 = true ∧ goesBack 16 3 11 = false ∧ goesBack 9 8 6 = true := by decide
/-- R386: 1.0, 1.0 and 2^24 by their ids, in both orders. -/
theorem test_reduction_order : combTree 1 3 [0x3F800000, 0x3F800000, 0x4B800000] = 0x4B800001 ∧ combTree 1 3 [0x4B800000, 0x3F800000, 0x3F800000] = 0x4B800000 := by
  decide +kernel
/-- R343, R347: BREAK of code 3 at index 41 gives the trap word 0x7001_8000_0000_0029, and the handler is fetched next. -/
theorem test_trap_word : (ran (.trap 0 (.short 0x43)) (on fun t => { t with pc := 41, ctl := { t.ctl with utvec := 0x201 } })).port.sy = 0x7001800000000029
    ∧ (ran (.trap 0 (.short 0x43)) (on fun t => { t with pc := 41, ctl := { t.ctl with utvec := 0x201 } })).pc = 0x100 := by decide +kernel
/-- R144: the fields of a scope id, and nil. -/
theorem test_scope_ids : scopeNil 0x0800 = true ∧ scopeDie 0x1305 = 3 ∧ scopeEntry 0x1305 = 5 ∧ scopeGen 0x1305 = 1 := by decide

end Sys2Proof.Tests

/-! ## States that meet the hypotheses of the statements about one bundle -/

namespace Sys2Proof.Tests

/-- Issuing as a Bool. -/
def issuing (s : State) (x : Nat) (w : Worker) : Bool :=
  decide (x < 4) && s.at.fenced == false && s.at.stall == 0 && s.at.running == some x && s.at.clim.1 == false
    && (s.at.lastWorker == some w.uid || s.at.paid == some w.uid) && (s.ctx s.focus.c x).worker == some w && (s.ctx s.focus.c x).runnable
    && (s.ctx s.focus.c x).stepDue == false && (s.ctx s.focus.c x).killReq == none && w.phase != .done && w.phase != .waiting
    && (s.ctx s.focus.c x).asNever == false

theorem issuing_of {s : State} {x : Nat} {w : Worker} (h : issuing s x w = true) : Issuing s x w := by
  simp only [issuing, Bool.and_eq_true, Bool.or_eq_true, beq_iff_eq, bne_iff_ne, decide_eq_true_eq] at h
  obtain ⟨⟨⟨⟨⟨⟨⟨⟨⟨⟨⟨⟨a, b⟩, c⟩, d⟩, e⟩, f⟩, g⟩, i⟩, j⟩, k⟩, l⟩, m⟩, n⟩ := h
  exact ⟨a, b, c, d, e, f, g, i, j, k, ⟨l, m⟩, n⟩

/-- Calm as a Bool. -/
def calm (t : Ctx) : Bool :=
  t.storeFault == none && t.copyFault == none && t.mxnanPend == false && t.drainFirst == false && t.asNever == false && t.divBusy == 0 && decide (t.snap.length ≤ 16)

theorem calm_of {t : Ctx} (h : calm t = true) : Calm t := by
  simp only [calm, Bool.and_eq_true, beq_iff_eq, decide_eq_true_eq] at h
  obtain ⟨⟨⟨⟨⟨⟨a, b⟩, c⟩, d⟩, e⟩, f⟩, g⟩ := h
  exact ⟨a, b, c, d, e, f, g⟩

/-- Straight as a Bool. -/
def straight (t : Ctx) : Bool :=
  t.xfer == [] && t.changes == [] && ((List.range 4).all fun l => !(lvl t.loops l).armed) && t.ctl.nullen == 0 && t.pc != t.fin

theorem straight_of {t : Ctx} (h : straight t = true) : Straight t := by
  simp only [straight, Bool.and_eq_true, beq_iff_eq, bne_iff_ne, List.all_eq_true, List.mem_range, Bool.not_eq_true'] at h
  obtain ⟨⟨⟨⟨a, b⟩, c⟩, d⟩, e⟩ := h
  exact ⟨a, b, c, d, e⟩

/-- Fires as a Bool. -/
def fires (s : State) (x : Nat) (w : Worker) (g : Guard) (src : Src) (v : VWord) (p : PopSt) : Bool :=
  issuing s x w && calm (s.begun x) && straight (s.begun x) && (s.begun x).guard g
    && decide (s.readSrc (s.begun x) { seed := (s.begun x).ctl.seed } src = (.val v, p)) && (match src with | .g i => decide (i.toNat < (s.begun x).nregs) | _ => true)

theorem fires_of {s : State} {x : Nat} {w : Worker} {g : Guard} {src : Src} {v : VWord} {p : PopSt} (h : fires s x w g src v p = true) : Fires s x w g src v p := by
  unfold fires at h
  generalize hn : (s.begun x).nregs = n at h
  have h6 := Bool.and_eq_true_iff.mp h
  have h5 := Bool.and_eq_true_iff.mp h6.1
  have h4 := Bool.and_eq_true_iff.mp h5.1
  have h3 := Bool.and_eq_true_iff.mp h4.1
  have h2 := Bool.and_eq_true_iff.mp h3.1
  refine ⟨issuing_of h2.1, calm_of h2.2, straight_of h3.2, h4.2, ⟨of_decide_eq_true h5.2, ?_⟩⟩
  intro i e
  rw [hn]
  subst e
  exact of_decide_eq_true h6.2

/-- Claims.looked as a Bool. -/
def passes (i : Instr) (s : State) (x : Nat) (v : VWord) : Bool :=
  match moveOf i with
  | some (_, _, .trig tr) => (tr.check (s.env x) (s.atBundle x) v).isNone
  | _ => true

theorem looked_of {i : Instr} {s : State} {x : Nat} {v : VWord} (h : passes i s x v = true) : Claims.looked i s x v := by
  intro g src tr e
  simpa [passes, e] using h

/-- Claims.stands as a Bool, for context 0 of core 0, the one core that the state lists. -/
def standing (s : State) : Bool :=
  s.cores.map (·.1) == [0] && (s.ctx 0 0).isWorker 0 && !(s.ctx 0 0).starting && [1, 2, 3].all fun y => !(s.ctx 0 y).isWorker 0

theorem idle_core (y : Nat) (h : y < 4) : (({} : Core).ctx y).isWorker 0 = false := by
  have : ∀ j : Fin 4, (({} : Core).ctx j).isWorker 0 = false := by decide +kernel
  exact this ⟨y, h⟩

theorem stands_of {s : State} (h : standing s = true) : Claims.stands s 0 0 0 := by
  simp only [standing, Bool.and_eq_true, beq_iff_eq, Bool.not_eq_true', List.all_eq_true, List.mem_cons, List.not_mem_nil, or_false] at h
  obtain ⟨⟨⟨hc, hw⟩, hs⟩, ho⟩ := h
  refine ⟨by decide, hw, hs, ?_, by rw [hc]; decide⟩
  intro d y hy hd
  rcases hcs : s.cores with _ | ⟨⟨c, k⟩, _ | ⟨q, l⟩⟩ <;> rw [hcs] at hc <;> simp at hc
  subst hc
  by_cases e : d = 0
  · subst e
    refine ⟨rfl, ?_⟩
    by_cases e0 : y = 0
    · exact e0
    · have := ho y (by omega)
      rw [hd] at this
      cases this
  · have : s.ctx d y = ({} : Core).ctx y := by
      have b : (d == 0) = false := by simpa using e
      unfold State.ctx State.core tget
      rw [hcs]
      simp only [List.lookup, b]
      rfl
    rw [this, idle_core y hy] at hd
    cases hd

/-- The move with guard 0 whose short immediate gives v acts in state s, and its bundle has made no close of a scope. -/
def Acts (s : State) (c : BitVec 7) (v : VWord) : Prop := Fires s 0 wk 0 (.short c) v { seed := 0 } ∧ (s.begun 0).closing = false

theorem acts_of {s : State} {c : BitVec 7} {v : VWord} (h : (fires s 0 wk 0 (.short c) v { seed := 0 } && !(s.begun 0).closing) = true) : Acts s c v := by
  rw [Bool.and_eq_true, Bool.not_eq_true'] at h
  exact ⟨fires_of h.1, h.2⟩

/-- A context with something of its latches changed. -/
def lat (f : Latches → Latches) : State := on fun t => { t with lat := f t.lat }

theorem witness_FalseGuardsAndNeverMovesPass : Issuing boot 0 wk ∧ Calm (boot.begun 0) ∧ Straight (boot.begun 0) ∧ (boot.begun 0).guard 1 = false
    ∧ moveOf (.add 1 (.short 0x45) 0) = some (1, .short 0x45, .trig (trigAdd 0)) ∧ (soloMove 1 (.short 0x45) (.trig (trigAdd 0))).check (boot.begun 0).nregs false = none :=
  ⟨issuing_of (by decide +kernel), calm_of (by decide +kernel), straight_of (by decide +kernel), by decide +kernel, rfl, rfl⟩

/-- R15's bound itself is written to g[SPREG]; the last register of the allotment takes a value; and so does p15. -/
theorem witness_MovesWriteTheirDestination : Acts boot 0x45 5 ∧ (63 : BitVec 6).toNat < (boot.begun 0).nregs ∧ (63 : BitVec 6) ≠ (boot.begun 0).ctl.spreg
    ∧ Acts (on fun t => { t with ctl := { t.ctl with slim := 5 } }) 0x45 5 ∧ ((on fun t => { t with ctl := { t.ctl with slim := 5 } }).begun 0).ctl.slim.toNat ≤ 5
    ∧ Claims.moveRow (.move 0 (.short 0x45) (.g 63)) = some (0, .short 0x45, .g 63) ∧ Claims.moveRow (.move 0 (.short 0x45) (.p 15)) = some (0, .short 0x45, .p 15) :=
  ⟨acts_of (by decide +kernel), by decide +kernel, by decide +kernel, acts_of (by decide +kernel), by decide +kernel, rfl, rfl⟩

theorem witness_RegisterChecksTrap :
    (Acts (on fun t => { t with ctl := { t.ctl with slim := 6 } }) 0x45 5 ∧ ((on fun t => { t with ctl := { t.ctl with slim := 6 } }).begun 0).ctl.spreg = 31
      ∧ ((on fun t => { t with ctl := { t.ctl with slim := 6 } }).begun 0).ctl.utvec.getLsbD 0 = false)
    ∧ Issuing (on fun t => { t with nregs := 16, ctl := { t.ctl with utvec := 1 } }) 0 wk
    ∧ ((on fun t => { t with nregs := 16, ctl := { t.ctl with utvec := 1 } }).begun 0).nregs ≤ (16 : BitVec 6).toNat
    ∧ ((on fun t => { t with nregs := 16, ctl := { t.ctl with utvec := 1 } }).begun 0).closing = false :=
  ⟨⟨acts_of (by decide +kernel), by decide +kernel, by decide +kernel⟩, issuing_of (by decide +kernel), by decide +kernel, by decide +kernel⟩

/-- One place is left in the SDQ, and one in the send FIFO. -/
theorem witness_PushesAppend :
    (Acts (on fun t => { t with sdq := List.replicate 31 { num := 0, vec := false, data := 0 } }) 0x45 5
      ∧ ((on fun t => { t with sdq := List.replicate 31 { num := 0, vec := false, data := 0 } }).begun 0).sdq.length < 32)
    ∧ (Acts (on fun t => { t with sendF := List.replicate 127 { isHeader := true, word := 0, loc := [] } }) 0x45 5
      ∧ ((on fun t => { t with sendF := List.replicate 127 { isHeader := true, word := 0, loc := [] } }).begun 0).sendF.length < 128
      ∧ sendTrap (boot.env 0) (boot.atBundle 0) none .fsendh 5 = none) :=
  ⟨⟨acts_of (by decide +kernel), by decide +kernel⟩, acts_of (by decide +kernel), by decide +kernel, by decide +kernel⟩

/-- A result of every latency may be outstanding: 16 of them are. -/
theorem witness_IntegerUnitsDeliver : Acts (on fun t => { t with snap := List.replicate 16 { port := .fa, val := 0, left := 3, flags := 0 } }) 0x7F 63
    ∧ (Claims.iaRow (.shl 0 (.short 0x7F) 1)).isSome = true := ⟨acts_of (by decide +kernel), rfl⟩

theorem witness_MultiplyDivideDeliver : (Acts boot 0x40 0 ∧ (Claims.imRow (.div 0 (.short 0x40))).isSome = true)
    ∧ (Issuing (on fun t => { t with divBusy := 1 }) 0 wk ∧ ((on fun t => { t with divBusy := 1 }).begun 0).divBusy ≠ 0
      ∧ ((on fun t => { t with divBusy := 1 }).begun 0).asNever = false ∧ ((on fun t => { t with divBusy := 1 }).begun 0).guard 0 = true
      ∧ ((on fun t => { t with divBusy := 1 }).begun 0).closing = false) :=
  ⟨⟨acts_of (by decide +kernel), rfl⟩, issuing_of (by decide +kernel), by decide +kernel, by decide +kernel, by decide +kernel, by decide +kernel⟩

theorem witness_FloatUnitDelivers : Fires boot 0 wk 0 (.limm48 0x7F800000) 0x7F800000 { seed := 0 } ∧ (Claims.faRow (.frcp 0 (.limm48 0x7F800000))).isSome = true :=
  ⟨fires_of (by decide +kernel), rfl⟩

theorem witness_VectorUnitsDeliver : Fires boot 0 wk 0 (.v 31) 0 { seed := 0 } ∧ (Claims.vecRow (.vu1Vtopk 0 (.v 31))).isSome = true := ⟨fires_of (by decide +kernel), rfl⟩

/-- A level with an entry, and one without. -/
theorem witness_TransfersAndLoopsRegister : Acts (on fun t => { t with loops := (Vector.replicate 4 {}).set 3 { valid := true } }) 0x47 7
    ∧ Claims.mayChange ((on fun t => { t with loops := (Vector.replicate 4 {}).set 3 { valid := true } }).begun 0) 3 = true
    ∧ Claims.mayChange (boot.begun 0) 3 = false ∧ (Claims.transferRow (.ret 0 (.short 0x47))).isSome = true :=
  ⟨acts_of (by decide +kernel), by decide +kernel, by decide +kernel, rfl⟩

theorem witness_ControlRegistersReadAndWrite : Acts boot 0x4C 12 ∧ Acts boot 0x40 0 := ⟨acts_of (by decide +kernel), acts_of (by decide +kernel)⟩

/-- A context of a user handler: its bundle's trap has been taken. -/
def handling : State := on fun t => { t with handler := some { pc := 5, snap := [], divBusy := 0, xfer := [], changes := [], word := 0, cause := .brk, addr := 0 } }

theorem witness_YieldAndEretCommit : Acts boot 0x40 0 ∧ Acts handling 0x41 1 ∧ (handling.begun 0).handler.isSome = true ∧ (boot.begun 0).handler = none :=
  ⟨acts_of (by decide +kernel), acts_of (by decide +kernel), by decide +kernel, by decide +kernel⟩

theorem witness_BreakTakesItsTrap : Acts boot 0x43 3 ∧ Acts (on fun t => { t with ctl := { t.ctl with utvec := 1 } }) 0x43 3
    ∧ moveOf (.trap 1 (.short 0x43)) = some (1, .short 0x43, .trig trigTrap) ∧ (boot.begun 0).guard 1 = false
    ∧ (soloMove 1 (.short 0x43) (.trig trigTrap)).check (boot.begun 0).nregs false = none :=
  ⟨acts_of (by decide +kernel), acts_of (by decide +kernel), rfl, by decide +kernel, rfl⟩

/-! ## States that meet the hypotheses of the statements about accesses -/

/-- The last eight bytes of the code window, by au.o. -/
def atEnd : State := on fun t => { t with lat := { t.lat with auO := 0x1FFFF8 }, laq := List.replicate 31 { seq := 0, op := .plain, va := 0, img := [], eb := 1, len := 1, vec := false, pair := 0 } }

theorem witness_LoadsJoinTheLaq : Acts atEnd 0x40 0 ∧ (atEnd.begun 0).laq.length < 32 ∧ Claims.spanOk atEnd 0 ((Claims.run 0x1FFFF8 0 8).map (·.1)) .read
    ∧ Claims.spanOk boot 0 ((Claims.run 0 300 256).map (·.1)) .read ∧ (Claims.loadRow (.ld64 0 (.short 0x40))).isSome = true :=
  ⟨acts_of (by decide +kernel), by decide +kernel, .inr ⟨0x1FFFF8, by decide +kernel, 0x1FFFFF, by decide +kernel, by decide +kernel, by decide +kernel⟩, .inl (by decide +kernel), rfl⟩

theorem witness_StoresJoinTheSaq : Acts atEnd 0x40 0 ∧ (atEnd.begun 0).saq.length < 32 ∧ Claims.spanOk atEnd 0 ((Claims.run 0x1FFFF8 0 8).map (·.1)) .write
    ∧ (Claims.storeRow (.st64 0 (.short 0x40))).isSome = true :=
  ⟨acts_of (by decide +kernel), by decide +kernel, .inr ⟨0x1FFFF8, by decide +kernel, 0x1FFFFF, by decide +kernel, by decide +kernel, by decide +kernel⟩, rfl⟩

theorem witness_WideAccessesJoinTheirQueues : Acts boot 0x40 0 ∧ Claims.spanOk boot 0 ((Claims.run 0 0 (4 * 64)).map (·.1)) .read ∧ Claims.imgLen 0 / 4 = 64
    ∧ boot.lookup 0 (boot.begun 0) 0 127 .read = none ∧ (boot.begun 0).laq.length < 32 ∧ (boot.begun 0).saq.length < 32
    ∧ Claims.spanOk boot 0 ((Claims.run 0 0 (Claims.imgLen 0)).map (·.1)) .read :=
  ⟨acts_of (by decide +kernel), .inr ⟨0, by decide +kernel, 255, by decide +kernel, by decide +kernel, by decide +kernel⟩, by decide, by decide +kernel, by decide +kernel,
    by decide +kernel, .inr ⟨0, by decide +kernel, 255, by decide +kernel, by decide +kernel, by decide +kernel⟩⟩

/-- At both widths, at the end of the window. -/
theorem witness_AmosJoinTheLaq : Acts atEnd 0x40 0 ∧ Claims.amoW .add 0 = 4 ∧ atEnd.lookup 0 (atEnd.begun 0) 0x1FFFF8 0x1FFFFB .both = none
    ∧ Claims.amoW .cas (BitVec.allOnes 64) = 8 ∧ atEnd.lookup 0 (atEnd.begun 0) 0x1FFFF0 0x1FFFF7 .both = none ∧ Claims.amoA .cas 0x1FFFF8 (BitVec.allOnes 64) = 0x1FFFF0
    ∧ Acts atEnd 0x3F (BitVec.ofNat 2048 (2 ^ 64 - 1)) :=
  ⟨acts_of (by decide +kernel), by decide, by decide +kernel, by decide, by decide +kernel, by decide, acts_of (by decide +kernel)⟩

theorem witness_AccessesOutsideWindowsTrap : Acts (lat fun l => { l with auO := 0x200000 }) 0x40 0 ∧ findWindow ((lat fun l => { l with auO := 0x200000 }).begun 0).wins (0x200000 : Nat) = none
    ∧ Claims.scalarRow (.st8 0 (.short 0x40)) = some (0, .short 0x40) := ⟨acts_of (by decide +kernel), by decide +kernel, rfl⟩

theorem witness_ItemsJoinTheSaq : Acts (lat fun l => { l with syO := 0x40, ceO := 0x40 }) 0x47 7
    ∧ Claims.looked (.rel 0 (.short 0x47)) (lat fun l => { l with syO := 0x40, ceO := 0x40 }) 0 7
    ∧ Claims.looked (.barr 0 (.short 0x47)) (lat fun l => { l with syO := 0x40, ceO := 0x40 }) 0 7 ∧ Claims.looked (.gvobs 0 (.short 0x47)) boot 0 7 :=
  ⟨acts_of (by decide +kernel), looked_of (by decide +kernel), looked_of (by decide +kernel), looked_of (by decide +kernel)⟩

/-- The LDQ is empty. -/
theorem witness_ShortQueuesBlock : Issuing boot 0 wk ∧ Calm (boot.begun 0) ∧ boot.readSrc (boot.begun 0) { seed := (boot.begun 0).ctl.seed } .ldq = (.wait, { seed := 0 })
    ∧ moveOf (.add 0 .ldq 0) = some (0, .ldq, .trig (trigAdd 0)) ∧ (soloMove 0 .ldq (.trig (trigAdd 0))).check (boot.begun 0).nregs false = none
    ∧ (trigAdd 0).results (boot.begun 0) ≤ 8 :=
  ⟨issuing_of (by decide +kernel), calm_of (by decide +kernel), by decide +kernel, rfl, rfl, by decide +kernel⟩

/-- One load is outstanding; the limit 1 is met, and the limit 0 is not. A live scope, and no handle of a queue. -/
def oneLoad : State := on fun t => { t with cnt := { t.cnt with loads := 1 } }

/-- Die 0 holds one live scope, in entry 0. -/
def liveScope : State := { boot with dies := [(0, { scopes := [(0, { valid := true, gen := 1, pending := 1, isOpen := true })] })] }

/-- A line of die 0's remote-data cache, and which of its sectors are dirty. -/
def cached (d : BitVec 32) : State := { boot with dies := [(0, { rdc := [{ line := 8, valid := 1, dirty := d, data := [] }] })] }

theorem witness_WaitsAndFencesIssueWhenSatisfied :
    (∃ f, Claims.waitRow (.wait 0 (.limm24 0x1FFF)) = some (0, .limm24 0x1FFF, f) ∧ f (oneLoad.atBundle 0) 0 0 (oneLoad.begun 0) 0x1FFF ∧ ¬ f (oneLoad.atBundle 0) 0 0 (oneLoad.begun 0) 0xFFF)
    ∧ Fires oneLoad 0 wk 0 (.limm24 0x1FFF) 0x1FFF { seed := 0 } ∧ Fires oneLoad 0 wk 0 (.limm24 0xFFF) 0xFFF { seed := 0 }
    ∧ (∃ f, Claims.waitRow (.fsw 0 (.limm24 0x1000)) = some (0, .limm24 0x1000, f) ∧ ¬ f (liveScope.atBundle 0) 0 0 (liveScope.begun 0) 0x1000 ∧ f (liveScope.atBundle 0) 0 0 (liveScope.begun 0) 0x2000)
    ∧ Fires liveScope 0 wk 0 (.limm24 0x1000) 0x1000 { seed := 0 }
    ∧ (∃ f, Claims.waitRow (.park 0 (.short 0x50)) = some (0, .short 0x50, f) ∧ ¬ f (boot.atBundle 0) 0 0 (boot.begun 0) 0x10) ∧ Acts boot 0x50 0x10
    ∧ Acts boot 0x40 0 ∧ Acts boot 0x43 3 ∧ (boot.atBundle 0).performed 0 0 (boot.begun 0).seq 3 = true
    ∧ (∀ d, d = 0 ∨ d = 1 → Acts (cached d) 0x44 4 ∧ ((cached d).atBundle 0).performed 0 0 ((cached d).begun 0).seq 4 = true ∧ ((cached d).die 0).rdc.map (·.dirty) = [d])
    ∧ ((on fun t => { t with seq := 1, stFlight := [{ seq := 0, req := { seq := 0, va := 0, op := .xscore, claim := 0, nclaim := 0 }, cells := [] }] }).atBundle 0).performed 0 0 1 1 = false := by
  have none8 : ∀ j : Fin 8, (0x1FFF#64).getLsbD (16 + j) = false := by decide
  refine ⟨⟨_, rfl, ⟨fun j hj hb => ?_, .inr (by decide +kernel), .inl (by decide), .inl (by decide), .inl (by decide)⟩, ?_⟩, fires_of (by decide +kernel),
    fires_of (by decide +kernel), ⟨_, rfl, by decide +kernel, by decide +kernel⟩, fires_of (by decide +kernel),
    ⟨_, rfl, ?_⟩, acts_of (by decide +kernel), acts_of (by decide +kernel), acts_of (by decide +kernel), by decide +kernel, ?_, by decide +kernel⟩
  · exact absurd hb (by simp [none8 ⟨j, hj⟩])
  · rintro ⟨-, h | h, -⟩ <;> revert h <;> decide +kernel
  · rintro (h | ⟨h, hl, hb, -⟩ | ⟨-, h⟩ | ⟨h, -⟩ | ⟨h, -⟩)
    · revert h; decide
    · revert h; decide
    · exact h (by decide +kernel)
    · revert h; decide
    · revert h; decide
  · rintro d (rfl | rfl) <;> exact ⟨acts_of (by decide +kernel), by decide +kernel, by decide +kernel⟩

/-- A request of a unit that has been answered. -/
def asked (u : Unit10) (code : Nat) (y : Word) : State := on fun t => { t with awaiting := [{ unit := u, code := code, rid := 1, a := 0, t := 0, reply := some (.value y) }] }

/-- An answered acq of scope 4 whose regions hold a line that die 0 caches, clean. -/
def acquired : Awaiting := { unit := .sy, code := 0x343, rid := 1, a := 0, t := 4, reply := some (.value 4), regions := [(0x400, 128)] }
def granted : State := { (on fun t => { t with awaiting := [acquired] }) with dies := (cached 0).dies }

theorem witness_AnswersAreDelivered :
    (Acts (asked .sy 0x343 4) 0x40 0 ∧ ((asked .sy 0x343 4).begun 0).request .sy = some { unit := .sy, code := 0x343, rid := 1, a := 0, t := 0, reply := some (.value 4) }
      ∧ Claims.looked (.acq 0 (.short 0x40)) (asked .sy 0x343 4) 0 0)
    ∧ (Acts granted 0x44 4 ∧ (granted.begun 0).request .sy = some acquired ∧ Claims.looked (.acq 0 (.short 0x44)) granted 0 4
      ∧ (granted.atBundle 0).droppable 0 acquired.drops = true ∧ inRegions acquired.regions 8 = true ∧ ((granted.die 0).line 8).isSome = true)
    ∧ (Acts (asked .ce 0x2C7 0) 0x40 0 ∧ (((asked .ce 0x2C7 0).begun 0).request .ce).isSome = true ∧ Claims.looked (.bwait 0 (.short 0x40)) (asked .ce 0x2C7 0) 0 0
      ∧ ((asked .ce 0x2C7 0).atBundle 0).droppable 0 (fun _ => bwaitDrops 0) = true)
    ∧ (Acts (asked .xu 0x38C 1) 0x40 0 ∧ (((asked .xu 0x38C 1).begun 0).request .xu).isSome = true) :=
  ⟨⟨acts_of (by decide +kernel), by decide +kernel, looked_of (by decide +kernel)⟩,
    ⟨acts_of (by decide +kernel), by decide +kernel, looked_of (by decide +kernel), by decide +kernel, by decide +kernel, by decide +kernel⟩,
    ⟨acts_of (by decide +kernel), by decide +kernel, looked_of (by decide +kernel), by decide +kernel⟩, acts_of (by decide +kernel), by decide +kernel⟩

/-- R180, R363, R177 (their reset columns): CLIM, RCTL and WDLIM as they read after reset. -/
theorem test_reset_reads : State.reset.readReg 0 0x200000000 = 0xFFFF ∧ State.reset.readReg 0 0x300000000 = BitVec.ofNat 64 (64 * 2 ^ 48 + 64 * 2 ^ 32)
    ∧ State.reset.readReg 0 0x100 = BitVec.ofNat 64 (1000000 * 2 ^ 40 + 100000 * 2 ^ 20 + 10000) := by decide +kernel

/-- R346: the bundle that an eret has skipped issues as never-moves, whatever its slots hold. -/
theorem test_skipped_bundle : (((on fun t => { t with asNever := true }).cycle 0 fun _ _ => .error { cause := .illsrc }).ctx 0 0).sys = none
    ∧ (((on fun t => t).cycle 0 fun _ _ => .error { cause := .illsrc }).ctx 0 0).sys ≠ none := by decide +kernel

/-- R140: an ended worker's amo leaves nothing behind once it lands. -/
theorem test_ghost_lands :
    let e : LdqEntry := { req := { seq := 1, op := .amo .add 4 0 0 0 5, va := 0x200, img := [(0x200, 0)], eb := 4, len := 1, vec := false, pair := 0 }, got := [(0, 7)] }
    (((boot.updCore 0 fun k => { k with ghosts := [{ ldq := [e] }] }).landEntry 0 5 0).ctx 0 5).drained = true := by decide +kernel

/-- R328: a walk's worker ends once nothing of its core is owed; while a parked block is, it waits. -/
theorem test_walk_worker_ends :
    let s := on fun t => { t with worker := some { wk with phase := .waiting, walk := some { walk := 9, core := 0, batch := 0, block := none, next := [] } } }
    let w : Walk := { id := 9, die := 0, header := 0, launch := 0, wins := [], emitter := 0, rcd := {}, scope := 0x800, nrec := 1, emitted := [], rest := [], counts := [], parked := [{ idx := 0, expert := 0 }] }
    let ph (s : State) : Option Phase := ((s.cycle 0 fun _ _ => .ok []).ctx 0 0).worker.map (·.phase)
    s.ready 0 0 = true ∧ ph s = some .done ∧ ({ s with walks := [w] } : State).ready 0 0 = false ∧ ph { s with walks := [w] } = some .waiting := by decide +kernel

end Sys2Proof.Tests

/-! ## States that meet the hypotheses of the statements about the other units -/

namespace Sys2Proof.Tests

/-- The worker as one of stage 0 of pipeline 9. -/
def wkStage : Worker := { wk with stage := some (9, 0) }

/-- A pipeline with one queue from stage 0 to stage 1, of depth 1, whose handle 0 is bound as output; its entries, and whether it is closed. -/
def piped (es : List QEntry) (closed : Bool) : State :=
  { (on fun t => { t with worker := some wkStage, handles := vset t.handles 0 (some { queue := 0, output := true }) }) with
    pipes := [{ id := 9, launch := 0, die := 0, start := 0, ivexp := 10, hw := 3, lw := 1, recs := [], cores := [[0], [1]], blocked := [0, 0]
                queues := [{ src := 0, dst := 1, depth := 1, pair := 0, entries := es, gone := [], closed := closed }] }] }

/-- An entry not yet visible. -/
def fresh : QEntry := { vec := false, len := 8, pair := 0, data := 5, visible := false }

theorem witness_StageHandlesAnswer : Fires (piped [] false) 0 wkStage 0 (.short 0x44) 4 { seed := 0 }
    ∧ Claims.declares ((piped [] false).popped 0 { seed := 0 }) ((piped [] false).begun 0) 0 true ∧ ¬ Claims.declares ((piped [] false).popped 0 { seed := 0 }) ((piped [] false).begun 0) 0 false
    ∧ (((piped [] false).popped 0 { seed := 0 }).handleQueue ((piped [] false).begun 0) 0).isSome = true ∧ pairValid (pairSrc 0) (pairSnk 0) = true
    ∧ pairValid (pairSrc 0x3FFF) (pairSnk 0x3FFF) = false :=
  ⟨fires_of (by decide +kernel), ⟨9, 0, _, _, by decide +kernel, rfl, rfl, by decide⟩, by
    rintro ⟨p, k, pl, q, h, hp, hq, hk⟩
    obtain ⟨rfl, rfl⟩ := Prod.mk.inj (Option.some.inj ((show ((piped [] false).begun 0).worker.bind (·.stage) = some (9, 0) by decide +kernel).symm.trans h))
    cases hp
    cases hq
    exact absurd hk (by decide), by decide +kernel, by decide +kernel, by decide +kernel⟩

/-- The last place is free; no place is; the queue is closed. -/
theorem witness_StagePushesAppend :
    (Fires (piped [] false) 0 wkStage 0 (.short 0x40) 0 { seed := 0 } ∧ (((piped [] false).atBundle 0).handleQueue ((piped [] false).begun 0) 0).map (fun p => (p.1.output, p.2.closed, p.2.room)) = some (true, false, 1))
    ∧ (Fires (piped [fresh] false) 0 wkStage 0 (.short 0x40) 0 { seed := 0 } ∧ (((piped [fresh] false).atBundle 0).handleQueue ((piped [fresh] false).begun 0) 0).map (fun p => (p.1.output, p.2.closed, p.2.room)) = some (true, false, 0))
    ∧ (Fires (piped [] true) 0 wkStage 0 (.short 0x40) 0 { seed := 0 } ∧ (((piped [] true).atBundle 0).handleQueue ((piped [] true).begun 0) 0).map (fun p => p.2.closed) = some true) :=
  ⟨⟨fires_of (by decide +kernel), by decide +kernel⟩, ⟨fires_of (by decide +kernel), by decide +kernel⟩, fires_of (by decide +kernel), by decide +kernel⟩

/-- Tokens with a count. -/
def tokens (n : Nat) : State := on fun t => { t with tok := Vector.replicate 8 { count := n } }

/-- 254 operations pend on the token, and 255. -/
theorem witness_CopiesAreQueued : Acts (tokens 254) 0x41 1 ∧ Claims.looked (.cpy 0 (.short 0x41)) (tokens 254) 0 1 ∧ (tokens 254).at.cmds.length < 64
    ∧ Claims.tokenRoom ((tokens 254).begun 0) (some 1) ∧ Acts (tokens 255) 0x41 1 ∧ ¬ Claims.tokenRoom ((tokens 255).begun 0) (some 1) := by
  refine ⟨acts_of (by decide +kernel), looked_of (by decide +kernel), by decide +kernel, ?_, acts_of (by decide +kernel), fun h => absurd (h 1 rfl) (by decide +kernel)⟩
  intro i e
  cases e
  decide +kernel

/-- Channel 0 runs, channel 1 is idle. -/
def chans : State := on fun t => { t with chan := vset t.chan 0 { running := true, head := 0x40 } }

/-- A matrix call of a worker. -/
def call (uid : Nat) : MatCall :=
  { id := 1, ctx := 0, uid := uid, tiles := 0xFFFF, accs := 15, t := 0x800, seq := 0, phase := .queued, mp := Vector.replicate 8 0, tc := Vector.replicate 16 0, wins := [bareWindow 0], vi := 0
    launch := 0, die := 0, dieRank := 0 }

/-- A command of the worker waits for token 0, one has writes in flight, and one is another's; a call of its waits too. -/
def cancelling : State :=
  let m : CopyCmd := { id := 1, ctx := 0, uid := wk.uid, rva := 0x100, seq := 0, tok := some 0, wins := [], vi := 0, launch := 0 }
  (on fun t => { t with tok := vset t.tok 0 { count := 3 }, cnt := { t.cnt with copies := 2, tiles := 1 } }).updCore 0 fun k =>
    { k with cmds := [m, { m with id := 2, owed := 1 }, { m with id := 3, uid := 9 }], calls := [{ call wk.uid with t := 0 }] }

theorem witness_CopyControlsActAndCancel : Acts chans 0x40 0 ∧ Acts chans 0x41 1 ∧ Acts chans 0x50 16 ∧ Claims.looked (.chan 0 (.short 0x41)) chans 0 1 ∧ Claims.looked (.chan 0 (.short 0x40)) chans 0 0
    ∧ (vget (chans.begun 0).chan 0 {}).running = true ∧ (vget (chans.begun 0).chan 1 {}).running = false
    ∧ (∀ c v, (c, v) = (0x41, 1#2048) ∨ (c, v) = (0x40, 0#2048) → Acts cancelling c v) ∧ Claims.stands cancelling wk.uid 0 0
    ∧ (Claims.cutCopies cancelling wk 1).map (·.id) = [1] ∧ (Claims.cutCopies cancelling wk 0).map (·.id) = [] ∧ (Claims.cutCalls cancelling wk 1).map (·.id) = [1] := by
  refine ⟨acts_of (by decide +kernel), acts_of (by decide +kernel), acts_of (by decide +kernel), looked_of (by decide +kernel), looked_of (by decide +kernel), by decide +kernel, by decide +kernel,
    ?_, stands_of (by decide +kernel), by decide +kernel, by decide +kernel, by decide +kernel⟩
  rintro c v (e | e) <;> cases e <;> exact acts_of (by decide +kernel)

/-- Run: the token's two other operations stay pending, its status is 1, and the counters have fallen by one each. -/
theorem test_cancel : (let k := ran (.cabt 0 (.short 0x41)) cancelling; (vget k.tok 0 {}).count = 2 ∧ (vget k.tok 0 {}).status = 1 ∧ k.cnt.copies = 1)
    ∧ (let k := ran (.mabt 0 (.short 0x41)) cancelling; (vget k.tok 0 {}).count = 2 ∧ (vget k.tok 0 {}).status = 1 ∧ k.cnt.tiles = 0) := by decide +kernel

/-- n calls are queued; entry 64 of context 0 is valid, and entry 65 is not. -/
def routines (n : Nat) : State := (tokens 254).updCore 0 fun k => { k with rtab := [(64, 1)], calls := List.replicate n (call 7) }

theorem witness_MatrixCallsAreQueued : Fires (routines 15) 0 wk 0 (.limm24 64) 64 { seed := 0 } ∧ (routines 15).at.calls.length < 16 ∧ rtValid ((routines 15).at.routine 0 64) = true
    ∧ Claims.tokenRoom ((routines 15).begun 0) (some 0) ∧ rtValid ((routines 15).at.routine 0 65) = false ∧ 16 ≤ (routines 16).at.calls.length
    ∧ Fires (routines 16) 0 wk 0 (.limm24 64) 64 { seed := 0 } ∧ ¬ Claims.tokenRoom ((tokens 255).begun 0) (some 0) := by
  refine ⟨fires_of (by decide +kernel), by decide +kernel, by decide +kernel, ?_, by decide +kernel, by decide +kernel, fires_of (by decide +kernel), fun h => absurd (h 0 rfl) (by decide +kernel)⟩
  intro i e
  cases e
  decide +kernel

/-- No request waits; one does. -/
theorem witness_BanksAndStatusAnswer : Acts boot 0x50 16 ∧ boot.at.request wk.uid = none
    ∧ Acts (boot.updCore 0 fun k => { k with bankQ := [{ uid := 0, ctx := 0, n := 3 }] }) 0x51 17 ∧ (boot.updCore 0 fun k => { k with bankQ := [{ uid := 0, ctx := 0, n := 3 }] }).at.request wk.uid ≠ none
    ∧ Acts boot 0x52 18 := ⟨acts_of (by decide +kernel), by decide +kernel, acts_of (by decide +kernel), by decide +kernel, acts_of (by decide +kernel)⟩

/-- The system context runs; its mp0 addresses a table entry. -/
def inSystem : State := boot.updCore 0 fun k => { k.setCtx 4 { k.ctx 4 with lat := { (k.ctx 4).lat with mp := Vector.replicate 8 0x2040 } } with running := some 4 }

theorem witness_SystemContextWritesTheStore : inSystem.at.fenced = false ∧ inSystem.at.stall = 0 ∧ inSystem.at.running = some 4 ∧ inSystem.at.clim.1 = false
    ∧ (inSystem.ctx 0 4).worker = none ∧ Calm (inSystem.ctx 0 4) ∧ (inSystem.ctx 0 4).guard 0 = true
    ∧ inSystem.readSrc (inSystem.ctx 0 4) { seed := (inSystem.ctx 0 4).ctl.seed } (.short 0x45) = (.val 5, { seed := (inSystem.ctx 0 4).ctl.seed })
    ∧ (vget (inSystem.ctx 0 4).lat.mp 0 0).getLsbD 13 = true ∧ Issuing boot 0 wk ∧ (boot.begun 0).closing = false :=
  ⟨by decide +kernel, by decide +kernel, by decide +kernel, by decide +kernel, by decide +kernel, calm_of (by decide +kernel), by decide +kernel, by decide +kernel, by decide +kernel, issuing_of (by decide +kernel), by decide +kernel⟩

/-! ## Scopes, spawns, barriers, objects, experts -/

/-- Die 0's table holds one scope with a count, or 256 of them. -/
def scopes (n pending : Nat) (isOpen : Bool) : State :=
  { boot with dies := [(0, { scopes := (List.range n).map fun i => (i, { valid := true, gen := 1, pending := pending, isOpen := isOpen }) })] }

theorem free_of_full (i : Nat) : ¬ Claims.firstFree ((scopes 256 1 true).popped 0 { seed := 0 }) (dieOf 0) i := by
  have h : ∀ j : Fin 256, (tget ({} : Scope) (((scopes 256 1 true).popped 0 { seed := 0 }).die (dieOf 0)).scopes j).valid = true := by decide +kernel
  rintro ⟨hi, ⟨hv, -⟩, -⟩
  exact absurd ((h ⟨i, hi⟩).symm.trans hv) (by decide)

theorem witness_ScopesOpenAndClose : Fires (scopes 1 5 true) 0 wk 0 (.limm24 0x1000) 0x1000 { seed := 0 } ∧ ((scopes 1 5 true).begun 0).request .sy = none ∧ scopeRemote 0 0x1000 = false
    ∧ Claims.firstFree ((scopes 1 5 true).popped 0 { seed := 0 }) (dieOf 0) 1 ∧ Claims.mayCount ((scopes 1 5 true).popped 0 { seed := 0 }) 0x1000
    ∧ ((scopes 1 5 true).popped 0 { seed := 0 }).scopeLive 0x1000 = true ∧ (((scopes 1 5 true).popped 0 { seed := 0 }).scope 0x1000).isOpen = true
    ∧ (((scopes 1 5 false).popped 0 { seed := 0 }).scope 0x1000).isOpen = false ∧ Fires (scopes 1 5 false) 0 wk 0 (.limm24 0x1000) 0x1000 { seed := 0 }
    ∧ (∀ i, ¬ Claims.firstFree ((scopes 256 1 true).popped 0 { seed := 0 }) (dieOf 0) i) ∧ Fires (scopes 256 1 true) 0 wk 0 (.limm24 0x1000) 0x1000 { seed := 0 }
    ∧ ¬ Claims.mayCount ((scopes 1 (2 ^ 32 - 1) true).popped 0 { seed := 0 }) 0x1000 ∧ Fires (scopes 1 (2 ^ 32 - 1) true) 0 wk 0 (.limm24 0x1000) 0x1000 { seed := 0 }
    ∧ Acts (asked .sy 0x345 0) 0x40 0 ∧ (((asked .sy 0x345 0).begun 0).request .sy).map (·.reply) = some (some (.value 0)) := by
  refine ⟨fires_of (by decide +kernel), by decide +kernel, by decide, ⟨by decide, by decide +kernel, ?_⟩, .inr (by decide +kernel), by decide +kernel, by decide +kernel, by decide +kernel,
    fires_of (by decide +kernel), free_of_full, fires_of (by decide +kernel), ?_, fires_of (by decide +kernel), acts_of (by decide +kernel), by decide +kernel⟩
  · intro j h
    obtain rfl : j = 0 := by omega
    exact .inl (by decide +kernel)
  · unfold Claims.mayCount
    decide +kernel

/-- The launch queue that a record of zeros names holds n launches. -/
def queued (n : Nat) : State := { scopes 1 5 true with launchQ := [(0, List.replicate n { id := 9, vi := 0, queue := 0, rcd := {}, taken := true, scope := 0x0800 })] }

/-- The record lies past the code, and reads as zeros. -/
def spawning (n pending : Nat) : State := ({ scopes 1 pending true with launchQ := (queued n).launchQ } : State).updCtx 0 0 fun t => { t with lat := { t.lat with syO := 0x1000 } }

theorem witness_SpawnQueuesAChild : Fires (spawning 63 5) 0 wk 0 (.limm24 0x1000) 0x1000 { seed := 0 } ∧ Claims.looked (.spawn 0 (.limm24 0x1000)) (spawning 63 5) 0 0x1000
    ∧ ((spawning 63 5).begun 0).request .sy = none ∧ spawnAbsent ((spawning 63 5).env 0) ((spawning 63 5).atBundle 0) = []
    ∧ ((spawning 63 5).popped 0 { seed := 0 }).queueFill 0 < 64 ∧ Claims.mayCount ((spawning 63 5).popped 0 { seed := 0 }) 0x1000
    ∧ recQueue (((spawning 63 5).popped 0 { seed := 0 }).spawnRecord ((spawning 63 5).env 0)) = 0
    ∧ scopeNil 0x2000 = false ∧ ((spawning 63 5).popped 0 { seed := 0 }).scopeLive 0x2000 = false
    ∧ (((spawning 63 (2 ^ 32 - 1)).popped 0 { seed := 0 }).scope 0x1000).pending = 2 ^ 32 - 1 ∧ ((spawning 63 (2 ^ 32 - 1)).popped 0 { seed := 0 }).scopeLive 0x1000 = true
    ∧ 64 ≤ ((spawning 64 5).popped 0 { seed := 0 }).queueFill 0 ∧ Fires (spawning 64 5) 0 wk 0 (.limm24 0x1000) 0x1000 { seed := 0 } :=
  ⟨fires_of (by decide +kernel), looked_of (by decide +kernel), by decide +kernel, by decide +kernel, by decide +kernel, .inr (by decide +kernel), by decide +kernel, by decide, by decide +kernel, by decide +kernel,
    by decide +kernel, by decide +kernel, fires_of (by decide +kernel)⟩

/-- A launch whose teams have a second member, at a generation; the worker has registered its arrivals at generation 0. -/
def teamed (gen : Nat) (reg : Option (Bool × Nat)) : State :=
  { (on fun t => { t with tbarReg := reg, settleReg := some 0 }) with
    launches := [{ id := 0, vi := 0, queue := 0, rcd := {}, taken := true, scope := 0x0800, workers := [0, 1], settle := { die := none, gen := gen, members := [0, 1] }
                   teams := [{ die := some 0, gen := gen, members := [0, 1] }, { die := none, gen := gen, members := [0, 1], views := [(0, gen)] }] }] }

theorem witness_BarriersHoldTheirTeams : Acts (teamed 0 none) 0x40 0 ∧ ((teamed 0 none).launch? wk.launch).isSome = true
    ∧ (((teamed 0 none).launch? wk.launch).bind fun l => (l.team? (some 0)).map (·.members)) = some [0, 1] ∧ ((teamed 0 none).begun 0).tbarReg = none
    ∧ Acts (teamed 1 (some (false, 0))) 0x40 0 ∧ ((teamed 1 (some (false, 0))).launch? wk.launch).map (fun l => ((l.team? (some 0)).map (·.seen 0), l.settle.gen)) = some (some 1, 1)
    ∧ Acts (teamed 0 (some (true, 0))) 0x41 1 ∧ ((teamed 0 (some (true, 0))).launch? wk.launch).map (fun l => ((l.team? none).map (·.seen 0), l.settle.gen)) = some (some 0, 0) :=
  ⟨acts_of (by decide +kernel), by decide +kernel, by decide +kernel, by decide +kernel, acts_of (by decide +kernel), by decide +kernel, acts_of (by decide +kernel), by decide +kernel⟩

/-- A descriptor of a grid of one element with ghosts of one element, b8p4, both faces by one rule; buffers at 0x1000 and 0x1100, its partition table at 0x2000. -/
def gridBits (rule : Nat) : BitVec 1024 :=
  BitVec.ofNat 1024 (rule * 2 ^ 22 + rule * 2 ^ 25 + 10 * 2 ^ 41 + 2 ^ 52 + 0x44 * 2 ^ 57 + 32 * 2 ^ 672 + 0x1000 * 2 ^ 728 + 0x1100 * 2 ^ 776 + 0x2000 * 2 ^ 920)

/-- An object bound at 0x300, with its own step and what is left of it to do. -/
def gridObj (rule : Nat) (own : Option Nat) (slabs fills : List (Nat × Nat)) : GridObj :=
  { desc := 0x300, uid := 0, core := 0, handle := 0, closing := false, launch := 0, raw := gridBits rule, wins := [bareWindow 0], tags := List.replicate 27 none, own := own, sent := none
    mismatched := false, timedOut := false, slabs := slabs, fills := fills, gates := [] }

/-- It is bound to handle 0. -/
def gridded (o : GridObj) : State := { (on fun t => { t with grid := vset t.grid 0 (some 0x300), lat := { t.lat with xuO := 3 } }) with dies := [(0, { grids := [o] })] }

/-- The descriptor stands at 0x300, with n objects bound elsewhere on the die or one at it; its four sectors have been read. -/
def binding (b : BitVec 1024) (gs : List GridObj) : State :=
  let s := on fun t => { t with lat := { t.lat with xuO := 0x300 }, awaiting := [{ unit := .xu, code := 0x383, rid := 1, a := 0x300, t := 0, got := (List.range 4).map fun j => (0x300 + 32 * j, b.extractLsb' (256 * j) 256) }] }
  { s with mem := memWrite s.mem 0x300 (natBytes 128 b.toNat), dies := [(0, { grids := gs })] }

theorem witness_GridObjectsBindStepAndRead :
    (Acts boot 0x44 4 ∧ boot.gridOf 0 (boot.begun 0) 0 = none)
    ∧ (Acts (gridded (gridObj 2 (some 2) [] [])) 0x44 4 ∧ (((gridded (gridObj 2 (some 2) [] [])).gridOf 0 ((gridded (gridObj 2 (some 2) [] [])).begun 0) 0)) = some (0, 0, gridObj 2 (some 2) [] [])
      ∧ gdD (gridBits 2) = 1 ∧ ((gridded (gridObj 2 (some 2) [] [])).begun 0).lat.xuO.toNat % 2 ^ 32 = 3)
    ∧ (Acts (gridded (gridObj 2 (some 3) [(3, 12)] [])) 0x44 4 ∧ ((gridded (gridObj 2 (some 3) [(3, 12)] [])).gridOf 0 ((gridded (gridObj 2 (some 3) [(3, 12)] [])).begun 0) 0).isSome = true)
    ∧ (∀ gs, gs = [] ∨ gs = [gridObj 2 none [] []] → Acts (binding (gridBits 2) gs) 0x40 0 ∧ Claims.looked (.gbind 0 (.short 0x40)) (binding (gridBits 2) gs) 0 0
      ∧ (((binding (gridBits 2) gs).begun 0).request .xu).map (fun q => (List.range 4).map fun j => q.got.lookup (0x300 + 32 * j))
        = some ((List.range 4).map fun j => some ((gridBits 2).extractLsb' (256 * j) 256))
      ∧ (((binding (gridBits 2) gs).begun 0).request .xu).map (·.a.toNat) = some 0x300 ∧ gs.length < 256
      ∧ (((binding (gridBits 2) gs).popped 0 { seed := 0 }).gridAt 0x300).isSome = !gs.isEmpty)
    ∧ gridValid ((boot.begun 0).view 0) 0 (gridBits 2) = true ∧ gridValid ((boot.begun 0).view 0) 0 (gridBits 6) = false := by
  refine ⟨⟨acts_of (by decide +kernel), by decide +kernel⟩, ⟨acts_of (by decide +kernel), by decide +kernel, by decide +kernel, by decide +kernel⟩, ⟨acts_of (by decide +kernel), by decide +kernel⟩,
    ?_, by decide +kernel, by decide +kernel⟩
  rintro gs (rfl | rfl) <;>
    exact ⟨acts_of (by decide +kernel), looked_of (by decide +kernel), by decide +kernel, by decide +kernel, by decide +kernel, by decide +kernel⟩

/-- Interface 0 with all of both tables in its range, and the last expert in a state. -/
def experts (k : Expert) : State := { boot with vis := [(0, { crange := (0, 4096), lrange := (0, 8192) })], larder := [(8191, k)] }

/-- A worker in an iteration of the first block of walk 9. -/
def wkWalk : Worker := { wk with walk := some { walk := 9, core := 0, batch := 0, block := some 0, next := [] } }
def inBlock : State :=
  { (on fun t => { t with worker := some wkWalk }) with
    walks := [{ id := 9, die := 0, header := 0x400, launch := 0, wins := [], emitter := 0, rcd := {}, scope := 0x0800, nrec := 1, emitted := [5], rest := [], counts := [(0, 1)] }] }

theorem witness_ExpertsAndCompassEntriesAnswer : Fires (experts { valid := true, state := 2 }) 0 wk 0 (.limm24 0x3FFF) 0x3FFF { seed := 0 } ∧ (experts { valid := true, state := 2 }).expertOk 0 8191 = true
    ∧ (experts { valid := true, state := 2 }).expertOk 0 8190 = false ∧ (experts {}).inCrange 0 4095 = true ∧ boot.inCrange 0 0 = false
    ∧ Fires inBlock 0 wkWalk 0 (.limm24 2) 2 { seed := 0 } ∧ wkWalk.phase = .iteration ∧ (inBlock.walks.find? (fun h => h.id = 9)).map (·.emitted) = some [5] := by
  refine ⟨fires_of (by decide +kernel), by decide +kernel, by decide +kernel, by decide +kernel, by decide +kernel, fires_of (by decide +kernel), by decide, by decide +kernel⟩

/-- One token is held for expert 0, homed on die 0; the header at 0x400 has room for n records, at rows 0x800; its lists lie at a. -/
def emitting (n a : Nat) : State :=
  let s := on fun t => { t with lat := { t.lat with xuO := 0x400 }, awaiting := [{ unit := .xu, code := 0x387, rid := 1, a := 0x400, t := 0, reply := some (.value 0) }] }
  { s with mem := memWrite s.mem 0x400 (natBytes 64 (n * 2 ^ 384 + a * 2 ^ 464)), vis := [(0, { lrange := (0, 8192) })]
           larder := [(0, { valid := true, state := 2, heap := [{ token := 1, rank := 0, score := 0, expert := 0, rcd := 0x600, vi := 0, launch := 0, round := 0 }] })] }

/-- The header names a scope too; die 0 has a scope of a count, and the request has been answered with y. -/
def emittingIn (sc y pending : Nat) : State :=
  { (emitting 1 0x800).updCtx 0 0 (fun t => { t with awaiting := t.awaiting.map fun r => { r with reply := some (.value (BitVec.ofNat 64 y)) } }) with
    mem := memWrite boot.mem 0x400 (natBytes 64 (2 ^ 384 + sc * 2 ^ 400 + 0x800 * 2 ^ 464)), dies := (scopes 1 pending true).dies }

/-- What the statement asks of an emission with go = 1, and of one without. -/
def emits (s : State) (v : Word) (n cap : Nat) (ok : Bool) : Bool :=
  let m := (s.popped 0 { seed := 0 }).emission (s.env 0) v
  (s.atBundle 0).emitAbsent (s.env 0) v == [] && m.ok == ok && m.need == n && topRcap m.hdr == cap && (((s.begun 0).request .xu).map (·.undo)) == some none && s.walks == []

theorem witness_EmissionsAreReported : Acts (emitting 1 0x800) 0x40 0 ∧ Claims.looked (.xemit 0 (.short 0x40)) (emitting 1 0x800) 0 0
    ∧ ((((emitting 1 0x800).begun 0).request .xu).map (fun r => (r.reply, r.undo)) = some (some (.value 0), none)
    ∧ (((emitting 1 0x800).popped 0 { seed := 0 }).emission ((emitting 1 0x800).env 0) 0).ok = true ∧ (((emitting 1 0x800).popped 0 { seed := 0 }).emission ((emitting 1 0x800).env 0) 0).need = 1
    ∧ topRcap (((emitting 1 0x800).popped 0 { seed := 0 }).emission ((emitting 1 0x800).env 0) 0).hdr = 1
    ∧ topRcap (((emitting 0 0x800).popped 0 { seed := 0 }).emission ((emitting 0 0x800).env 0) 0).hdr = 0
    ∧ (((emitting 0 0x800).popped 0 { seed := 0 }).emission ((emitting 0 0x800).env 0) 0).ok = true) ∧ Acts (emitting 0 0x800) 0x40 0 ∧ Claims.looked (.xemit 0 (.short 0x40)) (emitting 0 0x800) 0 0
    ∧ (((emitting 1 0x200000).popped 0 { seed := 0 }).emission ((emitting 1 0x200000).env 0) 0).ok = false ∧ Acts (emitting 1 0x200000) 0x40 0
    ∧ Claims.looked (.xemit 0 (.short 0x40)) (emitting 1 0x200000) 0 0
    ∧ (emits (emitting 1 0x800) 0 1 1 true && emits (emitting 0 0x800) 0 1 0 true && ((emitting 1 0x200000).atBundle 0).emitAbsent ((emitting 1 0x200000).env 0) 0 == []) = true
    ∧ (∀ sc y n, (sc, y, n) = (0x0800, 0, 5) ∨ (sc, y, n) = (0x1000, 0, 5) ∨ (sc, y, n) = (0x1000, 0, 2 ^ 32 - 1) ∨ (sc, y, n) = (0x2000, 0, 5) ∨ (sc, y, n) = (0x1100, 1, 5) →
      Acts (emittingIn sc y n) 0x48 8 ∧ Claims.looked (.xemit 0 (.short 0x48)) (emittingIn sc y n) 0 8 ∧ emits (emittingIn sc y n) 8 1 1 true = true
      ∧ topScope (((emittingIn sc y n).popped 0 { seed := 0 }).emission ((emittingIn sc y n).env 0) 8).hdr = BitVec.ofNat 16 sc) :=
  ⟨acts_of (by decide +kernel), looked_of (by decide +kernel), by decide +kernel, acts_of (by decide +kernel),
    looked_of (by decide +kernel), by decide +kernel, acts_of (by decide +kernel), looked_of (by decide +kernel), by decide +kernel, by
    rintro sc y n (e | e | e | e | e) <;> cases e <;>
      exact ⟨acts_of (by decide +kernel), looked_of (by decide +kernel), by decide +kernel, by decide +kernel⟩⟩

end Sys2Proof.Tests

/-! ## States that meet the hypotheses of the statements about decoding, the step and the core -/

namespace Sys2Proof.Tests

/-- A bundle of words and never-moves is next. -/
def fetching (l : List SlotWord) : State :=
  let m := memWrite [] 0 ((l ++ List.replicate (8 - l.length) 0x800000#24).flatMap fun w => natBytes 3 w.toNat)
  { on (fun t => t.withCode { mem := m }) with mem := m }

/-- Its worker. -/
def wkAt (l : List SlotWord) : Worker := { wk with code := { mem := (fetching l).mem } }

/-- A round trip: a move of two data slots before another, and a micro-operation with every field at its greatest. -/
theorem witness_EncodingsRoundTrip : Instr.wf (.limm48 15 (BitVec.allOnes 48) (.latch (.tc 15))) = true ∧ Instr.isSlot (.limm48 15 (BitVec.allOnes 48) (.latch (.tc 15))) = true
    ∧ encode (.limm48 15 (BitVec.allOnes 48) (.latch (.tc 15))) = [0x7FFF17, 0xFFFFFF, 0xFFFFFF] := by decide +kernel

theorem witness_EachSlotHasOneMeaning : decodeSlots [0x07F881, 0x123456, 0x800000] = { guard := 0, dst := 0x81, res := .ok (.add 0 (.limm24 0x123456) 0) } :: decodeSlots [0x800000] := by decide

/-- The lowest reserved source code, and the highest destination code. -/
theorem witness_ReservedSlotsTrap : Claims.badSrc (slotSrc 0x01F400) ∧ srcOf (slotSrc 0x0003FF) = some (.g 0) ∧ Claims.badDst (slotDst 0x0003FF)
    ∧ slotGuard 0x01F400 ≠ 0b10000#5 ∧ Claims.fetches (fetching [0x01F400]) 0 (wkAt [0x01F400]) (decodeSlots (0x01F400 :: List.replicate 7 0x800000#24))
    ∧ Claims.fetches (fetching [0x0003FF]) 0 (wkAt [0x0003FF]) (decodeSlots (0x0003FF :: List.replicate 7 0x800000#24)) ∧ ((fetching [0x01F400]).ctx 0 0).ctl.utvec.getLsbD 0 = false
    ∧ ((fetching [0x01F400]).ctx 0 0).asNever = false ∧ ((fetching [0x01F400]).ctx 0 0).closing = false :=
  ⟨.inl ⟨by decide, by decide⟩, by decide, .inr (.inr (.inl (by decide))), by decide, ⟨by decide +kernel, by decide +kernel, rfl⟩, ⟨by decide +kernel, by decide +kernel, rfl⟩, by decide +kernel, by decide +kernel, by decide +kernel⟩

/-- g2 -> ia0.o stands alone; g1 and g2 are exchanged; an act is given; the module is down. -/
theorem witness_StepRunsTheDecodedInstruction :
    ((fetching [0x000880]).agenda = [] ∧ (fetching [0x000880]).down = false ∧ (fetching [0x000880]).switchDue 0 = none
      ∧ Claims.fetches ((fetching [0x000880]).tick 1) 0 (wkAt [0x000880]) (decodeSlots (encode (.move 0 (.g 2) (.latch (.iaO 0))) ++ List.replicate 7 0x800000#24)))
    ∧ (Issuing (fetching [0x000402, 0x000801]) 0 (wkAt [0x000402, 0x000801]) ∧ Calm ((fetching [0x000402, 0x000801]).begun 0) ∧ Straight ((fetching [0x000402, 0x000801]).begun 0)
      ∧ ((fetching [0x000402, 0x000801]).begun 0).ctl.spreg = 31
      ∧ Claims.fetches (fetching [0x000402, 0x000801]) 0 (wkAt [0x000402, 0x000801])
        (decodeSlots (encode (.move 0 (.g 1) (.g 2)) ++ (encode (.move 0 (.g 2) (.g 1)) ++ List.replicate 6 0x800000#24))))
    ∧ Instr.isSlot .coldReset = false ∧ ({ boot with down := true } : State).down = true ∧ (({ boot with down := true } : State).agenda.head?.map (·.instr)) ≠ some .coldReset :=
  ⟨⟨by decide +kernel, by decide +kernel, by decide +kernel, by decide +kernel, by decide +kernel, rfl⟩,
    ⟨issuing_of (by decide +kernel), calm_of (by decide +kernel), straight_of (by decide +kernel), by decide +kernel, ⟨by decide +kernel, by decide +kernel, rfl⟩⟩, by decide, by decide, by decide⟩

/-- The exchange, run: g1 is 5 and g2 is 7 before it. -/
theorem test_exchange : let t := after (exec .bundleIssue ((fetching [0x000402, 0x000801]).updCtx 0 0 fun t => { t with g := vset (vset t.g 1 5) 2 7 }))
    vget (t.ctx 0 0).g 1 0 = 7 ∧ vget (t.ctx 0 0).g 2 0 = 5 := by decide +kernel

theorem witness_MemoriesStayCanonical : Claims.canonical boot ∧ step boot = .next (after (step boot)) := ⟨⟨by decide +kernel, by decide +kernel, by decide +kernel⟩, rfl⟩

/-- The context that the focus names has two results that are due in one port, the later last, and one that is not due. -/
def arriving (x : Nat) : State :=
  { State.reset.updCtx 0 x fun t => { t with snap := [{ port := .fa, val := 1, left := 0, flags := 1 }, { port := .im, val := 2, left := 1, flags := 2 }, { port := .fa, val := 3, left := 0, flags := 0 }] }
    with focus := { x := x } }

theorem witness_ResultsAreDelivered : ∀ x, x = 0 ∨ x = 4 → x < 5 ∧ x = (arriving x).focus.x
    ∧ (Claims.due ((arriving x).ctx (arriving x).focus.c x).snap).map (·.val) = [1, 3] ∧ ((arriving x).ctx 0 x).snap.length = 3 := by
  rintro x (rfl | rfl) <;> decide +kernel

/-- Run: the later of the two stays in the port, the flags of both are set, and the one that is not due waits. -/
theorem test_delivery : let k := (after (exec .resultDelivery (arriving 4))).ctx 0 4
    k.port.fa = 3 ∧ k.ctl.nfs = 1 ∧ k.snap = [{ port := .im, val := 2, left := 1, flags := 2 }] := by decide +kernel

/-- Contexts 0 and 3 of core 0 hold workers, and none runs; context 3 is to be killed; or context 0 has gone to the system context. -/
def idle : State := (boot.updCore 0 fun k => { k.setCtx 3 { k.ctx 0 with worker := some { wk with uid := 3 } } with running := none, last := 3 })
def dying : State := { (idle.updCtx 0 3 fun t => { t with killReq := some 1 }) with focus := { x := 3 } }
def trapped (cause : Cause) (debug : Bool) : State :=
  { (boot.updCore 0 fun k => { k with running := some 4 }).updCtx 0 0 fun t => { t with sys := some { cause := cause, pc := 0, addr := 0, first := none } } with vis := [(0, { debug := debug })] }

theorem witness_CoreEventsAct : idle.switchDue 0 = some 0 ∧ ((dying.ctx 0 3).worker.isSome = true ∧ (dying.ctx 0 3).killReq = some 1 ∧ (dying.ctx 0 3).sys = none)
    ∧ ((trapped .resid false).ctx 0 0).sys = some { cause := .resid, pc := 0, addr := 0, first := none } ∧ ((trapped .sstep false).ctx 0 0).sys.map (·.cause) = some .sstep
    ∧ ((trapped .brk true).ctx 0 0).sys.map (·.cause) = some .brk ∧ ((trapped .brk true).vi 0).debug = true ∧ ((trapped .brk false).vi 0).debug = false
    ∧ ((trapped .wdog false).ctx 0 0).sys.map (·.cause) = some .wdog ∧ (((trapped .brk true).updCtx 0 0 fun t => { t with stopped := true }).ctx 0 0).stopped = true
    ∧ ((trapped .brk true).ctx 0 0).worker = some wk ∧ ((trapped .brk true).ctx 0 0).killReq = none ∧ ((trapped .brk true).ctx 0 0).frozen = false := by
  decide +kernel

/-! ## Memory -/

/-- A load of 8 bytes at 0x100, as it joins the LAQ. -/
def load8 : LoadReq := { seq := 0, op := .plain, va := 0x100, img := Claims.run 0x100 0 8, eb := 8, len := 8, vec := false, pair := 0 }

/-- It is at the LAQ's head behind 31 entries; it waits in the LDQ for its bytes; or has them all. -/
def laqHead : State := on fun t => { t with laq := [load8], ldq := List.replicate 31 { req := load8 } }
def loading (got : List (Nat × Byte)) : State := on fun t => { t with ldq := [{ req := load8, got := got }] }

theorem witness_LoadsAreServed : ((laqHead.ctx 0 0).laq = [load8] ∧ (laqHead.ctx 0 0).ldq.length < 32)
    ∧ (((loading []).ctx 0 0).ldq[0]? = some { req := load8 } ∧ ({ req := load8 } : LdqEntry).complete = false ∧ ({ req := load8 } : LdqEntry).piece 0 ≠ []
      ∧ (loading []).pieceWaits 0 ((loading []).ctx 0 0) load8 (({ req := load8 } : LdqEntry).piece 0) = false
      ∧ (loading []).pieceMarks 0 ((loading []).ctx 0 0) load8 (({ req := load8 } : LdqEntry).piece 0) = [])
    ∧ ({ loading [] with badEcc := [0x107] } : State).pieceMarks 0 ((loading []).ctx 0 0) load8 (({ req := load8 } : LdqEntry).piece 0) ≠ []
    ∧ ({ loading [] with badEcc := [0x107] } : State).pieceWaits 0 ((loading []).ctx 0 0) load8 (({ req := load8 } : LdqEntry).piece 0) = false
    ∧ (({ req := load8 } : LdqEntry).held = false ∧ ({ req := load8 } : LdqEntry).landed = false ∧ ({ req := load8, got := (List.range 8).map fun j => (j, 0) } : LdqEntry).held = false)
    ∧ ({ req := load8, got := (List.range 8).map fun j => (j, 0) } : LdqEntry).complete = true :=
  ⟨⟨by decide +kernel, by decide +kernel⟩, ⟨by decide +kernel, by decide +kernel, by decide +kernel, by decide +kernel, by decide +kernel⟩, by decide +kernel, by decide +kernel, by decide +kernel, by decide +kernel⟩

/-- A store of one byte, its operand in the SDQ; sent, with its cell; and a write-through that awaits its acknowledgement. -/
def store1 : StoreReq := { seq := 0, va := 0x100, op := .plain (Claims.run 0x100 0 1) 1 false, claim := 0, nclaim := 1 }
def storing (bad : List Nat) : State := { (on fun t => { t with saq := [store1], sdq := [{ num := 0, vec := false, data := 0xAB }], pushes := 1, claims := 1 }) with badEcc := bad }
def sending (l : List (Nat × Loc × Byte)) : State := on fun t => { t with stFlight := [{ seq := 0, req := store1, cells := l }] }
def written (w : WriteThrough) : State := { boot with dies := [(0, { wt := [w] })] }
def through (biv : Bool) (pa : Nat) : WriteThrough := { core := 0, ctx := 0, seq := 0, bivouac := biv, cells := [(pa, 5)] }

theorem witness_StoresArePerformed :
    (((storing []).ctx 0 0).saq = [store1] ∧ ((storing []).ctx 0 0).storeFault = none ∧ ((storing []).ctx 0 0).drainFirst = false ∧ (storing []).recordHeld 0 ((storing []).ctx 0 0) store1 = false
      ∧ ((storing []).ctx 0 0).storeData store1 = some (0xAB, BitVec.allOnes 2048) ∧ (storing []).storeMark 0 ((storing []).ctx 0 0) (Claims.run 0x100 0 1) (fun _ => none) = none
      ∧ ((storing []).storeCells 0 ((storing []).ctx 0 0) (Claims.run 0x100 0 1) 1 0xAB).length = 1
      ∧ (storing [0x100]).storeMark 0 ((storing []).ctx 0 0) (Claims.run 0x100 0 1) (fun _ => none) ≠ none
      ∧ ((Claims.run 0x100 0 1).filter fun p => (BitVec.allOnes 2048).getLsbD p.2) = Claims.run 0x100 0 1)
    ∧ (∀ l, l = [(0, Loc.phys 0x100, (0xAB : Byte))] ∨ l = [(0, .phys 0x4000000000000, 0xAB)] ∨ l = [(0, .phys 0x100, 0xAB), (1, .phys 0x200, 0xCD)] →
      ((sending l).ctx 0 0).stFlight = [{ seq := 0, req := store1, cells := l }] ∧ store1.op.isData = true ∧ (sending l).storeWaits 0 ((sending l).ctx 0 0) 0 (l.take 1) = false
        ∧ ({ seq := 0, req := store1, cells := l } : StoreFlight).piece 0 = l.take 1 ∧ (sending l).landing (.phys 0x100) = some 0x100)
    ∧ ((sending []).isLocal 0 0x100 = true ∧ (sending []).isLocal 0 0x4000000000000 = false ∧ (sending []).landing (.phys 0x4000000000000) = some 0x4000000000000)
    ∧ (∀ w, w = through false 0x100 ∨ w = through true 0x4000000000000 ∨ w = through false 0x4000000000000 → (written w).acceptedBefore 0 w = false ∧ ((written w).die 0).wt[0]? = some w ∧ (written w).focus.o ≠ 1 ∧ ((written w).die 0).wt.take 0 = []
      ∧ ((∀ q ∈ w.cells, paMod q.1 = (written w).mod) ∨ w.bivouac = true ∨ ∃ q ∈ w.cells, paMod q.1 ≠ (written w).mod)) := by
  refine ⟨by decide +kernel, ?_, by decide +kernel, ?_⟩
  · rintro l (rfl | rfl | rfl) <;> decide +kernel
  · rintro w (rfl | rfl | rfl) <;> decide +kernel

/-- A die with a fill it owes, and with a frame in a state. -/
def paging : State := { boot with dies := [(0, { fillQ := [{ page := .anon 0 1 2, ro := false }] })] }
def framed (st : FrameState) (p : PageId) (dirty : Bool) : State := { boot with dies := [(0, { frames := [(3, { state := st, page := p, dirty := dirty, ro := false, pins := 0 })] })], slots := [(1, 2 ^ 60 + 1 + 2 ^ 64 + 13 * 2 ^ 96)], focus := { i := 3 } }

theorem witness_PagesComeAndGo : paging.focus.o ≠ 1
    ∧ ((paging.die 0).fillQ.find? (fun f => !paging.evicting f.page) = some { page := .anon 0 1 2, ro := false } ∧ (paging.die 0).frames.length < 61035 ∧ paging.frame? 0 61034 = none)
    ∧ (∀ p, p = PageId.cxl 0 ∨ p = .anon 0 1 2 ∨ p = .nvme 1 0 → (framed .filling p false).focus.o ≠ 1 ∧ ((framed .filling p false).frame? 0 3).map (fun f => (f.state, f.page)) = some (.filling, p))
    ∧ ((framed .filling (.nvme 1 0) false).chunkAddr 1 0 = some (2 ^ 140 + 2 ^ 13) ∧ (framed .claimed (.nvme 1 0) true).chunkAddr 1 0 = some (2 ^ 140 + 2 ^ 13))
    ∧ (∀ p b, p = PageId.cxl 0x8000000000000 ∨ p = .nvme 1 0 → (framed .claimed p b).focus.o ≠ 1 ∧ ((framed .claimed p b).frame? 0 3).map (fun f => (f.state, f.dirty, f.ro)) = some (.claimed, b, false)
      ∧ (framed .claimed p b).claimDrained p ((framed .claimed p b).frameAddr 0 3) = true ∧ (framed .claimed p b).badEcc = []) := by
  refine ⟨by decide, by decide +kernel, ?_, by decide +kernel, ?_⟩
  · rintro p (rfl | rfl | rfl) <;> decide +kernel
  · rintro p (_ | _) (rfl | rfl) <;> decide +kernel

end Sys2Proof.Tests

/-! ## States that meet the hypotheses of the statements about the agents -/

namespace Sys2Proof.Tests

/-- A sync object of version 5 at 0x200, and an acq of a version there with its reply open; a waiter list of n places in use. -/
def acquiring (ver : BitVec 32) (n : Nat) : State :=
  { (on fun t => { t with awaiting := [{ unit := .sy, code := 0x343, rid := 1, a := 0x200, t := ver.zeroExtend 64 <<< 3 }] }) with
    mem := memWrite boot.mem 0x200 (natBytes 8 5), waiters := (List.range n).map fun i => { pa := 0x200, uid := 100 + i } }

/-- An item sent and not yet performed. -/
def sentItem (op : StoreOp) (va : Nat) : StoreFlight := { seq := 0, req := { seq := 0, va := va, op := op, claim := 0, nclaim := 0 }, cells := [(0, .phys va, 0)] }
def sent (op : StoreOp) (va : Nat) (m : List Host.Cell) : State := { (on fun t => { t with stFlight := [sentItem op va] }) with mem := m }

/-- An amo of a word at 0x200, its operands taken. -/
def amoing (o : AmoOp) : State :=
  { (on fun t => { t with ldq := [{ req := { seq := 0, op := .amo o 4 3 0 0 7, va := 0x200, img := Claims.run 0x200 0 4, eb := 4, len := 4, vec := false, pair := 0 } }] }) with
    mem := memWrite boot.mem 0x200 (natBytes 4 0xFFFFFFFF) }

/-- A barrier object at 0x200, a bwait on a parity, and the waiters there. -/
def barring (b : Nat) (par : Word) (ws : List HomeWaiter) : State :=
  { (on fun t => { t with awaiting := [{ unit := .ce, code := 0x2C7, rid := 1, a := 0x200, t := par }] }) with mem := memWrite boot.mem 0x200 (natBytes 32 b), waiters := ws }

/-- Parities of n arrivals, of a phase that owes b bytes. -/
def barrier (n b : Nat) : Nat := barUpdate (barUpdate 0 (.init n)) (.bytes b)

theorem witness_SyncObjectsAnswer :
    (∀ ver n, (ver = 5#32 ∨ ver = 6#32) → n = 0 ∨ n = 32 → ((acquiring ver n).ctx 0 0).request .sy = some { unit := .sy, code := 0x343, rid := 1, a := 0x200, t := ver.zeroExtend 64 <<< 3 }
      ∧ ((acquiring ver n).placeSpan 0 ((acquiring ver n).ctx 0 0) 0x200 64).toOption = some 0x200 ∧ memNat (acquiring ver n).mem 0x200 8 = 5
      ∧ (∀ h ∈ (acquiring ver n).waiters, ¬ (h.pa = 0x200 ∧ h.uid = ((acquiring ver n).ctx 0 0).uid)) ∧ (acquiring ver n).waitRoom 0x200 = (n == 0))
    ∧ (objVer 5 = 5 ∧ objExclusive 5 = false ∧ (0 : Int) ≤ (5 - (5 : BitVec 32)).toInt ∧ ((5 : BitVec 32) - 6).toInt < 0)
    ∧ (((sent (.rel 3) 0x200 (acquiring 5 0).mem).locate 0 ((sent (.rel 3) 0x200 (acquiring 5 0).mem).ctx 0 0) (0x200 : Nat)).bind (sent (.rel 3) 0x200 (acquiring 5 0).mem).landing = some 0x200
      ∧ memNat (acquiring 5 0).mem 0x200 8 = 5 ∧ boot.waiters = [])
    ∧ (∀ o, o = AmoOp.add ∨ o = .cas → (((amoing o).ctx 0 0).ldq.map fun e => (e.req.op, e.complete)) = [(.amo o 4 3 0 0 7, false)] ∧ ((amoing o).ctx 0 0).amoFence 0 = false
      ∧ (∀ p ∈ Claims.run 0x200 0 4, (amoing o).storeBefore 0 ((amoing o).ctx 0 0) 0 ((amoing o).locate 0 ((amoing o).ctx 0 0) p.1) = false
        ∧ (amoing o).loadBefore 0 ((amoing o).ctx 0 0) 0 ((amoing o).locate 0 ((amoing o).ctx 0 0) p.1) = false
        ∧ (amoing o).refusedAmo 0 ((amoing o).ctx 0 0) 0 ((amoing o).locate 0 ((amoing o).ctx 0 0) p.1) = false) ∧ (amoing o).accepted = []
      ∧ ((amoing o).place (((Claims.run 0x200 0 4).map fun p => (amoing o).locate 0 ((amoing o).ctx 0 0) p.1).headD none)).toOption = some 0x200
      ∧ (amoing o).badEcc = [] ∧ ((amoing o).die 0).wt = [] ∧ memNat (amoing o).mem 0x200 4 = 0xFFFFFFFF ∧ (3 : BitVec 3).toNat < 4)
    ∧ (∀ n b, (n, b) = (2, 0) ∨ (n, b) = (1, 0) ∨ (n, b) = (1, 64) → ∀ s, s = sent (.barr 3) 0x200 (memWrite boot.mem 0x200 (natBytes 32 (barrier n b))) → s.barNow = [] ∧ (s.ctx 0 0).stFlight[0]? = some (sentItem (.barr 3) 0x200)
      ∧ (s.locate 0 (s.ctx 0 0) (0x200 : Nat)).bind s.landing = some 0x200 ∧ s.storeWaits 0 (s.ctx 0 0) 0 [(0, .phys 0x200, 0)] = false ∧ s.storeComing 0 0 0 0x200 = false
      ∧ memNat s.mem 0x200 32 = barrier n b ∧ barParr (barrier n b) = n ∧ barBytes (barrier n b) = b)
    ∧ (∀ par ws, (par = 0#64 ∨ par = 1#64) → ws = [] ∨ ws = [{ pa := 0x200, uid := 0 }] ∨ ws = (acquiring 6 32).waiters → ((barring 1 par ws).ctx 0 0).request .ce = some { unit := .ce, code := 0x2C7, rid := 1, a := 0x200, t := par }
      ∧ ((barring 1 par ws).placeSpan 0 ((barring 1 par ws).ctx 0 0) 0x200 32).toOption = some 0x200 ∧ barPhase (memNat (barring 1 par ws).mem 0x200 32) = true ∧ (barring 1 par ws).focus.o ≠ 1
      ∧ (barring 1 par ws).waitRoom 0x200 = decide (ws.length < 2)) := by
  refine ⟨?_, by decide, by decide +kernel, ?_, ?_, ?_⟩
  · rintro ver n (rfl | rfl) (rfl | rfl) <;> decide +kernel
  · rintro o (rfl | rfl) <;> decide +kernel
  · rintro n b (e | e | e) s rfl <;> cases e <;> decide +kernel
  · rintro par ws (rfl | rfl) (rfl | rfl | rfl) <;> decide +kernel

/-- A launch of one core and one context of die 0, that has passed its checks. -/
def launch (id : Nat) : Launch := { id := id, vi := 0, queue := 2, rcd := { dies := 1, regs := 7 }, taken := true, scope := 0x0800, checked := true, fromHost := true }
def waiting : State := { State.reset with launchQ := [(2, [launch 4])] }

/-- Its worker has been claimed and has not started. -/
def claimed : State := { (on fun t => { t with starting := true }) with launches := [launch 0] }

theorem witness_LaunchesRunAndComplete : (waiting.launches = [] ∧ waiting.launchQ = [(2, [launch 4])] ∧ (waiting.vi 0).frozen = false ∧ (waiting.plan (launch 4)).isSome = true)
    ∧ ((claimed.ctx 0 0).starting = true ∧ (claimed.ctx 0 0).frozen = false ∧ claimed.launch? wk.launch = some (launch 0) ∧ (claimed.copyTable wk.rcd.wtab).1 = [])
    ∧ (({ State.reset with launches := [launch 4] } : State).launchOver (launch 4) = true ∧ scopeNil (launch 4).scope = true)
    ∧ ({ State.reset with energyMsgs := [(4, 7)] } : State).energyMsgs[0]? = some (4, 7) :=
  ⟨⟨rfl, rfl, by decide +kernel, by decide +kernel⟩, ⟨by decide +kernel, by decide +kernel, by decide +kernel, by decide +kernel⟩, ⟨by decide +kernel, by decide +kernel⟩, rfl⟩

/-- A packet of sequence number 1 for queue 3, with n launches in its queue and its body's two numbers. -/
def packet (n : Nat) (gen : Nat) : State :=
  { State.reset with vis := [(0, { en := true })], launchQ := [(3, List.replicate n (launch 9))], nextId := 10
                     hostMem := memWrite [] 0x1000 (natBytes 8 gen ++ List.replicate 120 0 ++ natBytes 8 gen), focus := { w := BitVec.ofNat 512 (1 + 3 * 2 ^ 32 + 0x1000 * 2 ^ 64) } }

theorem witness_PacketsAreQueuedOrRefused : ((packet 63 1).vi 0).en = true ∧ (BitVec.ofNat 512 (1 + 3 * 2 ^ 32 + 0x1000 * 2 ^ 64)).extractLsb' 0 32 = ((packet 63 1).vi 0).lseq + 1
    ∧ (packet 63 1).queueFill 3 = 63 ∧ (packet 64 1).queueFill 3 = 64 ∧ (BitVec.ofNat 512 (1 + 3 * 2 ^ 32 + 0x1000 * 2 ^ 64)).extractLsb' 192 320 = 0
    ∧ (readBody (packet 0 1).hostMem 0x1000 1).isSome = true ∧ (readBody (packet 0 2).hostMem 0x1000 1).isNone = true
    ∧ ((∀ m ∈ (packet 63 1).queue 3, m.id ≠ (packet 63 1).nextId) ∧ (packet 63 1).focus.k = 0 ∧ (packet 63 1).focus.o = 0 ∧ (BitVec.ofNat 512 (1 + 3 * 2 ^ 32 + 0x1000 * 2 ^ 64)).extractLsb' 41 23 = 0)
    ∧ (let s : State := { packet 0 2 with launchQ := [(3, [{ launch 4 with queue := 3, seq := 1, body := .pending 0x1000 8 0 }])], clk := 4000 }
       s.bodies.map (·.body) = [.pending 0x1000 8 0] ∧ (0 : Nat) + 4000 ≤ s.clk) := by decide +kernel

/-- Stage 0 of two cores has blocked, its queue to stage 1 is full of what stage 1 sees; an interval ends. -/
def balanced (blocked : Nat) : State :=
  { (on fun t => { t with worker := some wkStage }).updCore 0 (fun k => k.setCtx 1 { k.ctx 0 with worker := some { wk with uid := 1, stage := some (9, 1) } }) with
    clk := 1024
    pipes := [{ id := 9, launch := 0, die := 0, start := 0, ivexp := 10, hw := 3, lw := 17, recs := [{}, {}], cores := [[0, 1], [2]], blocked := [blocked, 0]
                queues := [{ src := 0, dst := 1, depth := 1, pair := 0, entries := [{ fresh with visible := true }], gone := [], closed := false }] }] }

/-- A die team's, a scope's and a queue's messages. -/
theorem witness_MessagesArrive :
    ({ teamed 0 none with teamMsgs := [{ launch := 0, uid := 0 }] } : State).teamMsgs[0]? = some { launch := 0, uid := 0 }
    ∧ (let s : State := { asked .sy 0x345 0 with scopeReqs := [{ rid := 1, uid := 0, unit := .sy, id := 0x1000, close := false }], dies := (scopes 1 5 true).dies }
       s.place? 0 = some (0, 0) ∧ ((s.ctx 0 0).awaiting.find? (fun a => a.rid = 1)).isSome = true ∧ s.scopeLive 0x1000 = true ∧ s.scopeLive 0x2000 = false ∧ (s.scope 0x1000).pending = 5)
    ∧ (({ scopes 1 2 false with scopeDecs := [0x1000] } : State).scopeLive 0x1000 = true ∧ (({ scopes 1 1 false with scopeDecs := [0x1000] } : State).scope 0x1000).pending = 1)
    ∧ ((piped [fresh] false).pipes[0]?.bind fun p => p.queues[0]?).map (fun q => (q.entries, q.gone)) = some ([fresh], []) ∧ fresh.visible = false
    ∧ (balanced 1).pipes.map (balanced 1).chooseMove = [some (1, 0, 1)] ∧ (balanced 0).pipes.map (balanced 0).chooseMove = [none]
    ∧ ∀ b ∈ [0, 1], ∀ p ∈ (balanced b).pipes, p.start < (balanced b).clk ∧ ((balanced b).clk - p.start) % 2 ^ p.ivexp = 0 ∧ p.measured ≠ (balanced b).clk := by
  decide +kernel

/-- A worker that is to be saved, its image slot reserved; and its saved image, for which a context has been claimed. -/
def image (saved : Option Ctx) (begun : Bool) : Image := { uid := 0, vi := 0, slot := 0, core := 0, x := 0, saved := saved, calls := [], spill := [3], owed := 0, begun := begun }
def saving : State := { (on fun t => { t with saving := true }) with images := [image none false] }
def restoring (begun : Bool) : State := { (on fun t => { t with starting := true }) with images := [image (some (boot.ctx 0 0)) begun] }

/-- The response to a message of its worker. -/
def answering : FabricMsg := { id := 1, uid := 0, vi := 0, core := 0, ctx := 0, header := 0, words := [], locs := [], room := 2, resp := some [7] }

/-- Queue 2's watchdog in a state, its count at the least that it acts on. -/
def dog (st : WdState) (l : Nat) : State := { claimed with vis := [(0, { wd := [(2, { state := st, count := l * 4000 })] })], focus := { k := 2 } }

theorem witness_WorkersAreSavedRestoredAndFenced :
    ((saving.ctx 0 0).worker = some wk ∧ (saving.ctx 0 0).saving = true ∧ (saving.ctx 0 0).frozen = false ∧ (saving.ctx 0 0).sys = none ∧ (saving.ctx 0 0).ldq = []
      ∧ (saving.ctx 0 0).stFlight = [] ∧ (saving.ctx 0 0).saq = [] ∧ (saving.core 0).calls = [] ∧ (saving.images.find? fun i => i.reserved wk.uid) = some (image none false))
    ∧ (∀ b ∈ [false, true], (restoring b).images[0]? = some (image (some (boot.ctx 0 0)) b) ∧ ((restoring b).ctx 0 0).frozen = false
      ∧ (restoring b).cores.findSome? (fun p => ([0, 1, 2, 3].find? fun x => (p.2.ctx x).isWorker 0 && (p.2.ctx x).starting).map fun x => (p.1, x)) = some (0, 0))
    ∧ (boot.ctx 0 0).roTiles = [] ∧ (boot.ctx 0 0).owns = []
    ∧ (({ restoring false with fabric := [answering] } : State).savedImage 0 = some 0 ∧ ({ restoring false with fabric := [] } : State).arrived 1 true = true
      ∧ answering.away = none ∧ answering.resp = some [7])
    ∧ (∀ st l, (st, l) = (.run, 10000) ∨ (st, l) = (.pre, 100000) ∨ (st, l) = (.kill, 1000000) → ((dog st l).vi 0).dog 2 = { state := st, count := l * 4000 }
      ∧ ((dog st l).vi 0).frozen = false ∧ (dog st l).settleTeams.endBarriers = dog st l)
    ∧ (({} : Watchdog).l1 = 10000 ∧ ({} : Watchdog).l2 = 100000 ∧ ({} : Watchdog).l3 = 1000000 ∧ ({} : Watchdog).lims = (10000, 100000, 1000000) ∧ (dog .pre 100000).queueRunning 0 2 = [launch 0])
    ∧ ((boot.updCore 0 fun k => { k with fenced := true }).core 0).fenced = true ∧ ∀ x < 4, ((boot.updCore 0 fun k => { k with fenced := true }).ctx 0 x).killReq = none := by
  refine ⟨by decide +kernel, by decide +kernel, by decide +kernel, by decide +kernel, by decide +kernel, ?_, by decide +kernel, by decide +kernel⟩
  rintro st l (e | e | e) <;> cases e <;> decide +kernel

/-- The last register of each map, and the last entry of each table. -/
theorem witness_InterfacesAndTablesAreWritten : (State.reset.vi 63).frozen = false ∧ (State.reset.vi 63).resetting = false ∧ (∃ l ∈ claimed.launches, l.vi = 0)
    ∧ (63 * 0x10000 + 0x200 : Nat) < 2 ^ 32 ∧ (State.reset.expert 8191).state = 0 ∧ (State.reset.expert 8191).waiters = []
    ∧ (8 : BitVec 256).getLsbD 3 = true ∧ (8 : BitVec 256).getLsbD 2 = false ∧ (Expert.ofBits 8 (State.reset.expert 8191)).fits = true ∧ (State.reset.expert 8191).pins = 0
    ∧ ({ State.reset with focus := { d := 64, o := 0x300000000, w := 0x10000 } } : State).focus.d = 63 + 1 ∧ 63 ≠ State.reset.mod ∧ State.reset.images = []
    ∧ (State.reset.violates 63 1 = true ∧ State.reset.violates 0 2 = true ∧ State.reset.violates 0 1 = false) :=
  ⟨by decide +kernel, by decide +kernel, ⟨launch 0, by decide +kernel, rfl⟩, by decide, by decide +kernel, rfl, by decide, by decide, by decide +kernel, rfl, rfl, by decide +kernel, rfl, by decide +kernel⟩

/-- A started entry of a command queue, 64 bytes short of its end by more than a piece. -/
def ueOp : UeOp := { vi := 0, op := 0, addr := 0x400, len := 129, obj := 0, want := 0 }

/-- An outbound one, whose object is counted and at version 5. -/
def ueOut (want : BitVec 32) (acq : Bool) : UeOp := { vi := 0, op := 1, addr := 0x400, len := 65, obj := 0x200, want := want, done := 32, acq := acq }
def sendingOut (want : BitVec 32) (acq : Bool) : State := { acquiring 0 0 with ueOps := [ueOut want acq], focus := { o := 1 } }

theorem witness_TheModuleIsManaged : (tget {} State.reset.ueq 0).cons = 0 ∧ (tget ({} : UeQueue) [(0, { size := 1 })] 0).cons + 1 = 1 ∧ State.reset.focus.o ≠ 1
    ∧ (({ State.reset with ueOps := [ueOp] } : State).ueOps[0]? = some ueOp ∧ ueOp.done + 64 < ueOp.len ∧ ∀ j : Fin 64, State.reset.backed (ueOp.addr + ueOp.done + j) = true)
    ∧ (∀ acq, (sendingOut 5 acq).focus.o = 1 ∧ (sendingOut 5 acq).ueOps[0]? = some (ueOut 5 acq) ∧ (ueOut 5 acq).op ≠ 0 ∧ (sendingOut 5 acq).backed 0x200 = true ∧ (sendingOut 5 acq).softEcc = [])
    ∧ (memNat (sendingOut 5 false).mem 0x200 8 = 5 ∧ memNat (sendingOut 6 false).mem 0x200 8 = 5 ∧ objExclusive 5 = false ∧ objGrants 5 5 false = true ∧ objGrants 5 6 false = false)
    ∧ (objExclusive (BitVec.ofNat 64 (2 ^ 32)) = true ∧ objHeld (BitVec.ofNat 64 (2 ^ 32)) = false) ∧ covered [] 4 0x400 0x441 = false
    ∧ ((0x400 + 32) % 32 = 0 ∧ 32 + 32 < (ueOut 5 true).len)
    ∧ 105 * 16 < (105 * 16 + 1) % 2 ^ 16 ∧ (100 * 16 - 1) % 2 ^ 16 < 100 * 16 ∧ 115 * 16 ≤ (115 * 16) % 2 ^ 16 := by decide +kernel

end Sys2Proof.Tests

/-! ## States that meet the hypotheses of the statements about engines -/

namespace Sys2Proof.Tests

/-- The sectors read of the record at 0x40: both of them, or none. -/
def sectors (r : Nat) (read : Bool) : List (Nat × BitVec 256) := if read then [(0x40, BitVec.ofNat 256 r), (0x60, BitVec.ofNat 256 (r / 2 ^ 256))] else []

/-- A record at 0x40; channel 0 running there; a command of it, with what is left of it to do. -/
def recorded (r : Nat) (read : Bool) : State :=
  { (on fun t => { t with chan := vset t.chan 0 { running := true, head := 0x40, got := sectors r read }, tok := Vector.replicate 8 { count := 254 }, cnt := { t.cnt with copies := 1, tiles := 1 } }) with
    mem := memWrite boot.mem 0x40 (natBytes 64 r) }
def command (r : Nat) (read : Bool) (p : CmdPhase) (todo : List Nat) : CopyCmd :=
  { id := 1, ctx := 0, uid := 0, rva := 0x40, rcd := BitVec.ofNat 512 r, tok := some 1, phase := p, seq := 0, todo := todo, wins := [bareWindow 0], vi := 0, launch := 0, got := sectors r read }
def commanded (r : Nat) (read : Bool) (p : CmdPhase) (todo : List Nat) : State := (recorded r read).updCore 0 fun k => { k with cmds := [command r read p todo] }

/-- Records of 3 bytes from 0x100 to 0x200 (and from where no window is), and of generations that differ. -/
def flat : Nat := 3 * 2 ^ 32 + 0x200 * 2 ^ 160 + 0x100 * 2 ^ 208
def astray : Nat := 3 * 2 ^ 32 + 0x200 * 2 ^ 160 + 0x800000000000 * 2 ^ 208
def torn : Nat := 2 ^ 256

/-- What a result failed with. -/
def failure {α : Type} (r : Except Cause α) : Option Cause := match r with | .error e => some e | _ => none

theorem error_of {α : Type} {r : Except Cause α} {e : Cause} (h : failure r = some e) : r = .error e := by
  cases r <;> simp [failure] at h
  rw [h]

theorem got_ok {α : Type} {r : Except Cause α} {b : α} (h : r.toOption = some b) : r = .ok b := by
  cases r <;> simp [Except.toOption] at h
  rw [h]

/-- A shape of two rows: its format and bs bit, elements of a row, stride, and where its scales lie. -/
def shape2 (fmt bs e0 stride scales : Nat) : BitVec 512 :=
  BitVec.ofNat 512 (2 * 2 ^ 24 + fmt * 2 ^ 15 + bs * 2 ^ 14 + e0 * 2 ^ 96 + 2 * 2 ^ 120 + stride * 2 ^ 216 + scales * 2 ^ 416)

/-- A command from rows of f32 to rows of another shape, one unit of it left; and one with a piece formed. -/
def strided (d : BitVec 512) (j : Nat) : CopyCmd := { command flat true .running [j] with srcShape := shape2 0 0 2 16 0, dstShape := d }
def formed : OutPiece := { unit := 0, cells := [(.va 0x200, 1), (.va 0x201, 2)] }
def copying (m : CopyCmd) (o : Nat) : State := { (recorded flat true).updCore 0 (fun k => { k with cmds := [m] }) with focus := { o := o } }

theorem oks {α : Type} {l : List (Except Cause α)} (h : l.all (fun r => r.toOption.isSome) = true) : ∃ es : List α, l = es.map .ok := by
  induction l with
  | nil => exact ⟨[], rfl⟩
  | cons r l ih =>
    rw [List.all_cons, Bool.and_eq_true] at h
    obtain ⟨es, rfl⟩ := ih h.2
    cases r with
    | error e => cases h.1
    | ok a => exact ⟨a :: es, rfl⟩

/-- A channel's step, and a command's start, may read the two sectors, and then read the record. -/
theorem witness_CopiesRunAndEnd :
    (∀ r ∈ [256, 256 + 2 ^ 21, 0, torn], ∀ b ∈ [true, false], Claims.stands (recorded r b) 0 0 0 ∧ (recorded r b).focus.d ≠ 1 ∧ (vget ((recorded r b).ctx 0 0).chan 0 {}).running = true
      ∧ lookupSpan ((recorded r b).ctx 0 0).wins ((recorded r b).ctx 0 0).launch (recorded r b).mod 0 (0x40 : Nat) (0x7F : Nat) .read = none
      ∧ recordOf (sectors r true) 0x40 = BitVec.ofNat 512 r ∧ sectorsLeft (sectors r true) 0x40 = [] ∧ sectorsLeft (sectors r false) 0x40 = [0x40, 0x60]
      ∧ (recorded r b).ownerStores 0 0 0 (((recorded r b).ctx 0 0).view 0) (spanOf (0x40 : Nat) 32) = false
      ∧ ((recorded r b).engineBytes (((recorded r b).ctx 0 0).view 0) (spanOf (0x40 : Nat) 32)).toOption.isSome = true)
    ∧ (recOwn (BitVec.ofNat 512 256) = true ∧ recTv (BitVec.ofNat 512 (256 + 2 ^ 21)) = true ∧ recOwn (BitVec.ofNat 512 0) = false
      ∧ (vget ((recorded 256 true).ctx 0 0).tok 0 {}).count < 255 ∧ (recorded 256 true).at.cmds = [])
    ∧ (∀ r ∈ [torn, flat], ∀ b ∈ [true, false], (commanded r b .queued []).at.cmds = [command r b .queued []] ∧ Claims.stands (commanded r b .queued []) 0 0 0 ∧ recAcq (BitVec.ofNat 512 r) = false
      ∧ (commanded r b .queued []).ownerStores 0 0 0 ((command r b .queued []).view 0) (spanOf (0x40 : Nat) 32) = false
      ∧ ((commanded r b .queued []).engineBytes ((command r b .queued []).view 0) (spanOf (0x40 : Nat) 32)).toOption.isSome = true
      ∧ recordOf (sectors r true) 0x40 = BitVec.ofNat 512 r)
    ∧ recGen0 (BitVec.ofNat 512 torn) ≠ recGen1 (BitVec.ofNat 512 torn) ∧ recGen0 (BitVec.ofNat 512 flat) = recGen1 (BitVec.ofNat 512 flat) ∧ recLen (BitVec.ofNat 512 flat) = 3
    ∧ (∀ p ∈ [CmdPhase.running, .firmware], (commanded flat true p [2]).at.cmds = [command flat true p [2]] ∧ (commanded flat true p [2]).focus.o = 0
      ∧ (commanded flat true p [2]).engineByte ((command flat true p [2]).view 0) ((0x100 + 2 : Nat) : Int) = .ok 0
      ∧ (commanded flat true p [2]).engineAt ((command flat true p [2]).view 0) ((0x200 + 2 : Nat) : Int) .write = .ok 0x202
      ∧ (commanded astray true p [2]).engineByte ((command astray true p [2]).view 0) ((recSrc (BitVec.ofNat 512 astray) + 2 : Nat) : Int) = .error .window
      ∧ Claims.stands (commanded flat true p []) 0 0 0 ∧ (commanded flat true p []).inTier 0 (command flat true p []) = true ∧ (commanded flat true p []).samplesOwed 1 = false)
    ∧ (∀ d j, (d, j) = (shape2 9 0 2 8 0, 5) ∨ (d, j) = (shape2 0x44 1 1 8 0x280, 1) → (copying (strided d j) 0).at.cmds = [strided d j] ∧ (strided d j).sides = (Shape.of (shape2 0 0 2 16 0), Shape.of d)
      ∧ j < (Shape.of d).units ∧ (Shape.of d).cv = false ∧ (Shape.of (shape2 0 0 2 16 0)).bs = false ∧ (copying (strided d j) 0).focus.o = 0)
    ∧ ((Shape.of (shape2 9 0 2 8 0)).bs = false ∧ (Shape.of (shape2 9 0 2 8 0)).width = 16 ∧ (Shape.of (shape2 0 0 2 16 0)).width = 32 ∧ (Shape.of (shape2 9 0 2 8 0)).rowBytes = 4)
    ∧ (∀ q, q < 4 → (copying (strided (shape2 9 0 2 8 0) 5) 0).engineByte ((strided (shape2 9 0 2 8 0) 5).view 0)
      ((Shape.of (shape2 0 0 2 16 0)).rowBase (0x100 : Nat) 1 + (q : Nat)) = .ok (BitVec.ofNat 8 (0 / 2 ^ (8 * q))))
    ∧ (copying (strided (shape2 9 0 2 8 0) 5) 0).engineAt ((strided (shape2 9 0 2 8 0) 5).view 0) ((Shape.of (shape2 9 0 2 8 0)).rowBase (0x200 : Nat) 1 + (1 : Nat)) .write = .ok 0x209
    ∧ ((Shape.of (shape2 0x44 1 1 8 0x280)).bs = true ∧ ∃ es : List Elem, ((Shape.of (shape2 0x44 1 1 8 0x280)).unitElems 1).map
      ((copying (strided (shape2 0x44 1 1 8 0x280) 1) 0).srcElem 0 (strided (shape2 0x44 1 1 8 0x280) 1)) = es.map .ok)
    ∧ (∀ m, m = { command flat true .running [] with out := [formed] } → (copying m 1).at.cmds = [m] ∧ (copying m 1).focus.o = 1 ∧ m.outBehind formed = false
      ∧ formed.cells = [(0x200, 1), (0x201, 2)].map (fun (e : Int × Byte) => (.va e.1, e.2))
      ∧ (copying m 1).engineAt (m.view 0) 0x200 .write = .ok 0x200 ∧ (copying m 1).engineAt (m.view 0) 0x201 .write = .ok 0x201) := by
  refine ⟨?_, by decide +kernel, ?_, by decide +kernel, by decide +kernel, by decide +kernel, fun p hp => ?_, ?_, by decide +kernel, fun q hq => ?_, got_ok (by decide +kernel),
    ⟨by decide +kernel, oks (by decide +kernel)⟩, ?_⟩
  rotate_left 3
  · rintro d j (e | e) <;> cases e <;> decide +kernel
  · have : ∀ q : Fin 4, ((copying (strided (shape2 9 0 2 8 0) 5) 0).engineByte ((strided (shape2 9 0 2 8 0) 5).view 0)
        ((Shape.of (shape2 0 0 2 16 0)).rowBase (0x100 : Nat) 1 + (q.1 : Nat))).toOption = some (BitVec.ofNat 8 (0 / 2 ^ (8 * q.1))) := by decide +kernel
    exact got_ok (this ⟨q, hq⟩)
  · rintro m rfl
    exact ⟨by decide +kernel, by decide +kernel, by decide +kernel, by decide +kernel, got_ok (by decide +kernel), got_ok (by decide +kernel)⟩
  · intro r hr b hb
    refine ⟨stands_of ?_, ?_⟩ <;> revert r b <;> decide +kernel
  · intro r hr b hb
    refine ⟨?_, stands_of ?_, ?_⟩ <;> revert r b <;> decide +kernel
  simp only [List.mem_cons, List.not_mem_nil, or_false] at hp
  rcases hp with rfl | rfl <;> exact ⟨by decide +kernel, rfl, got_ok (by decide +kernel), got_ok (by decide +kernel), error_of (by decide +kernel),
    stands_of (by decide +kernel), by decide +kernel, by decide +kernel⟩

end Sys2Proof.Tests

namespace Sys2Proof.Tests

/-- Call 1 of the worker, in a phase, of routine 64, with every control word w: b8p4 of 2 rows of 3 columns, or of one of each. -/
def calling (p : CallPhase) (w : Word) : MatCall :=
  { call 0 with t := 64, phase := p, mp := Vector.replicate 8 0x200, tc := Vector.replicate 16 w, entry := BitVec.ofNat 64 (2 ^ 32 + 1 + 3 * 2 ^ 23) }
def six : Word := BitVec.ofNat 64 (0x44 + 2 * 2 ^ 12 + 3 * 2 ^ 19)
def one : Word := BitVec.ofNat 64 (0x44 + 2 ^ 12 + 2 ^ 19)

/-- It is the one call of its core; its routine's entry, and its next micro-operation; two bytes of tiles, and two values of accumulators, are not 0. -/
def micro (m : MatCall) (e : Nat) (o : MicroOp) : State :=
  (teamed 0 none).updCore 0 fun k => ({ k.setCtx 0 { k.ctx 0 with cnt := { (k.ctx 0).cnt with tiles := 1 }, tok := Vector.replicate 8 { count := 254 } } with
    calls := [m], rtab := [(64, BitVec.ofNat 64 e)], mstore := [(1024, encodeMicro o)] } : Core).setTile 0 2 [(0, 0x40), (1, 0x48)] |>.setAcc 0 3 [(0, 0, 0x3F800000), (1, 1, 0x40000000)]

/-- The entry is not valid; needs 3 banks that nobody has; or that the worker holds. -/
def starting (e : Nat) (h : BitVec 16) : State := (micro (calling .queued six) e .halt).updCore 0 fun k => { k with holds := [(0, h)] }
def entry3 : Nat := 1 + 5 * 2 ^ 12 + 3 * 2 ^ 23

/-- The allocator's one request, for n banks, another worker holding 8. -/
def asking (n : Nat) : State := boot.updCore 0 fun k => { k with bankQ := [{ uid := 0, ctx := 0, n := n }], holds := [(7, 0xFF)] }

/-- Claims.atMicro for a running call that is not to be suspended. -/
theorem at_of {m : MatCall} {e : Nat} {o : MicroOp}
    (h : ((micro m e o).at.calls[0]? == some m && m.phase == .running && !(micro m e o).callSaving 0 m && (micro m e o).at.microWord m == some (encodeMicro o)) = true) :
    Claims.atMicro (micro m e o) 0 0 m o := by
  simp only [Bool.and_eq_true, beq_iff_eq, Bool.not_eq_true'] at h
  exact ⟨h.1.1.1, h.1.1.2, fun _ => h.1.2, h.2⟩

theorem witness_MicroOperationsAct :
    (∀ e h, (e, h) = (0, 0#16) ∨ (e, h) = (entry3, 0#16) ∨ (e, h) = (entry3, 0x0111#16) → (starting e h).at.calls = [calling .queued six] ∧ Claims.stands (starting e h) 0 0 0
      ∧ (starting e h).at.routine 0 64 = BitVec.ofNat 64 e ∧ (starting e h).at.request 0 = none)
    ∧ (callAcq (calling .queued six).t = false ∧ rtValid 0 = false ∧ rtValid (BitVec.ofNat 64 entry3) = true ∧ rtBanks (BitVec.ofNat 64 entry3) = 3
      ∧ callA (calling .queued six).t = none ∧ callB (calling .queued six).t = none
      ∧ bankCount ((starting entry3 0).at.hold 0) < 3 ∧ 3 ≤ bankCount ((starting entry3 0x0111).at.hold 0))
    ∧ (∀ n, (asking n).at.bankQ = [{ uid := 0, ctx := 0, n := n }] ∧ (asking n).at.bankNew = [] ∧ (asking n).at.calls = [])
    ∧ bankCount ({ (asking 8).at with bankRel := 0 } : Core).freeBanks = 8
    ∧ (Claims.atMicro (micro (calling .running six) 1 .halt) 0 0 (calling .running six) .halt ∧ Claims.stands (micro (calling .running six) 1 .halt) 0 0 0
      ∧ (micro (calling .running six) 1 .halt).callInTier 0 (calling .running six) = false ∧ (micro (calling .running six) 1 .halt).images = [])
    ∧ (Claims.atMicro (micro (calling .running six) 1 (.tld 15 0 1 2 0)) 0 0 (calling .running six) (.tld 15 0 1 2 0) ∧ tcValid 0xFFFF 15 six = true ∧ tcBs six = false
      ∧ ∀ r, r < tcRows six → ∀ j, j < tcRowBytes six →
        (micro (calling .running six) 1 (.tld 15 0 1 2 0)).engineByte ((calling .running six).view 0) ((0x200 : Nat) + r * (0x200 : Int) + j) = .ok 0)
    ∧ (Claims.atMicro (micro (calling .running one) 1 (.tst 2 0 1 2)) 0 0 (calling .running one) (.tst 2 0 1 2) ∧ tcValid 0xFFFF 2 one = true ∧ tcRows one = 1 ∧ tcRowBytes one = 1
      ∧ (micro (calling .running one) 1 (.tst 2 0 1 2)).engineAt ((calling .running one).view 0) ((0x200 : Nat) : Int) .write = .ok 0x200)
    ∧ (Claims.atMicro (micro (calling .running six) 1 (.tzero 15)) 0 0 (calling .running six) (.tzero 15) ∧ (15#4 &&& ~~~(15#4)) = 0)
    ∧ (Claims.atMicro (micro (calling .running six) 1 (.mma 2 2 3 0 3)) 0 0 (calling .running six) (.mma 2 2 3 0 3) ∧ tcValid 0xFFFF 2 six = true ∧ (matWidth (tcFmt six)).isSome = true
      ∧ tcCols six = 3 ∧ 3 ≤ rtMaxk (BitVec.ofNat 64 (2 ^ 33 + 1)) ∧ callNan 64 = false)
    ∧ (Claims.atMicro (micro { calling .running six with entry := BitVec.ofNat 64 (2 ^ 33 + 1) } 1 (.mma 2 2 3 0 3)) 0 0 { calling .running six with entry := BitVec.ofNat 64 (2 ^ 33 + 1) } (.mma 2 2 3 0 3))
    ∧ (∀ z, z = true ∨ z = false → Claims.atMicro (micro (calling .running six) 1 (.retire 3 0 1 2 0x44 0 false z 0 0)) 0 0 (calling .running six) (.retire 3 0 1 2 0x44 0 false z 0 0)
      ∧ (micro (calling .running six) 1 (.retire 3 0 1 2 0x44 0 false z 0 0)).engineAt ((calling .running six).view 0) ((0x200 : Nat) : Int) .write = .ok 0x200)
    ∧ (fmtAssigned 0x44 = true ∧ fmtWidth 0x44 = 8 ∧ (0x44 : FmtCode) ≠ fmtSc8)
    ∧ Claims.atMicro (micro (calling .running six) 1 (.scale 3 7)) 0 0 (calling .running six) (.scale 3 7)
    ∧ (∀ n, n = 0#16 ∨ n = 2#16 → Claims.atMicro (micro (calling .running six) 1 (.loop 3 0x3FF n)) 0 0 (calling .running six) (.loop 3 0x3FF n))
    ∧ (∀ k, k = 0#2 ∨ k = 1#2 ∨ k = 2#2 ∨ k = 3#2 → Claims.atMicro (micro (calling .running six) 1 (.padd 7 k 1 0xFFFFFFFF)) 0 0 (calling .running six) (.padd 7 k 1 0xFFFFFFFF))
    ∧ (Claims.atMicro (micro (calling .running six) 1 (.signal 0 1)) 0 0 (calling .running six) (.signal 0 1) ∧ (micro (calling .running six) 1 (.signal 0 1)).barLookup ((calling .running six).view 0) 0x200 = none
      ∧ (micro (calling .running six) 1 (.signal 0 1)).place (Machine.locate [bareWindow 0] 0 0 0 ((0x200 : Nat) : Int)) = .ok 0x200)
    ∧ (Claims.atMicro (micro (calling .running six) 1 (.teamsync 255)) 0 0 (calling .running six) (.teamsync 255) ∧ (calling .running six).retired = true
      ∧ ((micro (calling .running six) 1 (.teamsync 255)).launch? 0).bind (fun l => (l.team? (some 0)).map (·.members)) = some [0, 1]
      ∧ (micro (calling .running six) 1 (.teamsync 255)).allCalls = [calling .running six]) := by
  refine ⟨?_, by decide +kernel, ?_, by decide +kernel, ⟨at_of (by decide +kernel), stands_of (by decide +kernel), by decide +kernel, rfl⟩, ⟨at_of (by decide +kernel), by decide +kernel, by decide +kernel, ?_⟩,
    ⟨at_of (by decide +kernel), by decide +kernel, by decide +kernel, by decide +kernel, got_ok (by decide +kernel)⟩, ⟨at_of (by decide +kernel), by decide⟩,
    ⟨at_of (by decide +kernel), by decide +kernel, by decide +kernel, by decide +kernel, by decide +kernel, by decide +kernel⟩, at_of (by decide +kernel), ?_, by decide +kernel,
    at_of (by decide +kernel), ?_, ?_, ⟨at_of (by decide +kernel), by decide +kernel, got_ok (by decide +kernel)⟩,
    ⟨at_of (by decide +kernel), by decide +kernel, by decide +kernel, by decide +kernel⟩⟩
  · rintro e h (e1 | e1 | e1) <;> cases e1 <;> exact ⟨by decide +kernel, stands_of (by decide +kernel), by decide +kernel, by decide +kernel⟩
  · exact fun n => ⟨rfl, rfl, rfl⟩
  · have h : ∀ (r : Fin 2) (j : Fin 3), ((micro (calling .running six) 1 (.tld 15 0 1 2 0)).engineByte ((calling .running six).view 0) ((0x200 : Nat) + (r.1 : Nat) * (0x200 : Int) + (j.1 : Nat))).toOption = some 0 := by decide +kernel
    intro r hr j hj
    exact got_ok (h ⟨r, hr⟩ ⟨j, hj⟩)
  · rintro z (rfl | rfl) <;> exact ⟨at_of (by decide +kernel), got_ok (by decide +kernel)⟩
  · rintro n (rfl | rfl) <;> exact at_of (by decide +kernel)
  · rintro k (rfl | rfl | rfl | rfl) <;> exact at_of (by decide +kernel)

/-- What is due of a bound tile, when it is to be delivered. -/
def delivers (d : TileDue) : Option Nat := match d with | .deliver st => some st | _ => none

theorem due_of {d : TileDue} {n : Nat} (h : delivers d = some n) : d = .deliver n := by
  cases d <;> simp [delivers] at h
  rw [h]

/-- Claims.atMicro of any state. -/
theorem micro_of {s : State} {m : MatCall} {o : MicroOp}
    (h : (s.at.calls[0]? == some m && m.phase == .running && !s.callSaving 0 m && s.at.microWord m == some (encodeMicro o) && s.focus.c == 0) = true) : Claims.atMicro s 0 0 m o := by
  simp only [Bool.and_eq_true, beq_iff_eq, Bool.not_eq_true'] at h
  obtain ⟨⟨⟨⟨a, b⟩, c⟩, d⟩, e⟩ := h
  unfold State.at at a d
  rw [e] at a d
  exact ⟨a, b, fun _ => c, d⟩

/-- A tile of one b8p4 element with its scale at the start of tile 3, the scales of memory at 0x300; operand A bound to entry 5, of n8 elements, its record's sectors read. -/
def scaledWord : Word := one ||| BitVec.ofNat 64 (2 ^ 55 + 3 * 2 ^ 51)
def scaledCall : MatCall := let k := calling .running scaledWord; { k with mp := vset k.mp 2 0x300 }
def boundRec : Nat := 2 * 2 ^ 24 + 0x0D * 2 ^ 15 + 2 ^ 27 + 5 * 2 ^ 28 + 128 * 2 ^ 96 + 2 ^ 120 + 128 * 2 ^ 216 + 0x400 * 2 ^ 464
def boundCall : MatCall :=
  { calling .running one with t := BitVec.ofNat 64 (64 + 5 * 2 ^ 18 + 2 ^ 30), ca := 0x0D, got := [(0x200, BitVec.ofNat 256 boundRec), (0x220, BitVec.ofNat 256 (boundRec / 2 ^ 256))], mp := vset (Vector.replicate 8 0x200) 1 0 }
def boundTld : State := micro boundCall 1 (.tld 2 0 1 2 1)
def boundShape : Shape := Shape.of (BitVec.ofNat 512 boundRec)

/-- A call that reports NaNs, the first element of its tile being one. -/
def nanCall : MatCall := { calling .running six with t := BitVec.ofNat 64 (64 + 2 ^ 17), entry := BitVec.ofNat 64 (2 ^ 33 + 1) }
def nanMma : State := (micro nanCall 1 (.mma 2 2 3 0 0)).updCore 0 fun k => k.setTile 0 2 [(0, 0x80)]

/-- The other forms of TLD, TST, MMA and RETIRE. -/
theorem witness_MicroOperationsActInEveryForm :
    (Claims.atMicro (micro scaledCall 1 (.tld 2 0 1 2 0)) 0 0 scaledCall (.tld 2 0 1 2 0) ∧ Claims.atMicro (micro scaledCall 1 (.tst 2 0 1 2)) 0 0 scaledCall (.tst 2 0 1 2)
      ∧ tcValid 0xFFFF 2 scaledWord = true ∧ tcBs scaledWord = true ∧ tcRows scaledWord = 1 ∧ tcRowBytes scaledWord = 1 ∧ tcBlocks scaledWord = 1
      ∧ (micro scaledCall 1 .halt).engineByte (scaledCall.view 0) ((0x300 : Nat) : Int) = .ok 0 ∧ (micro scaledCall 1 .halt).engineAt (scaledCall.view 0) ((0x300 : Nat) : Int) .write = .ok 0x300
      ∧ (micro scaledCall 1 .halt).engineAt (scaledCall.view 0) ((0x200 : Nat) : Int) .write = .ok 0x200 ∧ ([0x200, 0x300] : List Nat).Nodup)
    ∧ (Claims.atMicro boundTld 0 0 boundCall (.tld 2 0 1 2 1) ∧ boundCall.bound 1 = some (5, 0x0D) ∧ lookupSpan boundCall.wins boundCall.launch boundTld.mod 0 (0x200 : Nat) (0x23F : Nat) .read = none
      ∧ sectorsLeft boundCall.got 0x200 = [] ∧ recordOf boundCall.got 0x200 = BitVec.ofNat 512 boundRec ∧ shapeValid (BitVec.ofNat 512 boundRec) = true ∧ boundShape.cv = true ∧ boundShape.cid = 5
      ∧ shapeDims (BitVec.ofNat 512 boundRec) = 2 ∧ tcValid 0xFFFF 2 (boundWord one 0x0D) = true ∧ (tcRows (boundWord one 0x0D), tcCols (boundWord one 0x0D)) = (1, 1)
      ∧ boundShape.ext0 * boundShape.exts.getD 1 1 ≤ 8192 ∧ boundTld.tileDue (boundCall.view 0) boundShape 0x0D 0 = .deliver 0
      ∧ ∃ x, Claims.boundAt boundTld (boundCall.view 0) boundShape ((0x200 : Nat) : Int) (fun _ => 0) 0 0 0 0 (some (0, x)))
    ∧ (Claims.atMicro nanMma 0 0 nanCall (.mma 2 2 3 0 0) ∧ Claims.stands nanMma 0 0 0 ∧ callNan nanCall.t = true ∧ nanCall.orphan = false ∧ (nanMma.ctx 0 0).mxnanPend = false
      ∧ (Claims.kParts 0 3).length = 1 ∧ Claims.kParts 60 130 = [(60, 64), (64, 128), (128, 130)]
      ∧ Claims.madeNan (Claims.accum (fun d => ((nanMma.core 0).tileVal 0 2 six 0 d).mul ((nanMma.core 0).tileVal 0 2 six 0 d)) (Claims.kParts 0 3) ((nanMma.core 0).acc 0 3 0 0))
        ((nanMma.core 0).acc 0 3 0 0) = true)
    ∧ (∀ z, z = true ∨ z = false → Claims.atMicro (micro scaledCall 1 (.retire 3 0 1 2 0x44 0 true z 0 0)) 0 0 scaledCall (.retire 3 0 1 2 0x44 0 true z 0 0))
    ∧ (fmtBlockElem 0x44 = true ∧ 0 < blockSize 0) := by
  refine ⟨⟨at_of (by decide +kernel), at_of (by decide +kernel), by decide +kernel, by decide +kernel, by decide +kernel, by decide +kernel, by decide +kernel, got_ok (by decide +kernel),
      got_ok (by decide +kernel), got_ok (by decide +kernel), by decide⟩,
    ⟨at_of (by decide +kernel), by decide +kernel, by decide +kernel, by decide +kernel, by decide +kernel, by decide +kernel, by decide +kernel, by decide +kernel, by decide +kernel, by decide +kernel,
      by decide +kernel, by decide +kernel, due_of (by decide +kernel), ?_⟩,
    ⟨micro_of (by decide +kernel), stands_of (by decide +kernel), by decide +kernel, rfl, by decide +kernel, by decide +kernel, by decide +kernel, by decide +kernel⟩, ?_, by decide +kernel⟩
  · have h : (boundTld.tileElem (boundCall.view 0) boundShape ((0x200 : Nat) : Int) 0 0 0).toOption.isSome = true := by decide +kernel
    obtain ⟨x, hx⟩ : ∃ x, boundTld.tileElem (boundCall.view 0) boundShape ((0x200 : Nat) : Int) 0 0 0 = .ok x := by
      revert h
      cases boundTld.tileElem (boundCall.view 0) boundShape ((0x200 : Nat) : Int) 0 0 0 with
      | error e => exact fun h => by cases h
      | ok a => exact fun _ => ⟨a, rfl⟩
    have hn : ¬ (boundShape.ext0 ≤ 0 + 0 ∨ boundShape.exts.getD 1 1 ≤ 0 + 0) := by decide +kernel
    have hk : 0 = ((0 + 0) * boundShape.ext0 + (0 + 0)) / 8192 := by decide +kernel
    have ho : ((0 + 0) * boundShape.ext0 + (0 + 0)) % 8192 = 0 := by decide +kernel
    exact ⟨x, fun h => absurd h hn, fun _ _ => ⟨0, x, hk, rfl, by rw [ho]; exact hx⟩⟩
  · rintro z (rfl | rfl) <;> exact at_of (by decide +kernel)

end Sys2Proof.Tests

namespace Sys2Proof.Tests

/-- Entry 4095, valid, at position 1 of ladder 0, its accumulators all 1; a request for it, of interface 0 or of one that has no entries; its worker waits for the reply. -/
def adapting : CompassEntry :=
  { word := 0x0000000042000144, sv := 0x3FF0000000000000, sm := 0x3FF0000000000000, q := 0x3FF0000000000000, ec := 0x3FF0000000000000, en := 0x3FF0000000000000, n := 1, b := 1 }
def asked1 (k : CompassEntry) (q : CompassReq) : State :=
  { (on fun t => { t with awaiting := [{ unit := .xu, code := 0x38C, rid := 1, a := 0, t := 0 }] }) with
    compass := [(4095, k)], compassQ := [q], vis := [(0, { crange := (0, 4096) })] }
def sample1 (ver : BitVec 32) : CompassReq := .sample 0 4095 ver { q := .fin false 1 0, ec := .fin false 1 0, en := none, mx := .fin false 1 0, b := none }

/-- A gvobs of it, sent. -/
def observing (kind : BitVec 2) (v : BitVec 32) : State :=
  (asked1 adapting (sample1 0)).updCtx 0 0 fun t => { t with stFlight := [sentItem (.gvobs 4095 kind v) 0], cnt := { t.cnt with stores := 1 } }

theorem witness_CompassEntriesAdapt :
    (∀ ver, ver = 0#32 ∨ ver = 1#32 → (asked1 adapting (sample1 ver)).compassQ[0]? = some (sample1 ver) ∧ (asked1 adapting (sample1 ver)).entry 4095 = adapting)
    ∧ entVer adapting.word = 0 ∧ (∀ kind v, ((observing kind v).ctx 0 0).stFlight[0]? = some (sentItem (.gvobs 4095 kind v) 0))
    ∧ ((observing 2 0xFFFFFFFF).inCrange ((observing 2 0xFFFFFFFF).ctx 0 0).vi 4095 = true ∧ entValid adapting.word = true)
    ∧ ((f32.decode (0x3F800000#32).toNat).isFin = true ∧ (0x3F800000#32).getLsbD 31 = false ∧ (f32.decode (0x7F800000#32).toNat).isFin = false)
    ∧ ({ observing 0 0 with vis := [] } : State).inCrange ((observing 0 0).ctx 0 0).vi 4095 = false
    ∧ (Claims.stands (asked1 adapting (.epoch 1 0 0 4095)) 0 0 0 ∧ (((asked1 adapting (.epoch 1 0 0 4095)).ctx 0 0).awaiting.find? fun a => a.rid = 1).isSome = true
      ∧ (asked1 adapting (.epoch 1 0 0 4095)).inCrange 0 4095 = true ∧ (asked1 adapting (.epoch 1 0 63 4095)).inCrange 63 4095 = false
      ∧ ((4095 : Word).extractLsb' 0 12).toNat = 4095 ∧ (4095 : Word).extractLsb' 12 12 = 0)
    ∧ (adapting.rhoNow = some 0x10000 ∧ adapting.epsC = some 0x10000 ∧ (0x10000#32).toNat < 2 * (0x10000#32).toNat ∧ 0 < entPos adapting.word ∧ adapting.word.getLsbD 31 = false)
    ∧ (0xC2000144#64).getLsbD 31 = true ∧ entValid 0xC2000144 = true
    ∧ (Claims.stands (asked1 adapting (.pin 1 0 0 0x1FFF)) 0 0 0 ∧ (asked1 adapting (.pin 1 0 0 0x1FFF)).inCrange 0 4095 = true
      ∧ (0x1FFF#64).extractLsb' 12 2 = 1 ∧ ((0x1FFF#64).extractLsb' 0 12).toNat = 4095)
    ∧ entValid ((asked1 {} (.pin 1 0 0 0x1FFF)).entry 4095).word = false := by
  refine ⟨?_, by decide +kernel, fun _ _ => rfl, by decide +kernel, by decide +kernel, by decide +kernel,
    ⟨stands_of (by decide +kernel), by decide +kernel, by decide +kernel, by decide +kernel, by decide +kernel, by decide +kernel⟩, by decide +kernel, by decide +kernel, by decide +kernel,
    ⟨stands_of (by decide +kernel), by decide +kernel, by decide +kernel, by decide +kernel⟩, by decide +kernel⟩
  rintro ver (rfl | rfl) <;> exact ⟨by decide +kernel, by decide +kernel⟩

/-- A grid object whose partition names itself, in a module whose memory holds that; a slab for it. -/
def exchanging (o : GridObj) (b : List Slab) : State := let s := gridded o; { s with mem := memWrite s.mem 0x2000 (natBytes 8 0x300), slabs := b }
def slab1 (desc : Nat) (fmt : FmtCode) : Slab := { dest := desc, region := 14, step := 3, fmt := fmt, bs := false, bsz := 0, gw := gdGw (gridBits 1), d := gdD (gridBits 1), elems := [0x40], scales := [] }

/-- An ldh at the head of the LAQ of step n on handle 0, waiting since a time. -/
def ldh1 (n : BitVec 32) (since : Option Nat) : LoadReq :=
  { seq := 0, op := .ldh n 0 since, va := 0x1000, img := Claims.run 0x1000 0 1, eb := 1, len := 1, vec := false, pair := 0 }
def fresher (o : GridObj) (n : BitVec 32) (since : Option Nat) : State :=
  { ((exchanging o []).updCtx 0 0 fun t => { t with laq := [ldh1 n since], cnt := { t.cnt with loads := 1 } }) with clk := 2 ^ 20 }
def lenient (b : Bool) : GridObj := { gridObj 1 (some 3) [] [] with raw := gridBits 1 ||| (if b then 1 <<< 40 else 0) }

/-- Where a stale load's fate says that it is. -/
def stale (f : LdhFate) : Option (Nat × Nat × Nat) := match f with | .stale d i a => some (d, i, a) | _ => none

theorem stale_of {f : LdhFate} {d i a : Nat} (h : stale f = some (d, i, a)) : f = .stale d i a := by
  cases f <;> simp [stale] at h
  obtain ⟨rfl, rfl, rfl⟩ := h
  rfl

theorem witness_GridsExchangeTheirGhosts :
    (∀ own, own = some 3 ∨ own = some 2 → (exchanging (gridObj 1 own [(3, 12)] []) []).gridObj 0 0 = some (gridObj 1 own [(3, 12)] [])
      ∧ (exchanging (gridObj 1 own [(3, 12)] []) []).gridAt ((exchanging (gridObj 1 own [(3, 12)] []) []).gridPeer (gridObj 1 own [(3, 12)] []) 12) = some (0, 0))
    ∧ ((exchanging (gridObj 1 (some 3) [(3, 12)] []) []).gridServes (gridObj 1 (some 3) [(3, 12)] []) 3 = true ∧ tagAt 3 (some 3) = true ∧ tagAt 3 (some 2) = false
      ∧ (exchanging (gridObj 1 (some 3) [(3, 12)] []) []).focus.o ≠ 1 ∧ (gridObj 1 (some 3) [(3, 12)] []).seen = [])
    ∧ ((exchanging (gridObj 1 none [] []) [slab1 0x400 0x44]).gridAt 0x400 = none ∧ (exchanging (gridObj 1 none [] []) [slab1 0x300 0x44]).gridAt 0x300 = some (0, 0) ∧ tagAt 3 none = false)
    ∧ ((0x45 : FmtCode) ≠ gdFmt (gridBits 1) ∧ (exchanging (gridObj 1 (some 3) [] []) [slab1 0x300 0x45]).slabBehind 0 (slab1 0x300 0x45) = false
      ∧ (slab1 0x300 0x44).dest = (slab1 0x300 0x45).dest ∧ (slab1 0x300 0x44).region = (slab1 0x300 0x45).region)
    ∧ (∀ s, s = exchanging (gridObj 1 (some 3) [] []) [slab1 0x300 0x44] → s.focus.o = 0 ∧ paMod (slab1 0x300 0x44).dest = s.mod ∧ (slab1 0x300 0x44).whole = true ∧ paMod (0x300 + 2 ^ 50) ≠ s.mod
      ∧ paMod (s.gridPeer (gridObj 1 (some 3) [(3, 12)] []) 12) = s.mod ∧ (gridObj 1 (some 3) [] []).closing = false ∧ s.clk < s.clk + 2 ^ gdTex (gridBits 1))
    ∧ (regPresent (gridBits 1) 14 = true ∧ regElems (gridBits 1) 14 = [(1, 0, 0)] ∧ gdFmt (gridBits 1) = 0x44 ∧ gdBs (gridBits 1) = false ∧ gdBsz (gridBits 1) = 0 ∧ gdBytes (gridBits 1) = 1
      ∧ ((exchanging (gridObj 1 (some 3) [] []) [slab1 0x300 0x44]).viewPa (gridObj 1 none [] []).view (elemAddr (gridBits 1) 1 (1, 0, 0))).isSome = true)
    ∧ ((exchanging (gridObj 2 none [] [(3, 14)]) []).gridServes (gridObj 2 none [] [(3, 14)]) 3 = true ∧ regLocal (gridBits 2) 14 ≠ [] ∧ (∀ j ∈ regLocal (gridBits 2) 14, regRule (gridBits 2) 14 j = 2))
    ∧ (((fresher (gridObj 1 none [] []) 3 none).ctx 0 0).laq = [ldh1 3 none] ∧ ((fresher (gridObj 1 none [] []) 3 none).ctx 0 0).ldq = []
    ∧ ((fresher (gridObj 1 none [] []) 3 none).updCtx 0 0 fun t => { t with grid := vset t.grid 0 none }).gridOf 0 (((fresher (gridObj 1 none [] []) 3 none).updCtx 0 0 fun t => { t with grid := vset t.grid 0 none }).ctx 0 0) 0 = none)
    ∧ (∀ b since, (b = true ∨ b = false) → since = none ∨ since = some (2 ^ 20 - 2 ^ gdTex (lenient false).raw) → (fresher (lenient b) 3 since).gridObj 0 0 = some (lenient b) ∧ gdStl (lenient b).raw = b
      ∧ ∃ a, (fresher (lenient b) 3 since).ldhFate 0 ((fresher (lenient b) 3 since).ctx 0 0) (ldh1 3 since) 3 0 = .stale 0 0 a) := by
  refine ⟨?_, by decide +kernel, by decide +kernel, by decide +kernel, ?_, by decide +kernel, by decide +kernel, by decide +kernel, ?_⟩
  · rintro own (rfl | rfl) <;> exact ⟨by decide +kernel, by decide +kernel⟩
  · rintro s rfl
    decide +kernel
  · rintro b since (rfl | rfl) (rfl | rfl) <;> exact ⟨by decide +kernel, by decide +kernel, 0x1000, stale_of (by decide +kernel)⟩

end Sys2Proof.Tests

namespace Sys2Proof.Tests

/-- Expert 0 at a place in the module, and expert 8191 under an overlapping slot. -/
def stocked (k : Expert) : State := { boot with larder := [(0, k), (8191, { valid := true, state := 2, res := 1 })], vis := [(0, { lrange := (0, 8192) })], nodesUsed := 4095 }
def absent : Expert := { valid := true, size := 1, cap := 1 }
def filling : Expert := { absent with state := 1, copying := true, src := 0x400000, waiters := [{ node := 4095, walk := 9, idx := 0 }], prefPins := 1 }

/-- A proposal of a score, and an expert that holds as many as it may. -/
def offer (token : Nat) (score : BitVec 32) : Proposal := { token := token, rank := 0, score := score, expert := 0, rcd := 0x600, vi := 0, launch := 0, round := 0 }
def offered (l : List Proposal) (score : BitVec 32) : State := { stocked { absent with heap := l } with proposals := [offer 7 score] }
def held : List Proposal := [offer 1 0x3F800000, offer 2 0x40000000]

/-- A walk of one block of expert 0, before its batch, or with the block as the next to be dispatched, or among those that found the pool empty. -/
def block0 : WalkBlock := { idx := 0, expert := 0 }
def walk1 (rest order noNode : List WalkBlock) : Walk :=
  { id := 9, die := 0, header := 0x400, launch := 0, wins := [], emitter := 0, rcd := {}, scope := 0x0800, nrec := 1, emitted := [0], rest := rest, order := order, noNode := noNode, counts := [(0, 1)] }
def walking (w : Walk) : State := { State.reset with walks := [w] }
def walkingOn (w : Walk) (k : Expert) (n : Nat) : State := { stocked k with clk := 1024, walks := [w], nodesUsed := n }

theorem witness_ExpertsAreFilledAndRouted :
    ((stocked { absent with state := 1 }).fillReady 0 = true ∧ ((stocked { absent with state := 1 }).larder.countP fun p => p.2.copying) = 0
      ∧ (∀ p ∈ (stocked { absent with state := 1 }).larder, p.2.reqOrder < 0 → (stocked { absent with state := 1 }).fillReady p.1 = false)
      ∧ ∃ p ∈ (stocked { absent with state := 1 }).larder, p.1 ≠ 0 ∧ p.2.overlaps { absent with state := 1 } = true ∧ p.2.state = 2)
    ∧ (filling.state = 1 ∧ filling.copying = true ∧ filling.nvme = false ∧ (stocked filling).fillSource filling = some (2 * 2 ^ 48 + 0x400000) ∧ (stocked filling).badEcc = [] ∧ filling.failed = false)
    ∧ (stocked {}).expertOk 0 8191 = true
    ∧ ((offered [offer 1 0] 0).proposals[0]? = some (offer 7 0) ∧ ((offered [offer 1 0] 0).expert 0).heap.length ≤ ((offered [offer 1 0] 0).expert 0).cap ∧ (offered [] 0).expertOk 0 0 = true
      ∧ (f32.decode (0 : BitVec 32).toNat).isNaN = false)
    ∧ (((offered held 0x40400000).expert 0).cap < held.length ∧ worst held = some (offer 1 0x3F800000) ∧ (offer 7 0x40400000).better (offer 1 0x3F800000) = true
      ∧ (offer 7 0x3F800000).better (offer 1 0x3F800000) = false)
    ∧ (clusters (walk1 [block0] [] []) = [(0, 0, 16)] ∧ (walk1 [block0] [] []).order = [] ∧ (walk1 [block0] [] []).parked = [] ∧ (walk1 [block0] [] []).noNode = [] ∧ (∀ j, j < 128 → ((walking (walk1 [block0] [] [])).core j).hasRoom {} 1 = true) ∧ ∀ v, ((walking (walk1 [block0] [] [])).vi v).frozen = false)
    ∧ ((walkingOn (walk1 [] [block0] []) absent 4095).walks[0]? = some (walk1 [] [block0] []) ∧ (walk1 [] [block0] []).order = block0 :: [] ∧ (walk1 [] [] [block0]).noNode[0]? = some block0
      ∧ (walk1 [] [block0] []).slot ≤ 1024 ∧ (1024 - (walk1 [] [block0] []).slot) % 16 = 0 ∧ block0.since < 1024 ∧ (1024 - block0.since) % 256 = 0
      ∧ (walk1 [] [block0] []).arriving = [] ∧ ((walkingOn (walk1 [] [block0] []) { absent with state := 2 } 0).die 0).rdc = [] ∧ (walkingOn (walk1 [] [block0] []) absent 4095).focus.o ≠ 1
      ∧ ((walkingOn (walk1 [] [] [block0]) { absent with state := 2 } 0).expert 0).state = 2 ∧ ((walkingOn (walk1 [] [] [block0]) absent 4095).expert 0).state = 0
      ∧ (walkingOn (walk1 [] [] [block0]) absent 4095).nodesUsed < 4096 ∧ 4096 ≤ (walkingOn (walk1 [] [] [block0]) absent 4096).nodesUsed ∧ block0.requeued = false) := by
  refine ⟨by decide +kernel, by decide +kernel, by decide +kernel,
    by decide +kernel, by decide +kernel, ⟨by decide +kernel, rfl, rfl, rfl, ?_, fun _ => rfl⟩,
    by decide +kernel⟩
  have h : ∀ j : Fin 128, ((walking (walk1 [block0] [] [])).core j).hasRoom {} 1 = true := by decide +kernel
  exact fun j hj => h ⟨j, hj⟩

/-- A flit from station 0 to station 1; station 0's queue holds it, and the slots of a mask are empty; or it is on the ring, its slot at station 1. -/
def flit1 (reply : Bool) (tier : Nat) : Flit := { msg := 1, src := 0, dst := 1, reply := reply, tier := tier, dir := false, seq := 0, head := true, tail := true, words := [0], place := 1 }
def injecting (f : Flit) (u lanes : Nat) : State := { boot with stations := [(0, { queue := [f], u := u })], focus := { k := lanes } }
def riding (f : Flit) (esc u room : Nat) : State :=
  { boot with flits := [f], stations := [(1, { esc := List.replicate esc { dir := false, flit := f }, u := u })], focus := { k := room } }

/-- An escape entry of station 1 holds a flit, and drains. -/
def draining : State := { boot with stations := [(1, { esc := [{ dir := false, flit := { flit1 false 0 with esc := true }, held := true }] })], focus := { i := 1, o := 1 } }

/-- Headers: a message of one word, a load and a store of one word, to context 0 of core 0; a message to core 1; and a kind that does not exist. -/
def hdr (kind n core : Nat) : Word := BitVec.ofNat 64 (kind * 2 ^ 60 + 2 ^ 57 + n * 2 ^ 51 + core * 2 ^ 16)
def messaging (h : Word) (ws : List Word) (used : Nat) : State :=
  on fun t => { t with sendF := { isHeader := true, word := h, loc := [] } :: ws.map fun w => { isHeader := false, word := w, loc := [] }, recvRes := used }
def message (h : Word) (ws : List Word) (resp : Option (List Word)) : FabricMsg :=
  { id := 1, uid := 0, vi := 0, core := 0, ctx := 0, header := h, words := ws, locs := (List.range 8).map fun j => .phys (0x100 + j), room := 1, resp := resp }
def sentMsg (m : FabricMsg) (used : Nat) : State := { (on fun t => { t with recvRes := used }) with fabric := [m] }

/-- What a send FIFO's head is, when it is whole. -/
def wholeOf (h : SendHead) : Option (Word × List Word) := match h with | .whole w ws => some (w, ws.map (·.word)) | _ => none

theorem whole_of {h : SendHead} {w : Word} {l : List Word} (e : wholeOf h = some (w, l)) : ∃ ws, h = .whole w ws ∧ ws.map (·.word) = l := by
  cases h <;> simp [wholeOf] at e
  obtain ⟨rfl, rfl⟩ := e
  exact ⟨_, rfl, rfl⟩

/-- Group 1023 of two members whose table lies at 0x300: each of them at 0x400; two contributors, rooted here; n units of 64 KiB are open. -/
def grouped (k : Contribution) (n : Nat) : State :=
  { boot with mem := memWrite boot.mem 0x300 (natBytes 32 (0x400 + 0x400 * 2 ^ 128)), groups := [(1023, { raw := BitVec.ofNat 256 (2 ^ 164 + 2 ^ 180 + 2 ^ 190 + 0x300 * 2 ^ 200), gen := 1 })]
              packets := [{ cmds := [1], group := 1023, cells := [(63, 7)], scales := [], latched := none, left := [] }], contribs := [k]
              redUnits := List.replicate n { id := 1, group := 0, gop := 1, offset := 0, latched := { raw := BitVec.ofNat 256 (1023 * 2 ^ 180) }, got := [] }, focus := { k := 1 } }
def contribution (refused : Bool) : Contribution := { cmd := 1, id := 2, order := 0, group := 1023, gop := 1, offset := 0, data := [7], scale := 0, refused := refused }

/-- Station 9's queue holds a flit; or 64 bytes come in by the rack ring, with escape entries of it in use and room for k. -/
def rackFlit (esc : Bool) : Flit := { flit1 false 1 with msg := 0, src := 9, dst := 9, dunit := 0x3FF, esc := esc, lap := esc, words := [0x100, 3, 0x0201, 0, 0, 0] }
def racked (f : Flit) (up : Bool) (u lanes : Nat) : State :=
  { boot with stations := [(9, { queue := [f], u := u })], focus := { i := 18, k := lanes }, rctl := { boot.rctl with up := up } }
def rackIn (f : Flit) (up : Bool) (esc u k : Nat) : State :=
  { boot with stations := [(9, { esc := List.replicate esc { dir := false, flit := f }, u := u })], focus := { o := 2, k := k, w := f.bits }, rctl := { boot.rctl with up := up } }

theorem witness_RingsAndGroupsDeliver :
    (∀ f u, f = flit1 true 0 ∧ u = 1 ∨ f = flit1 false 2 ∧ u = 0 ∨ f = flit1 false 2 ∧ u = 1 → ∀ lane, lane = 14 ∨ lane = 15 → ((injecting f u (2 ^ lane)).station 0).queue = [f] ∧ f.dir = false
      ∧ f.tier < 3 ∧ (injecting f u (2 ^ lane)).focus.o ≠ 1 ∧ ((injecting f u (2 ^ lane)).station 0).ran.getD 0 none ≠ some (injecting f u (2 ^ lane)).ringCycle
      ∧ (injecting f u (2 ^ lane)).emptyLanes 0 false (2 ^ lane) = [lane] ∧ (injecting f u (2 ^ lane)).holdsBack 0 = (u == 1))
    ∧ (∀ f, f = flit1 true 0 ∨ f = flit1 false 0 ∨ f = { flit1 false 0 with dunit := 5 } ∨ f = { flit1 false 0 with lap := true, esc := true } ∨ f = { flit1 false 0 with lap := true } ∨ f = { flit1 false 0 with counted := true } →
      ∀ e u k, e = 15 ∨ e = 16 → u = 0 ∨ u = 1 → k = 0 ∨ k = 1 → (riding f e u k).flits[0]? = some f ∧ f.dmod = (riding f e u k).mod ∧ f.atStation 1 (riding f e u k).ringCycle = true
        ∧ f.seen ≠ some (riding f e u k).ringCycle ∧ (riding f e u k).focus.o = 0 ∧ (riding f e u k).focus.k = k ∧ ((riding f e u k).station 1).escUsed false = e ∧ ((riding f e u k).station 1).u = u)
    ∧ ((draining.station 1).esc.map (·.held) = [true] ∧ draining.focus.o = 1 ∧ draining.focus.i = 1 ∧ (flit1 false 0).dmod = draining.mod)
    ∧ (((messaging (hdr 0 1 0) [5] 127).ctx 0 0).worker = some wk ∧ (∃ ws, sendHead ((messaging (hdr 0 1 0) [5] 127).ctx 0 0).sendF = .whole (hdr 0 1 0) ws ∧ ws.map (·.word) = [5])
      ∧ fabBad (hdr 0 1 0) [5] = false ∧ fabRoom (hdr 0 1 0) ≤ ((messaging (hdr 0 1 0) [5] 127).ctx 0 0).recvRoom
      ∧ (∃ ws, sendHead ((messaging (hdr 7 0 0) [] 127).ctx 0 0).sendF = .whole (hdr 7 0 0) ws ∧ ws.map (·.word) = []) ∧ fabBad (hdr 7 0 0) [] = true)
    ∧ (∀ k, k = 1 ∨ k = 2 → fabKind (hdr k 1 0) = k ∧ (sentMsg (message (hdr k 1 0) [0x100, 5] none) 0).arrived 1 false = true
      ∧ collect ((message (hdr k 1 0) [0x100, 5] none).locs.map fun l => (sentMsg (message (hdr k 1 0) [0x100, 5] none) 0).place (some l)) = .ok ((List.range 8).map (0x100 + ·))
      ∧ fabN (hdr k 1 0) = 1)
    ∧ ((List.range 8).map (0x100 + ·)).Nodup
    ∧ (fabKind (hdr 0 1 0) = 0 ∧ fabMod (hdr 0 1 0) = (sentMsg (message (hdr 0 1 0) [5] none) 126).mod ∧ fabCore (hdr 0 1 0) = 0 ∧ fabCtx (hdr 0 1 0) = 0
      ∧ (sentMsg (message (hdr 0 1 0) [5] none) 126).addressee (message (hdr 0 1 0) [5] none) = true ∧ 1 < ((sentMsg (message (hdr 0 1 0) [5] none) 126).ctx 0 0).recvRoom
      ∧ ((sentMsg (message (hdr 0 1 0) [5] none) 127).ctx 0 0).recvRoom ≤ 1 ∧ (sentMsg (message (hdr 0 1 1) [5] none) 0).addressee (message (hdr 0 1 1) [5] none) = false
      ∧ (sentMsg (message (hdr 0 1 1) [5] none) 0).savedAt (message (hdr 0 1 1) [5] none) = none)
    ∧ (Claims.stands (sentMsg (message (hdr 0 1 0) [5] (some [7])) 1) 0 0 0 ∧ (sentMsg (message (hdr 0 1 0) [5] (some [7])) 1).arrived 1 true = true
      ∧ (sentMsg (message (hdr 0 1 0) [5] (some [7])) 1).savedImage 0 = none ∧ (message (hdr 0 1 0) [5] (some [7])).away = none)
    ∧ ((grouped (contribution false) 0).packets[0]? = some { cmds := [1], group := 1023, cells := [(63, 7)], scales := [], latched := none, left := [] }
      ∧ grpNmem ((grouped (contribution false) 0).group 1023).raw = 2 ∧ ((grouped (contribution false) 0).member ((grouped (contribution false) 0).group 1023) 1).1 = 0x400
      ∧ (grouped (contribution false) 0).backed (0x400 + 63) = true)
    ∧ ((grouped (contribution false) 0).contribs[0]? = some (contribution false) ∧ grpRoot ((grouped (contribution false) 0).group 1023).raw = (grouped (contribution false) 0).mod
      ∧ (∀ u ∈ (grouped (contribution false) 0).redUnits, u.group ≠ 1023 ∨ u.gop ≠ 1 ∨ u.offset ≠ 0 ∨ u.combined = true)
      ∧ 2 ^ 24 < ((grouped (contribution false) 256).redUnits.map RedUnit.bytes).sum + 64 * grpNcon ((grouped (contribution false) 256).group 1023).raw
      ∧ ((grouped (contribution false) 255).redUnits.map RedUnit.bytes).sum + 64 * grpNcon ((grouped (contribution false) 255).group 1023).raw ≤ 2 ^ 24
      ∧ 1 < grpNcon ((grouped (contribution false) 0).group 1023).raw
      ∧ (contribution true).refused = true ∧ (contribution true).retryAt ≤ (grouped (contribution true) 0).clk ∧ (grouped (contribution true) 0).clk < { contribution true with retryAt := 256 }.retryAt)
    ∧ ((grouped (contribution false) 0).focus.d = 0 ∧ (contribution false).away = false)
    ∧ (∀ up u, (up = true ∨ up = false) → u = 0 ∨ u = 1 → (racked (rackFlit false) up u 1).focus.i / 2 % 10 = 9 ∧ ((racked (rackFlit false) up u 1).station 9).queue = [rackFlit false]
      ∧ ((racked (rackFlit false) up u 1).station 9).ran.getD 0 none ≠ some (racked (rackFlit false) up u 1).ringCycle ∧ (racked (rackFlit false) up u 1).emptyLanes 9 false 1 = [0]
      ∧ (racked (rackFlit false) up u 1).holdsBack 9 = (u == 1))
    ∧ (∀ f, f = rackFlit false ∨ f = rackFlit true → (Flit.ofBits f.bits).dmod = boot.mod ∧ (Flit.ofBits f.bits).reply = false ∧ (Flit.ofBits f.bits).dunit = 0x3FF ∧ (Flit.ofBits f.bits).tier = 1
      ∧ (Flit.ofBits f.bits).lap = f.lap ∧ (Flit.ofBits f.bits).esc = f.esc ∧ maskCells (Flit.ofBits f.bits).words = [(0x100, 1), (0x101, 2)])
    ∧ (∀ n u k, n = 0 ∨ n = 15 ∨ n = 16 → u = 0 ∨ u = 1 → k = 0 ∨ k = 1 → (rackIn (rackFlit false) true n u k).focus.o = 2 ∧ (rackIn (rackFlit false) true n u k).focus.w = (rackFlit false).bits
      ∧ ((rackIn (rackFlit false) true n u k).station 9).escUsed false = n)
    ∧ (((rackIn (rackFlit true) true 1 0 0).station 9).esc.any (fun e => !e.held && e.flit.same (Flit.ofBits (rackFlit true).bits))) = true
    ∧ (boot.backed 0x100 = true ∧ boot.backed 0x101 = true ∧ paMod 0x101 = boot.mod) := by
  refine ⟨?_, ?_, by decide +kernel, ⟨by decide +kernel, whole_of (by decide +kernel), by decide +kernel, by decide +kernel, whole_of (by decide +kernel), by decide +kernel⟩, ?_, by decide,
    by decide +kernel, ⟨stands_of (by decide +kernel), by decide +kernel, by decide +kernel, rfl⟩, by decide +kernel, by decide +kernel, by decide, ?_, ?_, ?_, by decide +kernel, by decide +kernel⟩
  · rintro f u (⟨rfl, rfl⟩ | ⟨rfl, rfl⟩ | ⟨rfl, rfl⟩) lane (rfl | rfl) <;> decide +kernel
  · rintro f (rfl | rfl | rfl | rfl | rfl | rfl) e u k (rfl | rfl) (rfl | rfl) (rfl | rfl) <;> decide +kernel
  · rintro k (rfl | rfl) <;> exact ⟨by decide +kernel, by decide +kernel, got_ok (by decide +kernel), by decide +kernel⟩
  · rintro up u (rfl | rfl) (rfl | rfl) <;> decide +kernel
  · rintro f (rfl | rfl) <;> decide +kernel
  · rintro n u k (rfl | rfl | rfl) (rfl | rfl) (rfl | rfl) <;> decide +kernel

end Sys2Proof.Tests
end

/-!
SUPPORT. The integer units (R47-R53): what their operations compute, what a trigger of theirs alone delivers, and the trap that a trigger of im
takes while a divide is busy.
-/

namespace Sys2Proof.Machine

/-! ## The results of ia (R48, R49) -/

/-- The length of the longest prefix of 0, 1, ... on which p holds is the least number at which it fails. -/
theorem length_takeWhile_range (p : Nat → Bool) (n m : Nat) (hm : n < m) (hp : ∀ k < n, p k = true) (hn : p n = false) :
    ((List.range m).takeWhile p).length = n := by
  obtain ⟨r, rfl⟩ : ∃ r, m = n + (r + 1) := ⟨m - n - 1, by omega⟩
  rw [List.range_add, List.takeWhile_append_of_pos (by simpa using hp), List.range_succ_eq_map]
  simp [hn]

/-- The leading zeros end at the set bit that log2 names. -/
theorem clzWord_eq (b : Word) :
    clzWord b = BitVec.ofNat 64 ((List.range 64).takeWhile fun k => !b.getLsbD (63 - k)).length := by
  unfold clzWord
  by_cases hb : b = 0
  · subst hb
    rfl
  · have h0 : b.toNat ≠ 0 := fun h => hb (BitVec.eq_of_toNat_eq h)
    have hlog : b.toNat.log2 < 64 := (Nat.log2_lt h0).2 b.isLt
    rw [if_neg hb, length_takeWhile_range _ (63 - b.toNat.log2) 64 (by omega)]
    · intro k hk
      have hlt : b.toNat < 2 ^ (63 - k) := Nat.lt_of_lt_of_le Nat.lt_log2_self (Nat.pow_le_pow_right (by omega) (by omega))
      simp [BitVec.getLsbD, Nat.testBit_lt_two_pow hlt]
    · have hbit : 63 - (63 - b.toNat.log2) = b.toNat.log2 := by omega
      simp [BitVec.getLsbD, hbit, Nat.testBit_log2 h0]

theorem ctzFrom_eq (n i : Nat) (b : Word) :
    ctzFrom n i b = i + ((List.range' i n).takeWhile fun k => !b.getLsbD k).length := by
  induction n generalizing i with
  | zero => simp [ctzFrom]
  | succ n ih =>
    rw [ctzFrom, List.range'_succ, List.takeWhile_cons]
    cases hb : b.getLsbD i
    · simp only [Bool.false_eq_true, if_false, Bool.not_false, if_true, List.length_cons, ih]
      omega
    · simp

theorem ctzWord_eq (b : Word) : ctzWord b = BitVec.ofNat 64 ((List.range 64).takeWhile fun k => !b.getLsbD k).length := by
  rw [ctzWord, ctzFrom_eq, Nat.zero_add, List.range_eq_range']

theorem popcWord_eq (b : Word) : popcWord b = BitVec.ofNat 64 ((List.range 64).filter fun k => b.getLsbD k).length := by
  rw [popcWord, List.countP_eq_length_filter]

/-- An arithmetic shift right is the signed quotient by a power of two, rounded down. -/
theorem sshiftRight_eq_ofInt_div (a : Word) (n : Nat) : a.sshiftRight n = BitVec.ofInt 64 (a.toInt / 2 ^ n) := by
  rw [BitVec.sshiftRight, Int.shiftRight_eq_div_pow]
  norm_cast

theorem rotateLeft_shAmt (a b : Word) : a.rotateLeft (shAmt b) = (a <<< (b.toNat % 64)) ||| (a >>> (64 - b.toNat % 64)) := by
  rw [BitVec.rotateLeft_def, shAmt, Nat.mod_mod]

theorem signedMin_eq (a b : Word) : (if b.slt a then b else a) = if a.toInt ≤ b.toInt then a else b := by
  simp only [BitVec.slt_iff_toInt_lt, ← Int.not_le, ite_not]

theorem unsignedMin_eq (a b : Word) : (if b.ult a then b else a) = if a.toNat ≤ b.toNat then a else b := by
  simp only [BitVec.ult_iff_lt, BitVec.lt_def, ← Nat.not_le, ite_not]

/-- The two differ only where a and b are equal, and then they agree. -/
theorem signedMax_eq (a b : Word) : (if a.slt b then b else a) = if a.toInt ≤ b.toInt then b else a := by
  by_cases h : a.toInt = b.toInt
  · simp [BitVec.eq_of_toInt_eq h]
  · simp only [BitVec.slt_iff_toInt_lt, Int.lt_iff_le_and_ne, ne_eq, h, not_false_eq_true, and_true]

theorem unsignedMax_eq (a b : Word) : (if a.ult b then b else a) = if a.toNat ≤ b.toNat then b else a := by
  by_cases h : a.toNat = b.toNat
  · simp [BitVec.eq_of_toNat_eq h]
  · simp only [BitVec.ult_iff_lt, BitVec.lt_def, Nat.lt_iff_le_and_ne, ne_eq, h, not_false_eq_true, and_true]

/-- A test of the model and a condition of R48 that say the same give the same truth value. -/
theorem boolWord_eq_bit {t : Bool} {q : Prop} [Decidable q] (h : t = true ↔ q) : boolWord t = Claims.bit q := by
  have hdec : t = decide q := Bool.eq_iff_iff.2 (h.trans decide_eq_true_iff.symm)
  rw [hdec]
  rfl

theorem zeroExtend_truncate_32 (b : Word) : ((b.truncate 32 : BitVec 32).zeroExtend 64) = b &&& 0xFFFFFFFF := by
  apply BitVec.eq_of_toNat_eq
  have hlow : b.toNat % 2 ^ 32 < 2 ^ 64 := by omega
  calc ((b.truncate 32 : BitVec 32).zeroExtend 64).toNat
    _ = b.toNat % 2 ^ 32 % 2 ^ 64 := by simp only [BitVec.truncate_eq_setWidth, BitVec.toNat_setWidth]
    _ = b.toNat &&& (2 ^ 32 - 1) := by rw [Nat.mod_eq_of_lt hlow, Nat.and_two_pow_sub_one_eq_mod]
    _ = (b &&& 0xFFFFFFFF).toNat := (BitVec.toNat_and b 0xFFFFFFFF).symm

theorem shl_one_add (a b : Word) : (a <<< 1) + b = 2 * a + b := by bv_omega
theorem shl_two_add (a b : Word) : (a <<< 2) + b = 4 * a + b := by bv_omega
theorem shl_three_add (a b : Word) : (a <<< 3) + b = 8 * a + b := by bv_omega

theorem iaBext_eq (a b : Word) : iaBext a b = BitVec.ofNat 64 (a.toNat / 2 ^ (b.toNat % 64) % 2 ^ (b.toNat / 64 % 64 + 1)) := by
  rw [iaBext, Nat.shiftRight_eq_div_pow]

/-! ## The results of im (R51, R52) -/

theorem mul_eq_ofNat (a b : Word) : a * b = BitVec.ofNat 64 (a.toNat * b.toNat) := by
  simp [BitVec.ofNat_mul]

/-- The 128-bit product of the sign-extended operands is the exact signed product. -/
theorem mulh_eq (a b : Word) : BitVec.ofInt 64 (a.toInt * b.toInt / 2 ^ 64) = (a.signExtend 128 * b.signExtend 128).extractLsb' 64 64 := by
  have hprod : a.signExtend 128 * b.signExtend 128 = BitVec.ofInt 128 (a.toInt * b.toInt) := (BitVec.ofInt_mul _ _).symm
  rw [hprod]
  generalize a.toInt * b.toInt = n
  apply BitVec.eq_of_toNat_eq
  simp only [BitVec.toNat_ofInt, BitVec.extractLsb'_toNat, Nat.shiftRight_eq_div_pow]
  omega

theorem mulhu_eq (a b : Word) : BitVec.ofNat 64 (a.toNat * b.toNat / 2 ^ 64) = (a.zeroExtend 128 * b.zeroExtend 128).extractLsb' 64 64 := by
  apply BitVec.eq_of_toNat_eq
  simp only [BitVec.toNat_ofNat, BitVec.extractLsb'_toNat, BitVec.toNat_mul, BitVec.zeroExtend_eq_setWidth, BitVec.toNat_setWidth,
    ← Nat.mul_mod, Nat.shiftRight_eq_div_pow]
  generalize a.toNat * b.toNat = n
  omega

theorem divSigned_eq (a b : Word) : divSigned a b = (BitVec.ofInt 64 (Claims.sdiv a b).1, BitVec.ofInt 64 (Claims.sdiv a b).2) := by
  have h0 : b.toInt = 0 ↔ b = 0 := ⟨fun h => BitVec.eq_of_toInt_eq h, fun h => by simp [h]⟩
  unfold divSigned Claims.sdiv
  by_cases hb : b = 0
  · simp [hb, BitVec.ofInt_toInt]
  · simp only [h0, hb, if_false]

theorem divUnsigned_eq (a b : Word) : divUnsigned a b = (BitVec.ofNat 64 (Claims.udiv a b).1, BitVec.ofNat 64 (Claims.udiv a b).2) := by
  have h0 : b.toNat = 0 ↔ b = 0 := ⟨fun h => BitVec.eq_of_toNat_eq h, fun h => by simp [h]⟩
  have hrem : a.toNat - b.toNat * (a.toNat / b.toNat) = a.toNat % b.toNat := (Nat.mod_eq_sub_mul_div).symm
  unfold divUnsigned Claims.udiv
  by_cases hb : b = 0
  · simp [hb]
  · simp only [h0, hb, if_false, hrem]

/-! ## The rows as triggers -/

/-- Row i issues the bundle of one trigger of ia unit u that computes f. -/
def RunsIa (i : Instr) (g : Guard) (src : Src) (u : BitVec 1) (f : Word → Word → Word) : Prop :=
  ∃ off ≤ 34, ∀ s, exec i s = s.issueSolo (soloMove g src (.trig (iaTrig u off f)))

/-- The model may compute the row's result in a way of its own. -/
theorem RunsIa.of_trigger {i : Instr} {g : Guard} {src : Src} {u : BitVec 1} {f f' : Word → Word → Word} (off : Nat) (hoff : off ≤ 34)
    (hi : ∀ s, exec i s = s.issueSolo (soloMove g src (.trig (iaTrig u off f')))) (hf : ∀ a b, f' a b = f a b) : RunsIa i g src u f := by
  obtain rfl : f' = f := funext fun a => funext (hf a)
  exact ⟨off, hoff, hi⟩

theorem iaRow_runs {i : Instr} {g : Guard} {src : Src} {u : BitVec 1} {f : Word → Word → Word} (h : Claims.iaRow i = some (g, src, u, f)) :
    RunsIa i g src u f := by
  cases i with
  | add => cases h; exact .of_trigger 1 (by decide) (fun _ => rfl) fun _ _ => rfl
  | sub => cases h; exact .of_trigger 2 (by decide) (fun _ => rfl) fun _ _ => rfl
  | add32 => cases h; exact .of_trigger 3 (by decide) (fun _ => rfl) fun _ _ => rfl
  | sub32 => cases h; exact .of_trigger 4 (by decide) (fun _ => rfl) fun _ _ => rfl
  | and => cases h; exact .of_trigger 5 (by decide) (fun _ => rfl) fun _ _ => rfl
  | or => cases h; exact .of_trigger 6 (by decide) (fun _ => rfl) fun _ _ => rfl
  | xor => cases h; exact .of_trigger 7 (by decide) (fun _ => rfl) fun _ _ => rfl
  | andn => cases h; exact .of_trigger 8 (by decide) (fun _ => rfl) fun _ _ => rfl
  | shl => cases h; exact .of_trigger 9 (by decide) (fun _ => rfl) fun _ _ => rfl
  | shr => cases h; exact .of_trigger 10 (by decide) (fun _ => rfl) fun _ _ => rfl
  | sar => cases h; exact .of_trigger 11 (by decide) (fun _ => rfl) (fun a _ => sshiftRight_eq_ofInt_div a _)
  | rol => cases h; exact .of_trigger 12 (by decide) (fun _ => rfl) rotateLeft_shAmt
  | min => cases h; exact .of_trigger 13 (by decide) (fun _ => rfl) signedMin_eq
  | max => cases h; exact .of_trigger 14 (by decide) (fun _ => rfl) signedMax_eq
  | minu => cases h; exact .of_trigger 15 (by decide) (fun _ => rfl) unsignedMin_eq
  | maxu => cases h; exact .of_trigger 16 (by decide) (fun _ => rfl) unsignedMax_eq
  | seq => cases h; exact .of_trigger 17 (by decide) (fun _ => rfl) (fun a b => boolWord_eq_bit (beq_iff_eq (a := a) (b := b)))
  | sne => cases h; exact .of_trigger 18 (by decide) (fun _ => rfl) (fun a b => boolWord_eq_bit (bne_iff_ne (a := a) (b := b)))
  | slt => cases h; exact .of_trigger 19 (by decide) (fun _ => rfl) (fun _ _ => boolWord_eq_bit BitVec.slt_iff_toInt_lt)
  | sltu => cases h; exact .of_trigger 20 (by decide) (fun _ => rfl) (fun _ _ => boolWord_eq_bit BitVec.ult_iff_lt)
  | sle => cases h; exact .of_trigger 21 (by decide) (fun _ => rfl) (fun _ _ => boolWord_eq_bit BitVec.sle_iff_toInt_le)
  | sleu => cases h; exact .of_trigger 22 (by decide) (fun _ => rfl) (fun _ _ => boolWord_eq_bit BitVec.ule_iff_le)
  | sext8 => cases h; exact .of_trigger 23 (by decide) (fun _ => rfl) fun _ _ => rfl
  | sext16 => cases h; exact .of_trigger 24 (by decide) (fun _ => rfl) fun _ _ => rfl
  | sext32 => cases h; exact .of_trigger 25 (by decide) (fun _ => rfl) fun _ _ => rfl
  | zext32 => cases h; exact .of_trigger 26 (by decide) (fun _ => rfl) (fun _ b => zeroExtend_truncate_32 b)
  | clz => cases h; exact .of_trigger 27 (by decide) (fun _ => rfl) (fun _ b => clzWord_eq b)
  | ctz => cases h; exact .of_trigger 28 (by decide) (fun _ => rfl) (fun _ b => ctzWord_eq b)
  | popc => cases h; exact .of_trigger 29 (by decide) (fun _ => rfl) (fun _ b => popcWord_eq b)
  | sh1add => cases h; exact .of_trigger 30 (by decide) (fun _ => rfl) shl_one_add
  | sh2add => cases h; exact .of_trigger 31 (by decide) (fun _ => rfl) shl_two_add
  | sh3add => cases h; exact .of_trigger 32 (by decide) (fun _ => rfl) shl_three_add
  | pass => cases h; exact .of_trigger 33 (by decide) (fun _ => rfl) fun _ _ => rfl
  | bext => cases h; exact .of_trigger 34 (by decide) (fun _ => rfl) iaBext_eq
  | _ => cases h

/-- Row i issues the bundle of one trigger of im that computes f: a multiply or, by its latency, a divide. -/
inductive RunsIm (i : Instr) (g : Guard) (src : Src) : Nat → (Word → Word → Word) → Prop
  | multiply {f : Word → Word → Word} (off : Nat) (hoff : off ≤ 8) (hi : ∀ s, exec i s = s.issueSolo (soloMove g src (.trig (imTrig off f)))) :
      RunsIm i g src 3 f
  | divide {f : Word → Word → Word} (off : Nat) (hoff : off ≤ 8) (hi : ∀ s, exec i s = s.issueSolo (soloMove g src (.trig (divTrig off f)))) :
      RunsIm i g src 18 f

theorem RunsIm.congr {i : Instr} {g : Guard} {src : Src} {lat : Nat} {f f' : Word → Word → Word} (h : RunsIm i g src lat f')
    (hf : ∀ a b, f' a b = f a b) : RunsIm i g src lat f := by
  obtain rfl : f' = f := funext fun a => funext (hf a)
  exact h

theorem imRow_runs {i : Instr} {g : Guard} {src : Src} {lat : Nat} {f : Word → Word → Word} (h : Claims.imRow i = some (g, src, lat, f)) :
    RunsIm i g src lat f := by
  cases i with
  | mul => cases h; exact (RunsIm.multiply 1 (by decide) fun _ => rfl).congr mul_eq_ofNat
  | mulh => cases h; exact (RunsIm.multiply 2 (by decide) fun _ => rfl).congr mulh_eq
  | mulhu => cases h; exact (RunsIm.multiply 3 (by decide) fun _ => rfl).congr mulhu_eq
  | mul32 => cases h; exact .multiply 4 (by decide) fun _ => rfl
  | div => cases h; exact (RunsIm.divide 5 (by decide) fun _ => rfl).congr fun a b => congrArg Prod.fst (divSigned_eq a b)
  | divu => cases h; exact (RunsIm.divide 6 (by decide) fun _ => rfl).congr fun a b => congrArg Prod.fst (divUnsigned_eq a b)
  | rem => cases h; exact (RunsIm.divide 7 (by decide) fun _ => rfl).congr fun a b => congrArg Prod.snd (divSigned_eq a b)
  | remu => cases h; exact (RunsIm.divide 8 (by decide) fun _ => rfl).congr fun a b => congrArg Prod.snd (divUnsigned_eq a b)
  | _ => cases h

/-- Multiply or divide, a row of im triggers im, and it is not mwr, which only the system context may run. -/
theorem RunsIm.trigger {i : Instr} {g : Guard} {src : Src} {lat : Nat} {f : Word → Word → Word} (h : RunsIm i g src lat f) :
    ∃ tr : Trigger, tr.unit = .im ∧ tr.code ≠ mwrCode ∧ ∀ s, exec i s = s.issueSolo (soloMove g src (.trig tr)) := by
  cases h with
  | multiply off hoff hi => exact ⟨_, rfl, by simp only [imTrig, mwrCode]; omega, hi⟩
  | divide off hoff hi => exact ⟨_, rfl, by simp only [divTrig, mwrCode]; omega, hi⟩

/-! ## What a trigger alone delivers -/

theorem issueSolo_iaTrig {off : Nat} (hoff : off ≤ 34) (u : BitVec 1) (f : Word → Word → Word) {g : Guard} {src : Src} {s : State} {x : Nat}
    {w : Worker} {v : VWord} {p : PopSt} (hf : Fires s x w g src v p) :
    ∃ t, s.issueSolo (soloMove g src (.trig (iaTrig u off f))) = .next t ∧ Only (s.popped x p) t x w
      (((s.front x p).starts (.ia u) ((f (s.begun x).lat.iaO[u.toNat] (v.truncate 64)).zeroExtend 2048) 1 0).noted p.nfs).passed := by
  have hcode : (iaTrig u off f).code ≤ 0x0E2 := by have := u.isLt; simp only [iaTrig]; omega
  exact issueTrig_ctx s x w g src v p _ (fun t => t.starts (.ia u) ((f (s.begun x).lat.iaO[u.toNat] (v.truncate 64)).zeroExtend 2048) 1 0) hf
    (by rw [mwrCode]; omega) (by omega) (passes_plain _ _ _ _ _ _ _ (by simp [iaTrig]) rfl rfl rfl nofun) rfl rfl rfl

/-- No divide is busy in a calm context, so a multiply leaves none. -/
theorem issueSolo_imTrig {off : Nat} (hoff : off ≤ 8) (f : Word → Word → Word) {g : Guard} {src : Src} {s : State} {x : Nat} {w : Worker}
    {v : VWord} {p : PopSt} (hf : Fires s x w g src v p) :
    ∃ t, s.issueSolo (soloMove g src (.trig (imTrig off f))) = .next t ∧ Only (s.popped x p) t x w
      ((({ s.front x p with divBusy := 0 } : Ctx).starts .im ((f (s.begun x).lat.imO (v.truncate 64)).zeroExtend 2048) 3 0).noted
        p.nfs).passed := by
  have hcode : (imTrig off f).code ≤ 0x108 := by simp only [imTrig]; omega
  have hidle : ({ s.front x p with divBusy := 0 } : Ctx) = s.front x p :=
    congrArg (fun n => ({ s.front x p with divBusy := n } : Ctx)) hf.calm.divide.symm
  rw [hidle]
  exact issueTrig_ctx s x w g src v p _ (fun t => t.starts .im ((f (s.begun x).lat.imO (v.truncate 64)).zeroExtend 2048) 3 0) hf
    (by rw [mwrCode]; omega) (by omega) (passes_plain _ _ _ _ _ _ _ (by simp [imTrig]) rfl rfl rfl nofun) rfl rfl rfl

/-- A context in which a divide has started: r is to come, and im is busy (R52, R53). -/
def Ctx.divides (t : Ctx) (r : Word) : Ctx := ({ t with divBusy := 18 } : Ctx).starts .im (r.zeroExtend 2048) 18 0

theorem divTrig_act (off : Nat) (f : Word → Word → Word) (env : Env) (s : State) (v : VWord) (hx : env.x < 5) :
    (divTrig off f).act env s v = s.updCtx env.c env.x fun t => t.divides (f env.lat.imO (v.truncate 64)) :=
  State.updCtx_updCtx s env.c env.x (fun t => t.starts .im ((f env.lat.imO (v.truncate 64)).zeroExtend 2048) 18 0)
    (fun t => { t with divBusy := 18 }) hx

theorem issueSolo_divTrig {off : Nat} (hoff : off ≤ 8) (f : Word → Word → Word) {g : Guard} {src : Src} {s : State} {x : Nat} {w : Worker}
    {v : VWord} {p : PopSt} (hf : Fires s x w g src v p) :
    ∃ t, s.issueSolo (soloMove g src (.trig (divTrig off f))) = .next t ∧ Only (s.popped x p) t x w
      (((s.front x p).divides (f (s.begun x).lat.imO (v.truncate 64))).noted p.nfs).passed := by
  have hx : x < 5 := Nat.lt_succ_of_lt hf.issuing.inCore
  have hcode : (divTrig off f).code ≤ 0x108 := by simp only [divTrig]; omega
  exact issueTrig_ctx s x w g src v p _ (fun t => t.divides (f (s.begun x).lat.imO (v.truncate 64))) hf (by rw [mwrCode]; omega) (by omega)
    (passes_plain _ _ _ _ _ _ _ (by simp [divTrig]) rfl rfl rfl nofun) (divTrig_act off f _ _ v hx) rfl rfl

/-! ## What taking a trap leaves of the state -/

/-- Whatever does not depend on the dies and the owed decrements is as before, once a bundle has been abandoned (R145, R146, R148). -/
theorem abandon_keeps {α : Type} (read : State → α) (hdie : ∀ s d f, read (State.updDie s d f) = read s)
    (howed : ∀ s l, read { s with scopeDecs := l } = read s) (s : State) (l : List Awaiting) : read (s.abandon l) = read s := by
  unfold State.abandon
  rw [howed]
  refine List.foldlRecOn (motive := fun u : State => read u = read s) l _ rfl fun u hu a _ => ?_
  cases a.entry with
  | none => exact hu
  | some id => exact (hdie _ _ _).trans hu

/-- A trap changes the core, once the bundle's requests have been withdrawn in a state u of the same cores and memory. -/
theorem takeTrap_eq (s : State) (c x : Nat) (tr : Trap) (n : Nat) : ∃ u : State, u.cores = s.cores ∧ u.mem = s.mem ∧
    s.takeTrap c x tr n = u.updCore c fun k => { k.setCtx x ((k.ctx x).trapped tr) with
      stall := k.stall + n, running := if ((k.ctx x).trapped tr).sys.isSome then some 4 else k.running } := by
  have hcores := abandon_keeps State.cores (fun _ _ _ => rfl) (fun _ _ => rfl) s (s.ctx c x).awaiting
  have hmem := abandon_keeps State.mem (fun _ _ _ => rfl) (fun _ _ => rfl) s (s.ctx c x).awaiting
  unfold State.takeTrap
  dsimp only
  split
  · refine ⟨_, ?_, ?_, rfl⟩
    · exact hcores
    · exact hmem
  · refine ⟨_, ?_, ?_, rfl⟩
    · exact hcores
    · exact hmem

theorem takeTrap_core (s : State) (c x : Nat) (tr : Trap) (n : Nat) : (s.takeTrap c x tr n).core c =
    { (s.core c).setCtx x ((s.ctx c x).trapped tr) with
      stall := (s.core c).stall + n, running := if ((s.ctx c x).trapped tr).sys.isSome then some 4 else (s.core c).running } := by
  obtain ⟨u, hcores, -, heq⟩ := takeTrap_eq s c x tr n
  have hcore : u.core c = s.core c := by rw [State.core, hcores, State.core]
  rw [heq, State.updCore_core, hcore, State.ctx]

theorem takeTrap_ctx (s : State) (c x : Nat) (tr : Trap) (n : Nat) (hx : x < 5) : (s.takeTrap c x tr n).ctx c x = (s.ctx c x).trapped tr := by
  rw [State.ctx, takeTrap_core]
  exact Core.setCtx_ctx _ _ _ hx

@[simp] theorem takeTrap_mem (s : State) (c x : Nat) (tr : Trap) (n : Nat) : (s.takeTrap c x tr n).mem = s.mem := by
  obtain ⟨u, -, hmem, heq⟩ := takeTrap_eq s c x tr n
  rw [heq, State.updCore_mem, hmem]

@[simp] theorem ctx_updCore_charge (s : State) (c x n : Nat) : (s.updCore c fun k => k.charge n).ctx c x = s.ctx c x := by
  rw [State.ctx, State.updCore_core]
  rfl

/-! ## A trigger of im while a divide is busy (R17, R53) -/

/-- UNITBUSY, as the move in slot k takes it. -/
def busyTrap (k : Nat) : Trap := { cause := .unitbusy, slot := k }

/-- UNITBUSY is not of the user class: it goes to the system context, and the results outstanding stay where they are (R339, R342). -/
theorem trapped_busyTrap (t : Ctx) (k : Nat) :
    (t.trapped (busyTrap k)).sys.map (·.cause) = some .unitbusy ∧ (t.trapped (busyTrap k)).sys.isSome = true
      ∧ (t.trapped (busyTrap k)).snap = t.snap ∧ (t.trapped (busyTrap k)).divBusy = t.divBusy := ⟨rfl, rfl, rfl, rfl⟩

/-- A context's bundle may hold a trigger of im with guard g while a divide is busy, and no close of a scope has been asked for (R145). -/
structure Busy (t : Ctx) (g : Guard) : Prop where
  acts : t.asNever = false
  guarded : t.guard g = true
  divide : t.divBusy ≠ 0
  noClose : t.closing = false

theorem assess_busy {s : State} {c x : Nat} {m : Move} {tr : Trigger} (hm : m.act = .trig tr) (hu : tr.unit = .im)
    (hb : Busy (s.ctx c x) m.guard) : s.assess c x [m] = .trap (busyTrap m.slot) := by
  have hact : (if (s.ctx c x).asNever = true then [] else [m].filter fun m => (s.ctx c x).guard m.guard) = [m] := by
    simp [hb.acts, hb.guarded]
  have hbusy : imBusy (s.ctx c x) [m] = some m.slot := by simp [imBusy, hb.divide, hm, hu]
  have hex : s.examine c x [m] = .trap (busyTrap m.slot) := by
    unfold State.examine
    simp only [hact, bundleClash_one, hbusy]
    rfl
  rw [State.assess, hex, hb.noClose]
  rfl

theorem issueSolo_busy {s : State} {x : Nat} {w : Worker} {g : Guard} {src : Src} {tr : Trigger} (hu : tr.unit = .im) (hk : tr.code ≠ mwrCode)
    (hi : Issuing s x w) (hb : Busy (s.begun x) g) (hs : ∀ k, src = .g k → k.toNat < (s.begun x).nregs) :
    s.issueSolo (soloMove g src (.trig tr)) =
      .next (((s.atBundle x).takeTrap s.focus.c x (busyTrap 0)).updCore s.focus.c fun k => k.charge 0) := by
  have hctx := s.atBundle_ctx x (Nat.lt_succ_of_lt hi.inCore)
  have hallow : Allowed (s.begun x) (soloMove g src (.trig tr)) := ⟨nofun, by simp [Move.isMwr, soloMove, hk]⟩
  unfold State.issueSolo
  rw [cycle_issuing s x w _ hi [soloMove g src (.trig tr)]]
  · unfold State.issueMoves
    rw [assess_busy rfl hu (by rwa [hctx])]
    rfl
  · rw [show (s.atBundle x).focus.c = s.focus.c from rfl, hctx, check_allowed _ _ _ hs hallow]

theorem issueSolo_busy_keeps {s : State} {x : Nat} {w : Worker} {g : Guard} {src : Src} {tr : Trigger} (hu : tr.unit = .im)
    (hk : tr.code ≠ mwrCode) (hi : Issuing s x w) (hb : Busy (s.begun x) g) (hs : ∀ k, src = .g k → k.toNat < (s.begun x).nregs) :
    ∃ t, s.issueSolo (soloMove g src (.trig tr)) = .next t ∧ (t.core s.focus.c).running = some 4
      ∧ (t.ctx s.focus.c x).sys.map (·.cause) = some .unitbusy ∧ (t.ctx s.focus.c x).snap = (s.begun x).snap
      ∧ (t.ctx s.focus.c x).divBusy = (s.begun x).divBusy ∧ t.mem = s.mem := by
  have hx : x < 5 := Nat.lt_succ_of_lt hi.inCore
  obtain ⟨hcause, hsys, hsnap, hdiv⟩ := trapped_busyTrap (s.begun x) 0
  refine ⟨_, issueSolo_busy hu hk hi hb hs, ?_, ?_⟩
  · rw [State.updCore_core, Core.charge, takeTrap_core, s.atBundle_ctx x hx, if_pos hsys]
  · rw [ctx_updCore_charge, takeTrap_ctx _ _ _ _ _ hx, s.atBundle_ctx x hx]
    exact ⟨hcause, hsnap, hdiv, takeTrap_mem (s.atBundle x) s.focus.c x (busyTrap 0) 5⟩

/-! ## The obligations -/

/-- Settles O5: each row is a trigger of its unit, which starts R48's result and does nothing else. -/
theorem integerUnitsDeliver : Obligations.IntegerUnitsDeliver := by
  intro i g src u f s x w v p hrow hf
  obtain ⟨off, hoff, hi⟩ := iaRow_runs hrow
  rw [hi]
  exact issueSolo_iaTrig hoff u f hf

/-- Settles O6: a row is a multiply or a divide, which starts its result with its own latency; while a divide is busy the examination ends at
R17's check of im, and UNITBUSY goes to the system context. -/
theorem multiplyDivideDeliver : Obligations.MultiplyDivideDeliver := by
  refine ⟨?deliver, ?busy⟩
  case deliver =>
    intro i g src lat f s x w v p hrow hf
    cases imRow_runs hrow with
    | multiply off hoff hi =>
      rw [hi]
      exact issueSolo_imTrig hoff f hf
    | divide off hoff hi =>
      rw [hi]
      exact issueSolo_divTrig hoff f hf
  case busy =>
    intro i g src lat f s x w hrow hi hclose hdiv hacts hguard hs
    obtain ⟨tr, hu, hk, hexec⟩ := (imRow_runs hrow).trigger
    rw [hexec]
    exact issueSolo_busy_keeps hu hk hi ⟨hacts, hguard, hdiv, hclose⟩ hs

end Sys2Proof.Machine

/-!
SUPPORT. The bundle that traps, and the bundle of which no move acts: how BREAK is found and taken (R339-R345), and what an issue cycle without an
active move leaves (R21, R32).
-/

namespace Sys2Proof.Machine

/-! ## The core at the bundle -/

@[simp] theorem Core.setCtx_stall (k : Core) (x : Nat) (t : Ctx) : (k.setCtx x t).stall = k.stall := by
  unfold Core.setCtx; split <;> rfl

@[simp] theorem Core.setCtx_running (k : Core) (x : Nat) (t : Ctx) : (k.setCtx x t).running = k.running := by
  unfold Core.setCtx; split <;> rfl

@[simp] theorem Core.setCtx_clim (k : Core) (x : Nat) (t : Ctx) : (k.setCtx x t).clim = k.clim := by
  unfold Core.setCtx; split <;> rfl

theorem atBundle_ch (s : State) (x : Nat) : Ch s (s.atBundle x) s.focus.c x (s.begun x) := Ch.updCtx s s.focus.c x Ctx.begin

@[simp] theorem atBundle_core_stall (s : State) (x : Nat) : ((s.atBundle x).core s.focus.c).stall = (s.core s.focus.c).stall := by
  rw [(atBundle_ch s x).core, Core.setCtx_stall]

@[simp] theorem atBundle_core_running (s : State) (x : Nat) : ((s.atBundle x).core s.focus.c).running = (s.core s.focus.c).running := by
  rw [(atBundle_ch s x).core, Core.setCtx_running]

/-- The limiter, off, holds no bundle (R179). -/
theorem limits_atBundle {s : State} {x : Nat} {w : Worker} (hi : Issuing s x w) (n : Nat) :
    ((s.atBundle x).core s.focus.c).limits n = false := by
  have hoff : ((s.atBundle x).core s.focus.c).clim.1 = false := by
    rw [(atBundle_ch s x).core, Core.setCtx_clim]
    exact hi.noLimit
  simp [Core.limits, hoff]

/-- A context that may run is not in the system context. -/
theorem runnable_sys {t : Ctx} (h : t.runnable = true) : t.sys = none := by
  unfold Ctx.runnable at h
  simp only [Bool.and_eq_true] at h
  exact Option.isNone_iff_eq_none.1 h.2

theorem begun_sys {s : State} {x : Nat} {w : Worker} (hi : Issuing s x w) : (s.begun x).sys = none := runnable_sys hi.runnable

theorem issueSolo_eq {s : State} {x : Nat} {w : Worker} {m : Move} (hi : Issuing s x w) (hc : m.check (s.begun x).nregs false = none) :
    s.issueSolo m = .next ((s.atBundle x).issueMoves s.focus.c x [m]) := by
  have hctx := s.atBundle_ctx x (Nat.lt_succ_of_lt hi.inCore)
  unfold State.issueSolo
  rw [cycle_issuing s x w _ hi [m]]
  simp only [show (s.atBundle x).focus.c = s.focus.c from rfl, hctx, Nat.ne_of_lt hi.inCore, decide_false, hc]

/-- A trap that the examination of the issuing core's bundle finds is taken in that cycle: five more follow it before the next bundle (R341). -/
theorem issueSolo_trap {s : State} {x : Nat} {w : Worker} {m : Move} {tr : Trap} (hi : Issuing s x w)
    (hc : m.check (s.begun x).nregs false = none) (ha : (s.atBundle x).assess s.focus.c x [m] = .trap tr) :
    ∃ t, s.issueSolo m = .next t ∧ t.mem = s.mem ∧ (t.core s.focus.c).stall = 5 ∧ t.ctx s.focus.c x = (s.begun x).trapped tr
      ∧ (t.core s.focus.c).running = if ((s.begun x).trapped tr).sys.isSome then some 4 else some x := by
  have hx : x < 5 := Nat.lt_succ_of_lt hi.inCore
  have hctx := s.atBundle_ctx x hx
  have hidle : (s.core s.focus.c).stall = 0 := hi.noStall
  have hruns : (s.core s.focus.c).running = some x := hi.runs
  have hnext : s.issueSolo m = .next (((s.atBundle x).takeTrap s.focus.c x tr).updCore s.focus.c fun k => k.charge 0) := by
    rw [issueSolo_eq hi hc, State.issueMoves, ha]
  refine ⟨_, hnext, takeTrap_mem (s.atBundle x) s.focus.c x tr 5, ?_, ?_, ?_⟩
  · rw [State.updCore_core, Core.charge, takeTrap_core, atBundle_core_stall, hidle]
  · rw [ctx_updCore_charge, takeTrap_ctx _ _ _ _ _ hx, hctx]
  · rw [State.updCore_core, Core.charge, takeTrap_core, hctx, atBundle_core_running, hruns]

/-! ## BREAK (R345) -/

/-- BREAK, as sy.trap in slot k takes it with value v. -/
def brkTrap (v : VWord) (k : Nat) : Trap := { cause := .brk, slot := k, info := v.toNat % 512 }

/-- The examination of sy.trap alone in a calm context passes every check before BREAK (R340). -/
theorem examine_trap {s : State} {c x : Nat} {m : Move} {v : VWord} {q : PopSt} (hm : m.act = .trig trigTrap) (hc : Calm (s.ctx c x))
    (hg : (s.ctx c x).guard m.guard = true)
    (hs : s.readSrc (s.ctx c x) { seed := (s.ctx c x).ctl.seed } m.src = (.val v, q)) : s.examine c x [m] = .trap (brkTrap v m.slot) := by
  generalize ht : s.ctx c x = t at *
  have hact : (if t.asNever = true then [] else [m].filter fun m => t.guard m.guard) = [m] := by simp [hc.moves, hg]
  have hfew : ¬ 24 < outstanding t [m] := outstanding_calm t m hc fun g h => by
    obtain rfl : trigTrap = g := by simpa [hm] using h
    exact Nat.zero_le _
  have hslot : slotTrap (envOf c x t [(m, v)]) s t.sendOpen [(m, .val v)] = none := by simp [slotTrap, hm, trigTrap, syTrig]
  have hstack : stackTrap t [(m, v)] = none := by simp [stackTrap, hm]
  have hbrk : breakTrap [(m, v)] = some (brkTrap v m.slot) := by simp [breakTrap, triggersOf, hm, trigTrap, syTrig, Trap.at, brkTrap]
  unfold State.examine
  simp only [ht, hact, bundleClash_one, imBusy_calm t _ hc, if_neg hfew, readAll_one s t _ q m v hs, pendingTrap_calm t _ _ hc]
  simp [hslot, hstack, hbrk]

theorem assess_trap {s : State} {x : Nat} {w : Worker} {g : Guard} {src : Src} {v : VWord} {p : PopSt} (hf : Fires s x w g src v p)
    (hclose : (s.begun x).closing = false) :
    (s.atBundle x).assess s.focus.c x [soloMove g src (.trig trigTrap)] = .trap (brkTrap v 0) := by
  have hctx := s.atBundle_ctx x (Nat.lt_succ_of_lt hf.issuing.inCore)
  have hex : (s.atBundle x).examine s.focus.c x [soloMove g src (.trig trigTrap)] = .trap (brkTrap v 0) := by
    refine examine_trap (q := p) rfl ?_ ?_ ?_ <;> rw [hctx]
    · exact hf.calm
    · exact hf.guarded
    · exact hf.gives.reads
  rw [State.assess, hex, hctx, hclose]
  rfl

/-- A context whose bundle a trap has abandoned: it is resumed at, and nothing of it has been sent (R341). -/
def Ctx.abandoned (t : Ctx) : Ctx := { t with awaiting := [], blocked := 0, tokDone := false, hasBlocked := false, resumed := true }

/-- BREAK is of the user class (R339, R342). -/
theorem trapped_brkTrap (t : Ctx) (v : VWord) (k : Nat) : t.trapped (brkTrap v k) =
    if t.ctl.utvec.getLsbD 0 && t.handler.isNone then t.abandoned.enterUser (brkTrap v k) else t.abandoned.enterSystem (brkTrap v k) := by
  simp [Ctx.trapped, Ctx.takeFault, brkTrap, Cause.isUser, Ctx.abandoned, show (Cause.brk != Cause.mxnan) = true from rfl]

theorem brkTrap_word (v : VWord) (pc : BIndex) :
    (brkTrap v 0).word pc = BitVec.ofNat 64 (14 * 2 ^ 59 + v.toNat % 512 * 2 ^ 47 + pc.toNat) := by
  simp only [Trap.word, brkTrap, Cause.code, Nat.zero_mod, Nat.zero_mul, Nat.add_zero, Nat.mod_mod]

/-- Where BREAK goes, its bundle changes no register and pops no entry. -/
theorem trapped_brkTrap_frame (t : Ctx) (v : VWord) (k : Nat) :
    (t.trapped (brkTrap v k)).g = t.g ∧ (t.trapped (brkTrap v k)).ldq = t.ldq := by
  rw [trapped_brkTrap]
  split <;> exact ⟨rfl, rfl⟩

/-! ## A bundle of which no move acts -/

/-- The examination of a bundle whose guards are all false finds nothing to wait for (R21, R23). -/
theorem examine_inactive {s : State} {c x : Nat} {ms : List Move} (hc : Calm (s.ctx c x))
    (hoff : ∀ m ∈ ms, (s.ctx c x).guard m.guard = false) : s.examine c x ms = .go [] { seed := (s.ctx c x).ctl.seed } := by
  generalize ht : s.ctx c x = t at *
  have hact : (if t.asNever = true then [] else ms.filter fun m => t.guard m.guard) = [] := by
    simpa [hc.moves, List.filter_eq_nil_iff] using hoff
  have hfew : ¬ 24 < outstanding t [] := by
    have hres := hc.results
    have hle : (t.snap.countP fun e => 1 < e.left) ≤ t.snap.length := List.countP_le_length
    simp only [outstanding, List.map_nil, List.sum_nil, Nat.add_zero]
    omega
  unfold State.examine
  simp only [ht, hact, imBusy_calm t _ hc, if_neg hfew, State.readAll, pendingTrap_calm t _ _ hc]
  simp [bundleClash, slotTrap, roomFor, waitsOf, triggersOf, stackTrap, breakTrap, hc.drained]

/-- A change of the context after other changes of it. -/
theorem Ch.thenUpd {s t : State} {c x : Nat} {k : Ctx} (h : Ch s t c x k) (hx : x < 5) (f : Ctx → Ctx) : Ch s (t.updCtx c x f) c x (f k) := by
  have hupd := Ch.updCtx t c x f
  rw [h.ctx hx] at hupd
  exact h.trans hupd hx

/-- The end of a commit but for the fetch decision: core c, where worker w has issued, and launch l are charged n (R25, R172, R179). -/
def State.charged (b : State) (c : Nat) (w : Worker) (l n : Nat) : State :=
  (b.updCore c fun k => { k.charge n with lastWorker := some w.uid }).chargeLaunch c l n

theorem charged_cores (b : State) (c : Nat) (w : Worker) (l n : Nat) :
    (b.charged c w l n).cores = (b.updCore c fun k => { k.charge n with lastWorker := some w.uid }).cores := by
  rw [State.charged, chargeLaunch_rest]

theorem charged_core (b : State) (c : Nat) (w : Worker) (l n : Nat) :
    (b.charged c w l n).core c = { (b.core c).charge n with lastWorker := some w.uid } := by
  rw [State.core, charged_cores]
  exact State.updCore_core _ _ _

theorem charged_core_other (b : State) (c : Nat) (w : Worker) (l n d : Nat) (hd : d ≠ c) : (b.charged c w l n).core d = b.core d := by
  rw [State.core, charged_cores]
  exact State.updCore_core_other _ _ _ _ hd

theorem charged_ctx (b : State) (c : Nat) (w : Worker) (l n x : Nat) : (b.charged c w l n).ctx c x = b.ctx c x := by
  rw [State.ctx, charged_core]
  rfl

theorem charged_rest (b : State) (c : Nat) (w : Worker) (l n : Nat) :
    b.charged c w l n = { b with cores := (b.charged c w l n).cores, launches := (b.charged c w l n).launches,
                                 energyMsgs := (b.charged c w l n).energyMsgs } := by
  rw [charged_cores]
  exact chargeLaunch_rest _ c l n

/-- When only the context has changed before the charge, and it becomes f after it, nothing else has changed but what is charged. -/
theorem Only.of_charged {s b : State} {x : Nat} {w : Worker} {k : Ctx} (hb : Ch s b s.focus.c x k) (hx : x < 5) (l n : Nat) (f : Ctx) :
    Only s ((b.charged s.focus.c w l n).setCtx s.focus.c x f) x w f := by
  obtain ⟨hlaunch, hmsgs⟩ := chargeLaunch_launches (b.updCore s.focus.c fun k => { k.charge n with lastWorker := some w.uid }) s.focus.c l n
  have hset := Ch.setCtx (b.charged s.focus.c w l n) s.focus.c x f
  have hlaunches : b.launches = s.launches := by rw [hb.rest]
  have henergy : b.energyMsgs = s.energyMsgs := by rw [hb.rest]
  refine ⟨?_, fun d hd => ?_, ?_, ?_, ?_⟩
  · rw [hset.core, charged_core, hb.core]
    simp [Core.charge, Core.setCtx, hx, vset, Vector.setIfInBounds]
  · rw [hset.cores d hd, charged_core_other _ _ _ _ _ _ hd, hb.cores d hd]
  · rw [hset.rest, charged_rest, hb.rest]
  · rw [hset.rest, ← hlaunches]
    exact hlaunch
  · rw [hset.rest, ← henergy]
    exact hmsgs

/-- A context at the end of an issue cycle in which no move has acted, before fetch moves on (R19, R23). -/
def Ctx.counted (t : Ctx) : Ctx := { t.passed with pc := t.pc, nul := t.nul }

/-- The state in a commit without an active move, before its cycle is charged and fetch moves on: it pops nothing, and each latch keeps its value. -/
def State.counted (s : State) (x : Nat) : State :=
  (((s.atBundle x).takePops s.focus.c x { seed := (s.begun x).ctl.seed }).updCtx s.focus.c x
    fun t => { t with lat := (s.begun x).lat }).updCtx s.focus.c x Ctx.counted

theorem counted_ch (s : State) (x : Nat) (hx : x < 5) : Ch s (s.counted x) s.focus.c x (s.begun x).counted :=
  (((atBundle_ch s x).trans (takePops_none _ _ _ _ (s.atBundle_ctx x hx)) hx).thenUpd hx _).thenUpd hx _

theorem commit_inactive {s : State} {x : Nat} {w : Worker} (hi : Issuing s x w) :
    ∃ n, (s.atBundle x).commit s.focus.c x [] { seed := (s.begun x).ctl.seed } =
      ((s.counted x).charged s.focus.c w (s.begun x).launch n).moveOn s.focus.c x (s.begun x) := by
  have hctx := s.atBundle_ctx x (Nat.lt_succ_of_lt hi.inCore)
  have hw : (s.begun x).worker = some w := hi.holds
  refine ⟨weightOf (envOf s.focus.c x (s.begun x) []) (s.atBundle x) [], ?_⟩
  unfold State.commit
  simp only [hctx, hw, Option.map_some, Option.isSome_some, if_true]
  rfl

/-- The commit of a bundle without an active move passes one issue cycle and does nothing else (R21, R32). -/
theorem commit_inactive_only {s : State} {x : Nat} {w : Worker} (hi : Issuing s x w) (hs : Straight (s.begun x)) :
    Only s ((s.atBundle x).commit s.focus.c x [] { seed := (s.begun x).ctl.seed }) x w (s.begun x).passed := by
  have hx : x < 5 := Nat.lt_succ_of_lt hi.inCore
  obtain ⟨n, hcommit⟩ := commit_inactive hi
  have hctx : ((s.counted x).charged s.focus.c w (s.begun x).launch n).ctx s.focus.c x = (s.begun x).counted :=
    (charged_ctx _ _ _ _ _ _).trans ((counted_ch s x hx).ctx hx)
  rw [hcommit, moveOn_straight _ s.focus.c x (s.begun x) hs (by rw [hctx]; rfl), hctx]
  exact Only.of_charged (counted_ch s x hx) hx _ n _

/-- A bundle whose one move has a false guard issues, and the move neither acts nor raises anything (R21, R345). -/
theorem issueSolo_inactive {s : State} {x : Nat} {w : Worker} {m : Move} (hi : Issuing s x w) (hc : Calm (s.begun x))
    (hs : Straight (s.begun x)) (hg : (s.begun x).guard m.guard = false) (hm : m.check (s.begun x).nregs false = none) :
    ∃ t, s.issueSolo m = .next t ∧ Only s t x w (s.begun x).passed := by
  have hctx := s.atBundle_ctx x (Nat.lt_succ_of_lt hi.inCore)
  have hex : (s.atBundle x).examine s.focus.c x [m] = .go [] { seed := (s.begun x).ctl.seed } := by
    rw [← hctx] at hc hg ⊢
    exact examine_inactive hc (by simpa using hg)
  refine ⟨_, ?_, commit_inactive_only hi hs⟩
  rw [issueSolo_eq hi hm, State.issueMoves, State.assess, hex]
  simp only [Assess.held, limits_atBundle hi, Bool.false_eq_true, if_false]

/-- Settles O12: sy.trap passes every check before BREAK, which is of the user class; where its guard is false no move acts. -/
theorem breakTakesItsTrap : Obligations.BreakTakesItsTrap := by
  refine ⟨?fires, ?guardedOff, ?encoding⟩
  case fires =>
    intro g src s x w v p hf hclose
    have hallow : Allowed (s.begun x) (soloMove g src (.trig trigTrap)) := ⟨nofun, rfl⟩
    obtain ⟨t, hnext, hmem, hstall, hctx, hrun⟩ :=
      issueSolo_trap hf.issuing (check_allowed _ _ _ hf.gives.allotted hallow) (assess_trap hf hclose)
    obtain ⟨hregs, hldq⟩ := trapped_brkTrap_frame (s.begun x) v 0
    refine ⟨t, hnext, hmem, hstall, hctx ▸ hregs, hctx ▸ hldq, ?_⟩
    rw [hrun, hctx, trapped_brkTrap, ← brkTrap_word]
    split
    · have hstays : ((s.begun x).abandoned.enterUser (brkTrap v 0)).sys = none := begun_sys hf.issuing
      exact ⟨by rw [hstays]; rfl, rfl, rfl, rfl, rfl, rfl⟩
    · exact ⟨rfl, rfl, rfl⟩
  case guardedOff =>
    intro g src a s x w hrow hi hc hs hg hm
    cases hrow
    exact issueSolo_inactive hi hc hs hg hm
  case encoding => decide

end Sys2Proof.Machine
